-- ==== Sys2Proof/Word.lean ====
section
/-!
DEFINITION. The word types of the machine and nothing more: a scalar register is 64 bits (R189), a lane is 32 bits,
a lane register of 128 lanes is 4,096 bits (R239), a stream register 256 bits (R94).
-/
namespace Sys2Proof

/-- A scalar register value (R189). -/
abbrev Word := BitVec 64

/-- One lane, or one scalar floating-point value (R101). -/
abbrev Lane := BitVec 32

/-- A byte of memory. -/
abbrev Byte := BitVec 8

/-- A lane register, or one 512-byte block: lane `j` of the 128 lanes is bits `[32j+31 : 32j]` (R81, R239). -/
abbrev Lanes := BitVec 4096

/-- One bit for each of the 128 lanes (R239). -/
abbrev LaneMask := BitVec 128

end Sys2Proof
end

