-- ==== Sys2Proof/Events.lean ====
section
/-!
DEFINITION. The data types that event rows carry beside numbers: what reaches the package from outside it.
-/
namespace Sys2Proof

/-- The readings of a core's sensors over one sample interval (R348): the margins of the four ring oscillators, the two
current-density means, the temperature in 1/1000 of a degree and the supply in microvolts. The activity counter is the
model's own state. -/
structure Sample where
  ro : List Int
  eSup : Nat
  eBus : Nat
  temp : Int
  volt : Nat
  deriving DecidableEq, Repr

/-- A firmware image (R405, R410): its component (1 Thyme, 2 Sage, 3 core service routine; 0 controller firmware, 4 hub image,
5 operating-system loader), security version, SHA-256 digest, and whether its signature verifies. -/
structure Image where
  comp : Nat
  svn : Nat
  digest : BitVec 256
  ok : Bool
  deriving DecidableEq, Repr

/-- A transport packet that arrives at a scale-out port (R388): an acknowledgement of the request with a flight number, the data
that answers it, the value of an object that a WAITC of context `k` of core `c` has asked for, a write of another package with its party word, a trimmed
packet, or word that a packet of a request did not arrive, so that it is sent again. -/
inductive Packet where
  | ack (n : Nat)
  | data (n : Nat) (bytes : List Byte)
  | object (c k v : Nat)
  | write (pa : Nat) (bytes : List Byte) (party : Word)
  | trimmed
  | again (n : Nat)
  deriving DecidableEq, Repr

/-- A soft error (R375, R216, R255, R302, R87): a number of bits flipped in a 32-byte word of memory, a scalar or lane register,
an accumulator of a bank, or the mirror of a queue; and a residue mismatch of the result that the `i`-th write in flight of a context
carries, or of the next address of a memory slot, met once or twice. -/
inductive SoftError where
  | word (pa bits : Nat)
  | sreg (c k r : Nat)
  | lreg (c k r : Nat)
  | acc (c bank idx bits : Nat)
  | mirror (c k q bit : Nat)
  | result (c k i times : Nat)
  | address (c slot times : Nat)
  deriving DecidableEq, Repr

end Sys2Proof
end

