-- ==== Sys2Proof/Fields.lean ====
section
/-!
DEFINITION. The fields of the slot words, one structure for each layout of R36, R38, R40, R41, R42 and R43, without the
opcode, which the constructor of `Instr` stands for.
-/
namespace Sys2Proof

/-- Form R (R36): guard, destination, source A, immediate flag, second operand. -/
structure RForm where
  g : BitVec 4
  d : BitVec 5
  a : BitVec 5
  i : BitVec 1
  b : BitVec 10
  deriving DecidableEq, Repr

/-- Form L (R36): guard, destination, 16-bit immediate. -/
structure LForm where
  g : BitVec 4
  d : BitVec 5
  imm : BitVec 16
  deriving DecidableEq, Repr

/-- Form T (R36): guard and 21-bit literal. -/
structure TForm where
  g : BitVec 4
  lit : BitVec 21
  deriving DecidableEq, Repr

/-- Form B (R36): guard, signed segment displacement, bundle index. -/
structure BForm where
  g : BitVec 4
  disp : BitVec 12
  idx : BitVec 9
  deriving DecidableEq, Repr

/-- Form BP (R36): guard, predicate, signed segment displacement, bundle index. -/
structure BPForm where
  g : BitVec 4
  p : BitVec 3
  disp : BitVec 9
  idx : BitVec 9
  deriving DecidableEq, Repr

/-- Form J (R36): guard, loop index, loop-end bundle, count operand. -/
structure JForm where
  g : BitVec 4
  x : BitVec 3
  e : BitVec 9
  c : BitVec 9
  deriving DecidableEq, Repr

/-- A vector word (R38). -/
structure VForm where
  g : BitVec 4
  ty : BitVec 4
  gm : BitVec 8
  dst : BitVec 8
  a : BitVec 10
  b : BitVec 10
  c : BitVec 10
  lm : BitVec 2
  deriving DecidableEq, Repr

/-- A special-function word (R40); its low 22 bits are zero. -/
structure SForm where
  g : BitVec 4
  ty : BitVec 4
  gm : BitVec 8
  dst : BitVec 8
  src : BitVec 10
  lm : BitVec 2
  z : BitVec 22
  deriving DecidableEq, Repr

/-- A permute word (R41). -/
structure PForm where
  g : BitVec 4
  tf : BitVec 4
  tt : BitVec 4
  gm : BitVec 8
  dst : BitVec 8
  a : BitVec 10
  b : BitVec 10
  imm : BitVec 10
  deriving DecidableEq, Repr

/-- A memory word (R42): guard, size or class, scope, data specifier, base, index, stated arrival, displacement. FENCE reads
its two sets from the bits of `data` and `base`. -/
structure MForm where
  g : BitVec 4
  sz : BitVec 3
  sc : BitVec 3
  data : BitVec 8
  base : BitVec 5
  idx : BitVec 5
  at16 : BitVec 5
  disp : BitVec 24
  deriving DecidableEq, Repr

/-- A matrix word (R43): guard, cell operation, bank, streams, drain queue, drain format, flags, slice. -/
structure XForm where
  g : BitVec 4
  cell : BitVec 2
  bank : BitVec 1
  a : BitVec 4
  b : BitVec 4
  q : BitVec 4
  fmt : BitVec 3
  flags : BitVec 3
  slice : BitVec 4
  deriving DecidableEq, Repr

end Sys2Proof
end

