-- ==== Sys2Proof/Syntax.lean ====
section
/-!
DEFINITION. The steps of the machine: one constructor for each row of the table of operations and events. The rows with a slot
word carry the fields of that word; the event rows name the core, context, message or command that the event concerns.
-/
namespace Sys2Proof

inductive Instr where
  /-- ADD (R191): Scalar add of S[a] and B, modulo 2^64, into S[d]. -/
  | add (w : RForm)
  /-- SUB (R191): Scalar subtract of B from S[a], modulo 2^64. -/
  | sub (w : RForm)
  /-- MUL (R191): Low 64 bits of S[a] times B. -/
  | mul (w : RForm)
  /-- MULH (R191): High 64 bits of the signed 128-bit product. -/
  | mulh (w : RForm)
  /-- MULHN (R191): High 64 bits of the unsigned 128-bit product. -/
  | mulhn (w : RForm)
  /-- DIV (R191): Signed quotient rounded toward zero, with the edge cases of R103. -/
  | div (w : RForm)
  /-- DIVN (R191): Unsigned quotient. -/
  | divn (w : RForm)
  /-- MOD (R191): Signed remainder, taking the sign of S[a]. -/
  | mod (w : RForm)
  /-- MODN (R191): Unsigned remainder. -/
  | modn (w : RForm)
  /-- AND (R191): Bitwise and of S[a] and B. -/
  | and (w : RForm)
  /-- OR (R191): Bitwise or of S[a] and B. -/
  | or (w : RForm)
  /-- XOR (R191): Bitwise xor of S[a] and B. -/
  | xor (w : RForm)
  /-- ANDN (R191): S[a] and not B. -/
  | andn (w : RForm)
  /-- ORN (R191): S[a] or not B. -/
  | orn (w : RForm)
  /-- SHL (R191): Shift S[a] left by B mod 64. -/
  | shl (w : RForm)
  /-- SHRA (R191): Arithmetic shift right of S[a]. -/
  | shra (w : RForm)
  /-- SHRL (R191): Logical shift right of S[a]. -/
  | shrl (w : RForm)
  /-- ROTL (R191): Rotate S[a] left by B mod 64. -/
  | rotl (w : RForm)
  /-- CLZ (R191): Count the leading zeros of S[a]. -/
  | clz (w : RForm)
  /-- CTZ (R191): Count the trailing zeros of S[a]. -/
  | ctz (w : RForm)
  /-- POPC (R191): Count the one bits of S[a]. -/
  | popc (w : RForm)
  /-- MIN (R191): Signed minimum. -/
  | min (w : RForm)
  /-- MAX (R191): Signed maximum. -/
  | max (w : RForm)
  /-- MINN (R191): Unsigned minimum. -/
  | minn (w : RForm)
  /-- MAXN (R191): Unsigned maximum. -/
  | maxn (w : RForm)
  /-- SEXT (R191): Sign-extends the low w bits of S[a]. -/
  | sext (w : RForm)
  /-- ZEXT (R191): Zero-extends the low w bits of S[a]. -/
  | zext (w : RForm)
  /-- BFX (R191): Extracts a bit field of S[a]. -/
  | bfx (w : RForm)
  /-- BFI (R191): Inserts a field of S[a] into S[d]. -/
  | bfi (w : RForm)
  /-- MOV (R191): Copies S[a] into S[d]. -/
  | mov (w : RForm)
  /-- SEL (R191): Selects S[a] if the old S[d] is non-zero, and B otherwise. -/
  | sel (w : RForm)
  /-- LI (R192): Loads a sign-extended immediate into S[d]. -/
  | li (w : LForm)
  /-- LIH (R192): Loads an immediate into the high 32 bits of S[d]. -/
  | lih (w : LForm)
  /-- LIT (R37): Supplies 21 high-order immediate bits to the s0 instruction of the same bundle. -/
  | lit (w : TForm)
  /-- CMPEQ (R193): Sets P[d] to S[a] = B. -/
  | cmpeq (w : RForm)
  /-- CMPNE (R193): Sets P[d] to S[a] ≠ B. -/
  | cmpne (w : RForm)
  /-- CMPLT (R193): Signed less-than compare into P[d]. -/
  | cmplt (w : RForm)
  /-- CMPLE (R193): Signed less-or-equal compare into P[d]. -/
  | cmple (w : RForm)
  /-- CMPLTN (R193): Unsigned less-than compare into P[d]. -/
  | cmpltn (w : RForm)
  /-- CMPLEN (R193): Unsigned less-or-equal compare into P[d]. -/
  | cmplen (w : RForm)
  /-- PAND (R193): Predicate and. -/
  | pand (w : RForm)
  /-- POR (R193): Predicate or. -/
  | por (w : RForm)
  /-- PXOR (R193): Predicate xor. -/
  | pxor (w : RForm)
  /-- PNOT (R193): Predicate not. -/
  | pnot (w : RForm)
  /-- FADD (R194): FP32 add, rounded RNE. -/
  | fadd (w : RForm)
  /-- FSUB (R194): FP32 subtract. -/
  | fsub (w : RForm)
  /-- FMUL (R194): FP32 multiply. -/
  | fmul (w : RForm)
  /-- FMA (R194): FP32 fused multiply-add, with the old S[d] as the addend. -/
  | fma (w : RForm)
  /-- FMIN (R194): FP32 minimum under R111. -/
  | fmin (w : RForm)
  /-- FMAX (R194): FP32 maximum under R111. -/
  | fmax (w : RForm)
  /-- FCMPLT (R194): FP32 less-than compare into P[d]. -/
  | fcmplt (w : RForm)
  /-- FCMPEQ (R194): FP32 equality compare into P[d]. -/
  | fcmpeq (w : RForm)
  /-- FCVTI (R194): Converts FP32 to S64 or N64 in the given mode. -/
  | fcvti (w : RForm)
  /-- ICVTF (R194): Converts S64 or N64 to FP32 in the given mode. -/
  | icvtf (w : RForm)
  /-- FABS (R194): Clears the FP32 sign bit. -/
  | fabs (w : RForm)
  /-- FNEG (R194): Inverts the FP32 sign bit. -/
  | fneg (w : RForm)
  /-- BR (R195): Unconditional transfer to a segment displacement and bundle index. -/
  | br (w : BForm)
  /-- BRP (R195): Transfer if P[n] is true. -/
  | brp (w : BPForm)
  /-- BRNP (R195): Transfer if P[n] is false. -/
  | brnp (w : BPForm)
  /-- CALL (R195): Writes the return address to S31 and transfers. -/
  | call (w : BForm)
  /-- RET (R195): Transfers to the code address in S[a], S31 by default. -/
  | ret (w : RForm)
  /-- JMPS (R195): Transfers to the code address in S[a]. -/
  | jmps (w : RForm)
  /-- LOOP (R199): Pushes a hardware loop of S[c] iterations. -/
  | loop (w : JForm)
  /-- LOOPI (R199): Pushes a hardware loop with an immediate count. -/
  | loopi (w : JForm)
  /-- LOOPX (R199): Pushes a loop with start, bound and step from S[c] to S[c+2]. -/
  | loopx (w : JForm)
  /-- MLOOP (R199): Pushes a modulo-scheduled loop with s stages. -/
  | mloop (w : JForm)
  /-- LBRK (R201): Ends the innermost hardware loop. -/
  | lbrk (w : RForm)
  /-- GETX (R202): Copies loop index X[n] into S[d]. -/
  | getx (w : RForm)
  /-- CHKSIG (R217): Compares the commit signature with S[a], and raises SIG on a mismatch. -/
  | chksig (w : RForm)
  /-- PHASE (R219): Commits the ending phase and snapshots the context into the unused frame. -/
  | phase (w : RForm)
  /-- QWAIT (R97): Waits until slot k of Qn is present. -/
  | qwait (w : RForm)
  /-- QFREE (R97): Waits until a splice-out queue offers n free slots. -/
  | qfree (w : RForm)
  /-- WAITC (R204): Waits until a completion object reaches B. -/
  | waitc (w : RForm)
  /-- BARA (R313): Releases, then arrives at a barrier slot. -/
  | bara (w : RForm)
  /-- BARW (R314): Waits until a barrier slot reaches phase B. -/
  | barw (w : RForm)
  /-- BAR (R315): Arrives at a barrier and freezes until the phase of that arrival completes. -/
  | bar (w : RForm)
  /-- GJOIN (R318): Writes the member number; a follower then parks. -/
  | gjoin (w : RForm)
  /-- GISS (R319): The leader holds until every follower has parked, then starts a broadcast. -/
  | giss (w : RForm)
  /-- GEND (R322): Ends the broadcast, and every member resumes detached 3 cycles later. -/
  | gend (w : RForm)
  /-- LNCH (R341): Submits a launch record to a launch queue from device code. -/
  | lnch (w : RForm)
  /-- DONE (R344): Ends the task: drains, unsplices, returns tokens and frees the contexts. -/
  | done (w : RForm)
  /-- YIELD (R345): Gives the issue width to the next READY context. -/
  | yield (w : RForm)
  /-- TRAP (R211): Raises CAUSE 31 with a code, from an immediate or from S[b]. -/
  | trap (w : RForm)
  /-- ERET_RESUME (R212): The service context resumes the held context and reissues its replay buffer. -/
  | eretResume (w : RForm)
  /-- ERET_SKIP (R212): Marks the held bundle performed, zero-fills its unperformed appends and resumes after it. -/
  | eretSkip (w : RForm)
  /-- ERET_ESC (R212): Escalates the held context. -/
  | eretEsc (w : RForm)
  /-- SYSRD (R205): Reads a system register. -/
  | sysrd (w : RForm)
  /-- SYSWR (R205): Writes a system register. -/
  | syswr (w : RForm)
  /-- QCFG (R97): Configures or disables a queue. -/
  | qcfg (w : RForm)
  /-- QPOP (R97): Pops n slots at the head of Qn. -/
  | qpop (w : RForm)
  /-- QSPLC (R84): Splices a local queue's tail into a remote queue. -/
  | qsplc (w : RForm)
  /-- QUNSP (R88): Ends a splice from the producer's side. -/
  | qunsp (w : RForm)
  /-- QSYNC (R97): Requests the receiver's head to restore the free-slot mirror. -/
  | qsync (w : RForm)
  /-- QSTAT (R97): Reads the queue status word. -/
  | qstat (w : RForm)
  /-- QCLR (R97): Consumes every allocated slot of a queue. -/
  | qclr (w : RForm)
  /-- DSET (R97): Writes a stream register from S[a] to S[a+3]. -/
  | dset (w : RForm)
  /-- DGET (R97): Reads a stream register into S[d] to S[d+3]. -/
  | dget (w : RForm)
  /-- QZAP (R97): Appends a zero slot tagged format 15. -/
  | qzap (w : RForm)
  /-- VADD (R247): Lane add. -/
  | vadd (w : VForm)
  /-- VSUB (R247): Lane subtract. -/
  | vsub (w : VForm)
  /-- VMUL (R247): Lane multiply. -/
  | vmul (w : VForm)
  /-- VFMA (R247): Lane fused multiply-add. -/
  | vfma (w : VForm)
  /-- VFMS (R247): Lane fused multiply-subtract. -/
  | vfms (w : VForm)
  /-- VFNMA (R247): Lane c − a × b, rounded once. -/
  | vfnma (w : VForm)
  /-- VMIN (R247): Lane minimum. -/
  | vmin (w : VForm)
  /-- VMAX (R247): Lane maximum. -/
  | vmax (w : VForm)
  /-- VABS (R247): Lane absolute value. -/
  | vabs (w : VForm)
  /-- VNEG (R247): Lane negation. -/
  | vneg (w : VForm)
  /-- VABD (R247): Lane absolute difference. -/
  | vabd (w : VForm)
  /-- VADDS (R247): Lane saturating add. -/
  | vadds (w : VForm)
  /-- VSUBS (R247): Lane saturating subtract. -/
  | vsubs (w : VForm)
  /-- VMULH (R247): Lane multiply high. -/
  | vmulh (w : VForm)
  /-- VAND (R248): Lane bitwise and. -/
  | vand (w : VForm)
  /-- VOR (R248): Lane bitwise or. -/
  | vor (w : VForm)
  /-- VXOR (R248): Lane bitwise xor. -/
  | vxor (w : VForm)
  /-- VNOT (R248): Lane bitwise not. -/
  | vnot (w : VForm)
  /-- VSHL (R248): Lane shift left. -/
  | vshl (w : VForm)
  /-- VSHRA (R248): Lane arithmetic shift right. -/
  | vshra (w : VForm)
  /-- VSHRL (R248): Lane logical shift right. -/
  | vshrl (w : VForm)
  /-- VCLZ (R248): Lane count of leading zeros. -/
  | vclz (w : VForm)
  /-- VPOPC (R248): Lane population count. -/
  | vpopc (w : VForm)
  /-- VMOV (R249): Lane move. -/
  | vmov (w : VForm)
  /-- VSEL (R249): Lane select by a lane predicate. -/
  | vsel (w : VForm)
  /-- VIDX (R249): Lane number plus A. -/
  | vidx (w : VForm)
  /-- VCMPEQ (R250): Lane equality compare into a lane predicate. -/
  | vcmpeq (w : VForm)
  /-- VCMPNE (R250): Lane inequality compare. -/
  | vcmpne (w : VForm)
  /-- VCMPLT (R250): Lane less-than compare. -/
  | vcmplt (w : VForm)
  /-- VCMPLE (R250): Lane less-or-equal compare. -/
  | vcmple (w : VForm)
  /-- VPAND (R251): Lane-predicate and. -/
  | vpand (w : VForm)
  /-- VPOR (R251): Lane-predicate or. -/
  | vpor (w : VForm)
  /-- VPNOT (R251): Lane-predicate not. -/
  | vpnot (w : VForm)
  /-- VRADD (R252): Group tree sum. -/
  | vradd (w : VForm)
  /-- VRMAX (R252): Group tree maximum. -/
  | vrmax (w : VForm)
  /-- VRMIN (R252): Group tree minimum. -/
  | vrmin (w : VForm)
  /-- XCP (R253): Copies lanes from group g xor k. -/
  | xcp (w : VForm)
  /-- XBC (R253): Broadcasts group k to every group. -/
  | xbc (w : VForm)
  /-- VDOT2 (R254): Two-element dot product with accumulate. -/
  | vdot2 (w : VForm)
  /-- VDOT4 (R254): Four-element dot product with accumulate. -/
  | vdot4 (w : VForm)
  /-- SFEXP2 (R224): Special function 2^x. -/
  | sfexp2 (w : SForm)
  /-- SFLOG2 (R224): Special function log2 x. -/
  | sflog2 (w : SForm)
  /-- SFRCP (R224): Special function reciprocal. -/
  | sfrcp (w : SForm)
  /-- SFRSQ (R224): Special function reciprocal square root. -/
  | sfrsq (w : SForm)
  /-- SFSQRT (R224): Special function square root. -/
  | sfsqrt (w : SForm)
  /-- SFSIN (R224): Special function sine. -/
  | sfsin (w : SForm)
  /-- SFCOS (R224): Special function cosine. -/
  | sfcos (w : SForm)
  /-- SFTANH (R224): Special function tanh. -/
  | sftanh (w : SForm)
  /-- SFSIGM (R224): Special function sigmoid. -/
  | sfsigm (w : SForm)
  /-- SFERF (R224): Special function erf. -/
  | sferf (w : SForm)
  /-- PPACK (R233): Narrows two slots into one. -/
  | ppack (w : PForm)
  /-- PUNPK (R233): Widens one half of a slot. -/
  | punpk (w : PForm)
  /-- PCVT (R232): Converts the elements of a slot between formats. -/
  | pcvt (w : PForm)
  /-- PSCL (R234): Quantises with E8M0 block scales. -/
  | pscl (w : PForm)
  /-- PDSCL (R234): Removes E8M0 block scales. -/
  | pdscl (w : PForm)
  /-- PRES (R232): Converts integers to residue triples. -/
  | pres (w : PForm)
  /-- PCRT (R232): Converts residue triples out by CRT. -/
  | pcrt (w : PForm)
  /-- PSHUF (R235): Shuffles elements by a pattern. -/
  | pshuf (w : PForm)
  /-- PTRN (R236): Transposes a block. -/
  | ptrn (w : PForm)
  /-- PSWZ (R237): Reswizzles a slot between swizzle identifiers. -/
  | pswz (w : PForm)
  /-- PLUT (R238): Table lookup. -/
  | plut (w : PForm)
  /-- LD (R135): Loads into a register under timed landing, or into a queue or stream slot. -/
  | ld (w : MForm)
  /-- ST (R136): Stores a register, a queue slot or a stream slot. -/
  | st (w : MForm)
  /-- LDL (R137): Lane-private load. -/
  | ldl (w : MForm)
  /-- STL (R137): Lane-private store. -/
  | stl (w : MForm)
  /-- LDV (R138): 512-byte vector load into a lane register. -/
  | ldv (w : MForm)
  /-- STV (R138): 512-byte vector store. -/
  | stv (w : MForm)
  /-- LDG (R139): Gathers rows into a queue slot or a gather latch. -/
  | ldg (w : MForm)
  /-- STS (R140): Scatters the rows of a slot. -/
  | sts (w : MForm)
  /-- PREF (R141): Prefetches lines into L2 and L1. -/
  | pref (w : MForm)
  /-- FLUSH (R142): Writes back the dirty L1 bytes of a range. -/
  | flush (w : MForm)
  /-- FLUSH_INV (R142): Writes back and invalidates the L1 lines of a range. -/
  | flushInv (w : MForm)
  /-- FLUSH_ALL (R142): Writes back and invalidates every L1 line of the address space. -/
  | flushAll (w : MForm)
  /-- FENCE (R144): Orders predecessor classes before successor classes within a scope. -/
  | fence (w : MForm)
  /-- LOCK (R143): Pins an L2 line and lands a status. -/
  | lock (w : MForm)
  /-- UNLOCK (R143): Releases an L2 pin and lands a status. -/
  | unlock (w : MForm)
  /-- AADD (R183): Atomic add at the home. -/
  | aadd (w : MForm)
  /-- AMIN (R183): Atomic minimum. -/
  | amin (w : MForm)
  /-- AMAX (R183): Atomic maximum. -/
  | amax (w : MForm)
  /-- AAND (R183): Atomic and. -/
  | aand (w : MForm)
  /-- AOR (R183): Atomic or. -/
  | aor (w : MForm)
  /-- AXOR (R183): Atomic xor. -/
  | axor (w : MForm)
  /-- ASWP (R183): Atomic swap. -/
  | aswp (w : MForm)
  /-- ACAS (R183): Atomic compare and swap. -/
  | acas (w : MForm)
  /-- AFADD (R183): Atomic floating add. -/
  | afadd (w : MForm)
  /-- REDADD (R184): Reduction add at the home, returning nothing. -/
  | redadd (w : MForm)
  /-- REDMIN (R184): Reduction minimum. -/
  | redmin (w : MForm)
  /-- REDMAX (R184): Reduction maximum. -/
  | redmax (w : MForm)
  /-- REDFADD (R184): Reduction floating add. -/
  | redfadd (w : MForm)
  /-- LEND (R170): Lends a region's token, pushing the issuer onto the chain. -/
  | lend (w : MForm)
  /-- LEND_PASS (R170): Lends a token without pushing the issuer onto the chain. -/
  | lendPass (w : MForm)
  /-- RETN (R171): Returns a token to the first live lender. -/
  | retn (w : MForm)
  /-- SPLIT (R172): Halves a region into two token entries. -/
  | split (w : MForm)
  /-- JOIN (R172): Merges two halves into one token entry. -/
  | join (w : MForm)
  /-- SHARE (R173): Grants a read share. -/
  | share (w : MForm)
  /-- UNSHR (R173): Returns a read share. -/
  | unshr (w : MForm)
  /-- TKMODE_PLAIN (R174): Sets a region to PLAIN after invalidating its atomic users. -/
  | tkmodePlain (w : MForm)
  /-- TKMODE_ATOMIC (R174): Sets a region to ATOMIC. -/
  | tkmodeAtomic (w : MForm)
  /-- TKQRY (R175): Lands a token's state word and owner. -/
  | tkqry (w : MForm)
  /-- TKQRY_CHAIN (R175): Lands one lender-chain entry. -/
  | tkqryChain (w : MForm)
  /-- TKQRY_SELF (R175): Lands the issuer's own party word. -/
  | tkqrySelf (w : MForm)
  /-- RECLAIM_CLEAN (R176): Gives an orphaned token to a party. -/
  | reclaimClean (w : MForm)
  /-- RECLAIM_REINIT (R176): Zeroes an orphaned or poisoned region and rehomes its token. -/
  | reclaimReinit (w : MForm)
  /-- RECLAIM_CREATE (R176): Creates a token over a region that has no entry. -/
  | reclaimCreate (w : MForm)
  /-- RECLAIM_DESTROY (R176): Removes a token entry and its share records. -/
  | reclaimDestroy (w : MForm)
  /-- RECLAIM_SEIZE (R176): Seizes a held token for a new owner. -/
  | reclaimSeize (w : MForm)
  /-- CPY (R263): Issues a copy operation to an address or a local queue slot. -/
  | cpy (w : MForm)
  /-- CPYM (R264): Issues a multicast copy to cores of the quad. -/
  | cpym (w : MForm)
  /-- CPYN (R265): Issues a copy that then notifies a dormant context. -/
  | cpyn (w : MForm)
  /-- CPYQ (R267): Issues a copy into a splice-out queue slot. -/
  | cpyq (w : MForm)
  /-- CPYF (R268): Issues a copy and registers it as an input of the next phase. -/
  | cpyf (w : MForm)
  /-- SXBM (R277): Issues a bitmap sparse-index operation. -/
  | sxbm (w : MForm)
  /-- SXRL (R277): Issues a run-list sparse-index operation. -/
  | sxrl (w : MForm)
  /-- SXSTOP (R280): Stops one sparse-index operation by its entry index. -/
  | sxstop (w : MForm)
  /-- SXSTOP_ALL (R280): Stops every unjoined sparse-index operation of the context. -/
  | sxstopAll (w : MForm)
  /-- MNOP (R66): Matrix beat that does nothing. -/
  | mnop (w : XForm)
  /-- MPA (R293): Pushes stream slices to staging and accumulates them into a bank. -/
  | mpa (w : XForm)
  /-- MPSH (R293): Pushes stream slices to staging only. -/
  | mpsh (w : XForm)
  /-- MACC (R293): Accumulates the current staging into a bank. -/
  | macc (w : XForm)
  /-- MSHF (R296): Shifts a bank four rows toward the drain edge. -/
  | mshf (w : XForm)
  /-- MDRN (R297): Drains four rows into the bank's open drain slot. -/
  | mdrn (w : XForm)
  /-- MCLR (R295): Clears a bank to +0. -/
  | mclr (w : XForm)
  /-- MLDA (R299): Loads four rows from the bank's open load slot. -/
  | mlda (w : XForm)
  /-- INTERLOCK_HOLD (R49): A bundle waiting on its own pipeline's absent slot holds, and issues when the slot is present. -/
  | interlockHold (c : Nat)
  /-- FREEZE_THAW (R20): The frozen issue domain thaws once every freeze cause has cleared. -/
  | freezeThaw (c : Nat)
  /-- SEGMENT_EXPANSION (R29): The prefetch engine fetches, expands and checks a segment into a loop-buffer half. -/
  | segmentExpansion (c : Nat) (k : Nat) (seg : Nat)
  /-- EXPOSED_WRITE_LANDING (R55): An exposed pipeline result lands at its issue-domain offset. -/
  | exposedWriteLanding (c : Nat)
  /-- LOAD_DATA_ARRIVAL (R129): Load data reaches the landing buffer, where it waits or is written at once if late. -/
  | loadDataArrival (n : Nat)
  /-- REGISTER_LANDING (R129): A landing-buffer entry is written at its stated arrival cycle. -/
  | registerLanding (c : Nat) (k : Nat)
  /-- SLOT_LANDING (R78): The last byte of a queue slot lands and its presence bit is set. -/
  | slotLanding (n : Nat)
  /-- WAIT_CONDITION_MET (R15): A WAITING context's condition is met and it becomes READY. -/
  | waitConditionMet (c : Nat) (k : Nat)
  /-- STARVATION_GUARD (R16): The running count reaches 65,536 and the context is switched out at its next stop point. -/
  | starvationGuard (c : Nat) (k : Nat)
  /-- PREEMPTION_REQUEST (R22): A pre-emption request arrives; it is taken at the next stop point, or the context is saved at once if not running. -/
  | preemptionRequest (c : Nat) (k : Nat)
  /-- PREEMPTION_LIMIT_EXPIRY (R22): PLIMIT expires without a stop point and the context escalates. -/
  | preemptionLimitExpiry (c : Nat) (k : Nat)
  /-- SERVICE_ENTRY (R209): The service context begins issuing at the firmware entry 4 cycles after the cause. -/
  | serviceEntry (c : Nat)
  /-- ESCALATION_DRAIN_COMPLETE (R213): Awaited landing data has arrived and the escalated context is ready to be saved. -/
  | escalationDrainComplete (c : Nat) (k : Nat)
  /-- PHASE_SNAPSHOT (R219): After the context's accesses have drained, PHASE writes its 37-cycle snapshot and makes the frame current. -/
  | phaseSnapshot (c : Nat) (k : Nat)
  /-- PHASE_ROLLBACK (R221): An ECC_UE or SIG within a phase restores the snapshot, refetches the CPYF inputs and resumes. -/
  | phaseRollback (c : Nat) (k : Nat)
  /-- SPLICE_REQUEST (R84): A splice request reaches the receiver, which accepts or refuses it. -/
  | spliceRequest (n : Nat)
  /-- SPLICE_ANSWER (R84): The splice answer reaches the producer and sets TAIL, MIRROR and capacity, or REFUSED. -/
  | spliceAnswer (n : Nat)
  /-- REMOTE_APPEND (R85): Appended data reaches the receiver's slot; it is dropped if the slot is already present. -/
  | remoteAppend (n : Nat)
  /-- HEAD_MESSAGE_SEND (R86): A splice-in queue sends its head on a change, at most once per 8 cycles, and every 1,024 cycles otherwise. -/
  | headMessageSend (c : Nat) (k : Nat) (q : Nat)
  /-- HEAD_MESSAGE (R86): A head message reaches the producer and updates MIRROR, unless its link check fails. -/
  | headMessage (n : Nat) (ok : Bool)
  /-- UNSPLICE_MARKER (R88): The unsplice marker arrives and the receiver's queue becomes local. -/
  | unspliceMarker (n : Nat)
  /-- HEAD_REQUEST (R97): A QSYNC head request reaches the receiver and its head returns. -/
  | headRequest (n : Nat)
  /-- HEAD_REQUEST_ANSWER (R97): The QSYNC answer restores MIRROR and clears PEND. -/
  | headRequestAnswer (n : Nat)
  /-- COPY_START (R256): A free engine takes the oldest operation of the highest priority and starts it 8 cycles later. -/
  | copyStart (die : Nat)
  /-- COPY_PIECE (R270): A piece read returns to the engine and its write is sent toward the home. -/
  | copyPiece (n : Nat) (j : Nat)
  /-- CPYM_DELIVERY (R264): Multicast data reaches a target core, allocating a slot or waiting for one. -/
  | cpymDelivery (n : Nat) (k : Nat)
  /-- NOTIFY (R265): After the payload lands, the engine starts a dormant notify context or queues the notify. -/
  | notify (n : Nat)
  /-- COPY_COMPLETION (R269): After all writes have performed, the engine adds INC to the completion object. -/
  | copyCompletion (n : Nat)
  /-- SPARSE_START (R273): A sparse-index operation at the head of the start list starts 4 cycles later. -/
  | sparseStart (c : Nat)
  /-- METADATA_ARRIVAL (R279): A metadata word arrives and is decoded. -/
  | metadataArrival (c : Nat)
  /-- SPARSE_EMIT (R278): The engine emits up to RATE offsets in a cycle into the index queues. -/
  | sparseEmit (c : Nat)
  /-- SPARSE_FINISH (R278): The engine pads and closes its open slots, writes the count and adds INC. -/
  | sparseFinish (c : Nat)
  /-- LATCH_READY (R139): The last gathered row lands and the latch's ready bit is set. -/
  | latchReady (n : Nat)
  /-- MATRIX_ACCUMULATION_LANDING (R286): A pending accumulation lands in its bank six beats after issue. -/
  | matrixAccumulationLanding (c : Nat)
  /-- DRAIN_SLOT_PRESENT (R297): A closed drain slot becomes present four beats after its MDRN. -/
  | drainSlotPresent (c : Nat)
  /-- BARRIER_ARRIVAL (R309): An arrival reaches the barrier home, counts, and may complete the phase and send releases. -/
  | barrierArrival (n : Nat)
  /-- BARRIER_RELEASE (R315): A release reaches a waiting core and satisfies its wait. -/
  | barrierRelease (n : Nat)
  /-- GANG_START (R317): Thyme binds a gang, lends the receive and granted regions, and releases the start barrier. -/
  | gangStart (n : Nat)
  /-- GISS_HOLD_END (R319): The last follower parks and every member enters BROADCAST. -/
  | gissHoldEnd (n : Nat)
  /-- GANG_COMPLETION (R323): After all broadcast work has performed, the gang arrives at its completion barrier. -/
  | gangCompletion (n : Nat)
  /-- HOME_ACCESS (R145): A load or store performs at its home or in L1. -/
  | homeAccess (n : Nat)
  /-- HOME_ATOMIC (R183): An atomic or reduction piece reads and writes at the home slice. -/
  | homeAtomic (n : Nat)
  /-- TABLE_WALK_READ (R126): A page-table entry read returns and the walk descends, fills the entry or faults. -/
  | tableWalkRead (c : Nat) (j : Nat)
  /-- DIRTY_REPORT (R163): A first-write report reaches the token slice, which sets DIRTY and acknowledges. -/
  | dirtyReport (n : Nat)
  /-- TOKEN_SLICE_REQUEST (R166): A token request takes its turn at the token slice and the entry changes or a status lands. -/
  | tokenSliceRequest (n : Nat)
  /-- OWNERSHIP_INVALIDATION (R164): A Basil invalidation reaches a core, which acknowledges after its old-rights accesses have performed. -/
  | ownershipInvalidation (n : Nat)
  /-- PARTY_DEATH (R187): Thyme clears a dead party and broadcasts its death to the token slices. -/
  | partyDeath (p : Word)
  /-- ORPHAN_SCAN (R187): A token slice scans one entry per cycle, orphaning, rehoming or poisoning it. -/
  | orphanScan (die : Nat) (p : Word)
  /-- COMPLETION_REREAD (R204): The core rereads a WAITC object on an engine add, or every 256 cycles. -/
  | completionReread (c : Nat) (k : Nat)
  /-- L1_EVICTION (R127): An L1 eviction writes back the dirty bytes. -/
  | l1Eviction (c : Nat) (line : Nat)
  /-- FLUSH_MARKER (R390): A flush marker reaches a destination and is gathered. -/
  | flushMarker (n : Nat)
  /-- FLUSH_ACKNOWLEDGEMENT (R390): A destination's acknowledgement returns to the sender. -/
  | flushAcknowledgement (n : Nat)
  /-- LQ_PUSH (R329): A write to LQPUSH with bits [5:0] zero copies and enqueues a launch record, or sets OVF. -/
  | lqPush (h : Nat) (die : Nat) (q : Nat) (addr : Nat)
  /-- LQ_CONTROL_WRITE (R329): A control write to LQPUSH clears OVF when bit 7 is set. -/
  | lqControlWrite (h : Nat) (die : Nat) (q : Nat) (v : Word)
  /-- LAUNCH_ACCEPTANCE (R336): Thyme checks the record at a queue head and reserves its occupancy, refuses it, or makes it wait. -/
  | launchAcceptance (die : Nat) (q : Nat)
  /-- PACKAGE_TICK (R338): A package tick advances every frame counter that is not held. -/
  | packageTick
  /-- DISPATCH (R11): Thyme starts a released entry on its reserved core. -/
  | dispatch (l : Nat) (e : Nat)
  /-- DONE_FINISH (R344): DONE's waits complete and the task's locks, tokens and contexts are released. -/
  | doneFinish (c : Nat) (k : Nat)
  /-- LAUNCH_END (R342): Thyme returns tokens, releases the reservation, writes the status and adds to COMP. -/
  | launchEnd (l : Nat)
  /-- COAL_WINDOW_EXPIRY (R343): The coalescing window expires and one interrupt carries the count of ends. -/
  | coalWindowExpiry (t : Nat)
  /-- CONTEXT_SAVE (R346): Thyme saves a stopped context's image and state to its pool or to the reserve. -/
  | contextSave (c : Nat) (k : Nat)
  /-- CONTEXT_RESTORE (R346): Thyme restores a context on an eligible core, rebinding its tokens and splices. -/
  | contextRestore (n : Nat) (c : Nat) (k : Nat)
  /-- SAMPLE_INTERVAL (R348): Sage reads the sensors, charges wear and evaluates the core's state. -/
  | sampleInterval (c : Nat) (r : Sample)
  /-- CLOCK_SWITCH (R358): A derated core takes its clock switch at a stop point and holds for 240 cycles. -/
  | clockSwitch (c : Nat)
  /-- CLOCK_SWITCH_END (R358): The 240-cycle hold ends and the issue domain runs at 1.0 GHz. -/
  | clockSwitchEnd (c : Nat)
  /-- SCRATCHPAD_SWEEP (R358): The sweeper re-encodes a scratchpad word to DEC-TED. -/
  | scratchpadSweep (c : Nat)
  /-- SAGE_COMMIT (R355): Sage commits the lifetime records to non-volatile store every 2^30 ticks. -/
  | sageCommit
  /-- BANK_ACCESS (R368): A bank serves a queued request, activating the row if needed. -/
  | bankAccess (n : Nat)
  /-- ALERT_BLOCK_END (R372): The 420-cycle block ends after the refresh-management refreshes, and the bank serves again. -/
  | alertBlockEnd (n : Nat)
  /-- REFRESH (R370): A due per-bank refresh issues when no request is queued. -/
  | refresh (n : Nat)
  /-- PATROL_SCRUB (R376): The patrol reads and corrects one stack row every 1,048,576 cycles. -/
  | patrolScrub (stack : Nat)
  /-- L2_SWEEP (R377): A slice sweeper corrects and re-encodes one L2 or chip-scratchpad word. -/
  | l2Sweep (die : Nat) (slice : Nat)
  /-- CHANNEL_CLR (R374): Writing CLR clears a stack's ALERTS, VICT, CE and UE. -/
  | channelClr (h : Nat) (stack : Nat)
  /-- FORCE (R378): Writing FORCE moves every slice of a die to DEC-TED. -/
  | force (h : Nat) (die : Nat)
  /-- FLIT_ARRIVAL (R381): A flit arrives on a Phogil lane and is accepted, or a replay is requested. -/
  | flitArrival (link : Nat) (lane : Nat) (outw : Bool) (ok : Bool)
  /-- LINK_FAILURE (R392): A Phogil link goes down, losing flits, rerouting traffic and failing fixed paths. -/
  | linkFailure (link : Nat)
  /-- TRANSPORT_TIMEOUT (R393): No acknowledgement for 1 ms tears down the transport context. -/
  | transportTimeout (n : Nat)
  /-- PACKET_RECEIVE (R388): A transport packet arrives at a scale-out port and is delivered or acknowledged. -/
  | packetReceive (port : Nat) (p : Packet)
  /-- REQUEST_ADMISSION (R396): The port admits a waiting request of a class against its bucket. -/
  | requestAdmission (n : Nat)
  /-- SHARE_REFILL (R397): Every 1,024 cycles the port refills each class's bucket and redistributes spare tokens. -/
  | shareRefill (c : Nat)
  /-- HOST_ACCESS (R401): A host core access is checked at the hub link as a bypassing access of its HSEL party. -/
  | hostAccess (h : Nat) (a : Nat) (d : List Byte) (wr : Bool)
  /-- HOST_LEND (R402): Host command port LEND. -/
  | hostLend (h : Nat)
  /-- HOST_LEND_PASS (R402): Host command port LEND.PASS. -/
  | hostLendPass (h : Nat)
  /-- HOST_RETN (R402): Host command port RETN. -/
  | hostRetn (h : Nat)
  /-- HOST_SPLIT (R402): Host command port SPLIT. -/
  | hostSplit (h : Nat)
  /-- HOST_JOIN (R402): Host command port JOIN. -/
  | hostJoin (h : Nat)
  /-- HOST_SHARE (R402): Host command port SHARE. -/
  | hostShare (h : Nat)
  /-- HOST_UNSHR (R402): Host command port UNSHR. -/
  | hostUnshr (h : Nat)
  /-- HOST_TKMODE_PLAIN (R402): Host command port TKMODE.PLAIN. -/
  | hostTkmodePlain (h : Nat)
  /-- HOST_TKMODE_ATOMIC (R402): Host command port TKMODE.ATOMIC. -/
  | hostTkmodeAtomic (h : Nat)
  /-- HOST_TKQRY (R402): Host command port TKQRY, writing RESULT and RESULT2. -/
  | hostTkqry (h : Nat)
  /-- HOST_RECLAIM_CLEAN (R402): Host command port RECLAIM.CLEAN. -/
  | hostReclaimClean (h : Nat)
  /-- HOST_REINIT (R402): Host command port REINIT. -/
  | hostReinit (h : Nat)
  /-- HOST_CREATE (R402): Host command port CREATE. -/
  | hostCreate (h : Nat)
  /-- HOST_DESTROY (R402): Host command port DESTROY. -/
  | hostDestroy (h : Nat)
  /-- HOST_SEIZE (R402): Host command port SEIZE. -/
  | hostSeize (h : Nat)
  /-- XINV_ASN (R403): Drops every translation entry and L1 line of an address space. -/
  | xinvAsn (h : Nat)
  /-- XINV_RANGE (R403): Drops the translation entries and L1 lines of a range. -/
  | xinvRange (h : Nat)
  /-- HOST_BAD_COMMAND (R402): An unassigned OP, or a command under a non-HOST HSEL, ends with STATUS 0xC0. -/
  | hostBadCommand (h : Nat) (op : Nat)
  /-- AGO (R414): Writing AGO requests a signed attestation report into the buffer at AREQ. -/
  | ago (h : Nat)
  /-- REGISTER_WRITE (R399): A write to a hub-space register that has no behaviour of its own. -/
  | registerWrite (h : Nat) (a : Nat) (v : Word)
  /-- JOURNAL_WRITE (R408): Miovilo writes a journal entry, sets its SEQ last and mirrors it to the controller. -/
  | journalWrite
  /-- THROTTLE_STEP (R414): Every 1 ms the controller raises or lowers THR from power and temperature. -/
  | throttleStep (pnow : Nat) (tj : Nat)
  /-- OVERTEMPERATURE (R414): A junction at 115 °C removes power from the package at once. -/
  | overtemperature
  /-- PACKAGE_RESET (R405): Package reset runs secure boot, training and the Sage restore. -/
  | packageReset (ims : List Image)
  /-- LIVE_UPDATE (R410): A signed image replaces Thyme, Sage or the core service routine while the package runs. -/
  | liveUpdate (im : Image)
  /-- MGMT_POWER (R412): Management port powers the package on or off. -/
  | mgmtPower (on : Bool)
  /-- MGMT_RESET (R412): Management port resets the package. -/
  | mgmtReset
  /-- MGMT_FIRMWARE_UPDATE (R412): Management port updates or rolls forward firmware. -/
  | mgmtFirmwareUpdate (im : Image)
  /-- MGMT_READ (R412): Management port reads the event log, journal mirror, Sage records or sensors. -/
  | mgmtRead (n : Nat)
  /-- MGMT_ATTESTATION (R406): Management port requests a signed attestation report. -/
  | mgmtAttestation (nonce : Nat)
  /-- MGMT_FORCE_DEC_TED (R412): Management port forces DEC-TED on a die. -/
  | mgmtForceDecTed (die : Nat)
  /-- MGMT_RETIRE_CORE (R356): Management port retires a core by ADMIN. -/
  | mgmtRetireCore (c : Nat)
  /-- MGMT_RAISE_MIN_SVN (R405): A signed management command raises the fused minimum security version. -/
  | mgmtRaiseMinSvn (svn : Nat) (signed : Bool)
  /-- MGMT_CLEAR_CORE (R13): Firmware returns a core to placement after a service-routine fault. -/
  | mgmtClearCore (c : Nat)
  /-- POD_REMOVE (R411): The management controller removes a package from the pod, ending its token ties. -/
  | podRemove (n : Nat)
  /-- POD_ADMIT (R411): A package is admitted to the pod after its attestation has been checked. -/
  | podAdmit (n : Nat) (ok : Bool)
  /-- EMPTY_BUNDLE (R33): A bundle whose slots are all idle issues, and may be a stop point or a loop-end bundle. -/
  | emptyBundle
  /-- UNASSIGNED_OPCODE (R67): A slot word with an unassigned opcode traps ILLEGAL at issue and performs nothing. -/
  | unassignedOpcode
  /-- TASK_KILL (R187): A privileged party kills a task, its party dies and its launch ends KILLED. -/
  | taskKill (c : Nat) (k : Nat)
  /-- CORE_UNRESPONSIVE (R356): The management controller finds a core unresponsive; the core fails and goes to RETIRING with CAUSE FAILED. -/
  | coreUnresponsive (c : Nat)
  /-- POWER_LOSS (R355): The package loses its supply without an orderly power-down, losing uncommitted wear. -/
  | powerLoss
  /-- PORT_LINK_DOWN (R389): An Ethernet port loses its link, UP drops to 0 and the transport stops using it. -/
  | portLinkDown (n : Nat)
  /-- PORT_LINK_UP (R389): An Ethernet port gains its link at 1.6 Tb/s and UP becomes 1. -/
  | portLinkUp (n : Nat)
  /-- SOFT_ERROR (R375): A soft error flips bits in a stored word of a scratchpad, register, accumulator, mirror, L2 or HBM. -/
  | softError (e : SoftError)
  /-- WRITE_ACKNOWLEDGEMENT (R416): The control message acknowledging a performed store or write returns to the issuing core, completing the outstanding request. -/
  | writeAcknowledgement (n : Nat)
  /-- HSEL_WRITE (R401): Hypervisor mode writes a host core's HSEL, changing the HOST party it acts as and its privilege. -/
  | hselWrite (h : Nat) (v : Word)
  deriving DecidableEq, Repr

end Sys2Proof
end

