-- ==== Sys2Proof/WellFormed.lean ====
section
/-!
DEFINITION. Well-formed instructions: the rules that R35 judges on the bits of a word alone (R36 to R46, and the rules that the
entries of the instructions place on their fields), and the slots that an instruction may stand in (R61).
-/
namespace Sys2Proof

/-- B is a register with [9:5] zero, or an immediate (R36). -/
def regImm (w : RForm) : Bool := w.i == 1 || decide (w.b.toNat < 32)
/-- B is a register with [9:5] zero (R194). -/
def regB (w : RForm) : Bool := w.i == 0 && decide (w.b.toNat < 32)
/-- Bits [10:0] are zero. -/
def noB (w : RForm) : Bool := w.i == 0 && w.b == 0
def noD (w : RForm) : Bool := w.d == 0
def noA (w : RForm) : Bool := w.a == 0
/-- Predicate fields (R193). -/
def predDst (w : RForm) : Bool := decide (w.d.toNat < 8)
def predA (w : RForm) : Bool := decide (w.a.toNat < 8)
def predB (w : RForm) : Bool := w.i == 0 && decide (w.b.toNat < 8)
/-- FCVTI and ICVTF (R194). -/
def fcvtOk (w : RForm) : Bool := w.i == 1 && decide (w.b.toNat < 16) && decide (w.b.toNat % 8 ≤ 4)
/-- A queue or stream number in the destination or source field (R97). -/
def queueD (w : RForm) : Bool := decide (w.d.toNat < 16)
def queueA (w : RForm) : Bool := decide (w.a.toNat < 16)
/-- An immediate in a range (R97, R212). -/
def immIn (w : RForm) (lo hi : Nat) : Bool := w.i == 1 && decide (lo ≤ w.b.toNat) && decide (w.b.toNat ≤ hi)
/-- The loop index of form J (R36). -/
def loopX (w : JForm) : Bool := decide (w.x.toNat ≤ 5)

/-- The numbers of the system registers (R205). -/
def sysNumbers : List Nat :=
  [0, 1, 2, 3, 4, 5, 8, 9, 0x10, 0x18, 0x19, 0x1A, 0x20, 0x21, 0x22, 0x23] ++ (List.range 36).map (fun i => 0x40 + i)
/-- The system registers that SYSWR may name: those not RO everywhere (R205). -/
def sysWritable : List Nat := [0x18, 0x19, 0x20] ++ (List.range 33).map (fun i => 0x40 + i)
def sysNo (w : RForm) : Bool := sysNumbers.contains w.b.toNat
def sysRw (w : RForm) : Bool := sysWritable.contains w.b.toNat

/-- The type groups of R244. -/
def tFp : List Nat := [0, 1, 2]
def tInt : List Nat := [5, 6, 7, 8, 9, 10]
def tRes : List Nat := [11]
def tB32 : List Nat := [12]
def tE8 : List Nat := [3, 4]
def tAny : List Nat := [0, 1, 2, 3, 4, 5, 6, 7, 8, 9, 10, 11, 12]
/-- The types of VIDX, VDOT2 and VDOT4 (R249, R254). -/
def tIdx : List Nat := [0, 5, 6]
def tDot2 : List Nat := [1, 2, 7, 8]
def tDot4 : List Nat := [3, 4, 9, 10]

/-- A source specifier (R39). -/
def vSpec (s : BitVec 10) : Bool :=
  match s.toNat / 256 with
  | 0 => s.toNat % 256 / 64 == 0
  | 2 => s.toNat % 256 / 32 == 0
  | _ => true
/-- A lane-predicate source (R39). -/
def lpSpec (s : BitVec 10) : Bool := decide (s.toNat < 8)
/-- A destination byte: a lane register or an append (R39). -/
def dstOk (d : BitVec 8) : Bool := if d.toNat < 128 then decide (d.toNat < 32) else decide (d.toNat % 128 < 16)
def vDst (w : VForm) : Bool := dstOk w.dst
/-- A lane-predicate destination (R39). -/
def lpDst (w : VForm) : Bool := decide (w.dst.toNat < 8)
def vTy (ts : List Nat) (w : VForm) : Bool := ts.contains w.ty.toNat
/-- The first `n` sources are specifiers and the others zero (R39). -/
def vSrc (n : Nat) (w : VForm) : Bool :=
  vSpec w.a && (if 1 < n then vSpec w.b else w.b == 0) && (if 2 < n then vSpec w.c else w.c == 0)

/-- A special-function word (R40, R222). -/
def sfOk (w : SForm) : Bool := tFp.contains w.ty.toNat && dstOk w.dst && vSpec w.src && w.z == 0

/-- A permute destination and source (R41). -/
def pDst (w : PForm) : Bool := decide (128 ≤ w.dst.toNat) && decide (w.dst.toNat < 144)
def pSrc (s : BitVec 10) : Bool := s.toNat / 256 == 1
/-- The rounding mode alone in imm10 (R230). -/
def rmOk (w : PForm) : Bool := decide (w.imm.toNat ≤ 4)
/-- PSCL's imm10 (R230). -/
def sclOk (w : PForm) : Bool := decide (w.imm.toNat < 16) && decide (w.imm.toNat % 8 ≤ 4)
/-- Equal types and a full group mask (R229, R235 to R237). -/
def pSame (w : PForm) : Bool := w.tf == w.tt && decide (w.tt.toNat ≤ 12) && w.gm == 255
/-- The pairs of PPACK as (wide, narrow) (R233). -/
def packPair (a b : Nat) : Bool :=
  [(0, 1), (0, 2), (5, 7), (6, 8), (1, 3), (1, 4), (2, 3), (2, 4), (7, 9), (8, 10)].contains (a, b)
/-- PSHUF's pattern, parameter and source B (R235). -/
def shufOk (w : PForm) : Bool :=
  match w.imm.toNat / 128 with
  | 0 => w.b == 0
  | 1 => w.b == 0
  | 6 => w.b == 0
  | _ => pSrc w.b && w.imm.toNat % 128 == 0

/-- A scope CORE to POD (R132). -/
def scOk (w : MForm) : Bool := decide (1 ≤ w.sc.toNat) && decide (w.sc.toNat ≤ 5)
/-- Data of kind 00, 01 and 11 (R42). -/
def regData (w : MForm) : Bool := decide (w.data.toNat < 32)
def laneData (w : MForm) : Bool := w.data.toNat / 32 == 2
def streamData (w : MForm) : Bool := w.data.toNat / 16 == 12
def evenData (w : MForm) : Bool := w.data.toNat % 2 == 0
/-- LD (R132, R133). -/
def ldOk (w : MForm) : Bool :=
  (regData w && (w.sz != 7 || evenData w)) || (w.data.toNat / 16 == 8 && w.at16 == 0) ||
    (streamData w && w.sz == 0 && w.at16 == 0)
/-- ST (R132, R133). -/
def stOk (w : MForm) : Bool :=
  w.at16 == 0 && ((regData w && (decide (w.sz.toNat ≤ 3) || (w.sz == 7 && evenData w))) ||
    (w.data.toNat / 32 == 4 && w.sz == 0) || (streamData w && w.sz == 0))
/-- An atomic with one of the classes (R181, R182). -/
def atomicOk (cs : List Nat) (w : MForm) : Bool :=
  regData w && cs.contains w.sz.toNat && (w.sz != 7 || (evenData w && w.idx.toNat % 2 == 0))
/-- The classes of four bytes (R182). -/
def fourBytes (w : MForm) : Bool := [0, 1, 4, 5, 6].contains w.sz.toNat
/-- A reduction with one of the classes (R181, R182). -/
def reduceOk (cs : List Nat) (w : MForm) : Bool :=
  w.idx == 0 && cs.contains w.sz.toNat &&
    ((regData w && w.at16 == 0) || (laneData w && fourBytes w && decide (w.at16.toNat < 4)) ||
     (w.data.toNat / 32 == 4 && fourBytes w && w.at16 == 0))
/-- A copy or sparse-index instruction (R260, R276). -/
def engineOk (w : MForm) : Bool := w.sz == 0 && w.data == 0 && w.at16 == 0

/-- Fields of the matrix word that a beat does not use (R287). -/
def xNoCell (w : XForm) : Bool := w.cell == 0
def xNoAB (w : XForm) : Bool := w.a == 0 && w.b == 0
def xNoQ (w : XForm) : Bool := w.q == 0 && w.fmt == 0


/-- The rules on a word's own bits, one arm for each instruction (R35 to R46 and the entries). Events carry no word. -/
def Instr.wf (i : Instr) : Bool :=
  match i with
  | .add w | .sub w | .mul w | .mulh w | .mulhn w | .div w | .divn w | .mod w | .modn w | .and w | .or w | .xor w
  | .andn w | .orn w | .shl w | .shra w | .shrl w | .rotl w | .min w | .max w | .minn w | .maxn w | .sext w | .zext w
  | .bfx w | .bfi w | .sel w => 
      regImm w
  | .clz w | .ctz w | .popc w | .mov w | .fabs w | .fneg w | .bar w | .lnch w => 
      noB w
  | .li _ | .lih _ | .br _ | .brp _ | .brnp _ | .call _ => true
  | .lit w => 
      w.g == 0
  | .cmpeq w | .cmpne w | .cmplt w | .cmple w | .cmpltn w | .cmplen w => 
      predDst w && regImm w
  | .pand w | .por w | .pxor w => 
      predDst w && predA w && predB w
  | .pnot w => 
      predDst w && predA w && noB w
  | .fadd w | .fsub w | .fmul w | .fma w | .fmin w | .fmax w => 
      regB w
  | .fcmplt w | .fcmpeq w => 
      predDst w && regB w
  | .fcvti w | .icvtf w => 
      fcvtOk w
  | .ret w | .jmps w | .chksig w | .bara w | .giss w => 
      noD w && noB w
  | .loop w => 
      loopX w && decide (w.c.toNat < 32)
  | .loopi w => 
      loopX w
  | .loopx w => 
      loopX w && decide (w.c.toNat ≤ 29)
  | .mloop w => 
      loopX w && decide (1 ≤ w.c.toNat / 32) && decide (w.c.toNat / 32 ≤ 8)
  | .lbrk w | .gend w | .done w | .yield w => 
      noD w && noA w && noB w
  | .getx w => 
      noB w && decide (w.a.toNat ≤ 5)
  | .phase w | .waitc w | .barw w => 
      noD w && regImm w
  | .qwait w => 
      queueD w && noA w && immIn w 0 255
  | .qfree w => 
      queueD w && noA w && immIn w 1 256
  | .gjoin w => 
      noA w && noB w
  | .trap w => 
      noD w && noA w && regImm w
  | .eretResume w => 
      noD w && noA w && immIn w 0 0
  | .eretSkip w => 
      noD w && noA w && immIn w 1 1
  | .eretEsc w => 
      noD w && noA w && immIn w 2 2
  | .sysrd w => 
      noA w && sysNo w && w.i == 1
  | .syswr w => 
      noD w && sysRw w && w.i == 1
  | .qcfg w | .qsplc w => 
      queueD w && noB w
  | .qpop w => 
      queueD w && noA w && (if w.i = 1 then decide (w.b.toNat ≤ 256) else decide (w.b.toNat < 32))
  | .qunsp w | .qsync w | .qclr w | .qzap w => 
      queueD w && noA w && noB w
  | .qstat w => 
      queueA w && noB w
  | .dset w => 
      queueD w && noB w && decide (w.a.toNat ≤ 28)
  | .dget w => 
      queueA w && noB w && decide (w.d.toNat ≤ 28)
  | .vadd w | .vsub w | .vmul w => 
      vDst w && vTy (tFp ++ tInt ++ tRes) w && vSrc 2 w
  | .vfma w | .vfms w | .vfnma w => 
      vDst w && vTy tFp w && vSrc 3 w
  | .vmin w | .vmax w => 
      vDst w && vTy (tFp ++ tInt ++ tB32) w && vSrc 2 w
  | .vabs w | .vneg w | .vradd w => 
      vDst w && vTy (tFp ++ tInt) w && vSrc 1 w
  | .vabd w => 
      vDst w && vTy (tFp ++ tInt) w && vSrc 2 w
  | .vadds w | .vsubs w | .vmulh w => 
      vDst w && vTy tInt w && vSrc 2 w
  | .vand w | .vor w | .vxor w => 
      vDst w && vTy tAny w && vSrc 2 w
  | .vnot w | .vmov w => 
      vDst w && vTy tAny w && vSrc 1 w
  | .vshl w | .vshra w | .vshrl w => 
      vDst w && vTy (tInt ++ tB32) w && vSrc 2 w
  | .vclz w | .vpopc w => 
      vDst w && vTy (tInt ++ tB32) w && vSrc 1 w
  | .vsel w => 
      vDst w && vTy tAny w && vSpec w.a && vSpec w.b && lpSpec w.c
  | .vidx w => 
      vDst w && vTy tIdx w && vSrc 1 w
  | .vcmpeq w | .vcmpne w => 
      lpDst w && vTy (tFp ++ tInt ++ tB32 ++ tRes) w && vSrc 2 w
  | .vcmplt w | .vcmple w => 
      lpDst w && vTy (tFp ++ tInt ++ tB32) w && vSrc 2 w
  | .vpand w | .vpor w => 
      lpDst w && vTy tB32 w && lpSpec w.a && lpSpec w.b && w.c == 0
  | .vpnot w => 
      lpDst w && vTy tB32 w && lpSpec w.a && w.b == 0 && w.c == 0
  | .vrmax w | .vrmin w => 
      vDst w && vTy (tFp ++ tInt ++ tB32) w && vSrc 1 w
  | .xcp w | .xbc w => 
      vDst w && vTy tAny w && vSpec w.a && w.b.toNat / 8 == 96 && w.c == 0
  | .vdot2 w => 
      vDst w && vTy tDot2 w && vSrc 3 w
  | .vdot4 w => 
      vDst w && vTy tDot4 w && vSrc 3 w
  | .sfexp2 w | .sflog2 w | .sfrcp w | .sfrsq w | .sfsqrt w | .sfsin w | .sfcos w | .sftanh w | .sfsigm w | .sferf w => 
      sfOk w
  | .ppack w => 
      pDst w && pSrc w.a && pSrc w.b && packPair w.tf.toNat w.tt.toNat && rmOk w
  | .punpk w => 
      pDst w && pSrc w.a && w.b == 0 && packPair w.tt.toNat w.tf.toNat && decide (w.imm.toNat < 2)
  | .pcvt w => 
      pDst w && pSrc w.a && w.b == 0 && decide (w.tf.toNat ≤ 10) && decide (w.tt.toNat ≤ 10) && rmOk w
  | .pscl w => 
      pDst w && pSrc w.a && tFp.contains w.tf.toNat && tE8.contains w.tt.toNat && (if w.imm.getLsbD 3 then w.b == 0 else pSrc w.b) && sclOk w
  | .pdscl w => 
      pDst w && pSrc w.a && pSrc w.b && (tE8 ++ [1, 2]).contains w.tf.toNat && tFp.contains w.tt.toNat && rmOk w
  | .pres w => 
      pDst w && pSrc w.a && w.b == 0 && tInt.contains w.tf.toNat && w.tt == 11 && w.imm == 0
  | .pcrt w => 
      pDst w && pSrc w.a && w.b == 0 && w.tf == 11 && (if w.tt = 5 then w.imm == 0 else tFp.contains w.tt.toNat) && rmOk w
  | .pshuf w => 
      pDst w && pSrc w.a && pSame w && shufOk w
  | .ptrn w | .pswz w => 
      pDst w && pSrc w.a && pSame w && w.b == 0 && w.imm == 0
  | .plut w => 
      pDst w && pSrc w.a && pSrc w.b && w.gm == 255 && (w.tf == 10 || w.tf == 8) && decide (w.tt.toNat ≤ 12) && w.tt != 11
  | .ld w => 
      scOk w && ldOk w
  | .st w => 
      scOk w && stOk w
  | .ldl w | .stl w => 
      w.sc == 0 && laneData w && w.at16 == 0
  | .ldv w => 
      scOk w && laneData w && decide (w.sz.toNat < 4)
  | .stv w => 
      scOk w && laneData w && decide (w.sz.toNat < 4) && w.at16 == 0
  | .ldg w => 
      scOk w && streamData w && decide (w.sz.toNat % 4 ≤ 2) && w.at16 == 0
  | .sts w => 
      scOk w && streamData w && decide (w.sz.toNat < 4) && w.at16 == 0
  | .pref w => 
      w.sc == 1 && w.data == 0 && w.at16 == 0
  | .flush w => 
      w.sc == 1 && w.sz == 0 && regData w && w.at16 == 0
  | .flushInv w => 
      w.sc == 1 && w.sz == 1 && regData w && w.at16 == 0
  | .flushAll w => 
      w.sc == 1 && w.sz == 2 && w.data == 0 && w.base == 0 && w.idx == 0 && w.disp == 0 && w.at16 == 0
  | .fence w => 
      scOk w && w.sz == 0 && w.base.toNat % 8 == 0 && w.idx == 0 && w.at16 == 0 && w.disp == 0
  | .lock w | .unlock w => 
      w.sc == 1 && w.sz == 0 && regData w
  | .aadd w | .aand w | .aor w | .axor w => 
      scOk w && atomicOk [0, 1, 2, 3] w
  | .amin w | .amax w => 
      scOk w && atomicOk [0, 1, 2, 3, 4] w
  | .aswp w | .acas w => 
      scOk w && atomicOk [0, 1, 2, 3, 7] w
  | .afadd w => 
      scOk w && atomicOk [4, 5, 6] w
  | .redadd w => 
      scOk w && reduceOk [0, 1, 2, 3] w
  | .redmin w | .redmax w => 
      scOk w && reduceOk [0, 1, 2, 3, 4] w
  | .redfadd w => 
      scOk w && reduceOk [4, 5, 6] w
  | .lend w | .share w | .reclaimClean w => 
      scOk w && regData w && w.sz == 0
  | .lendPass w | .tkqryChain w | .reclaimReinit w => 
      scOk w && regData w && w.sz == 1
  | .retn w | .split w | .join w | .unshr w | .tkmodePlain w => 
      scOk w && regData w && w.sz == 0 && w.idx == 0
  | .tkmodeAtomic w => 
      scOk w && regData w && w.sz == 1 && w.idx == 0
  | .tkqry w => 
      scOk w && regData w && w.sz == 0 && w.idx == 0 && decide (w.data.toNat ≤ 30)
  | .tkqrySelf w => 
      scOk w && regData w && w.sz == 2 && w.idx == 0 && w.base == 0 && w.disp == 0
  | .reclaimCreate w => 
      scOk w && regData w && w.sz == 2
  | .reclaimDestroy w => 
      scOk w && regData w && w.sz == 3 && w.idx == 0
  | .reclaimSeize w => 
      scOk w && regData w && w.sz == 4
  | .cpy w | .cpym w | .cpyn w | .cpyq w | .cpyf w | .sxbm w | .sxrl w => 
      scOk w && engineOk w
  | .sxstop w => 
      scOk w && regData w && w.sz == 0 && w.idx == 0 && w.disp == 0
  | .sxstopAll w => 
      scOk w && regData w && w.sz == 1 && w.idx == 0 && w.disp == 0 && w.base == 0
  | .mnop w => 
      xNoCell w && w.bank == 0 && xNoAB w && xNoQ w && w.flags == 0 && w.slice == 0
  | .mpa w => 
      xNoQ w && w.flags.getLsbD 2 == false
  | .mpsh w => 
      xNoCell w && w.bank == 0 && xNoQ w && w.flags.getLsbD 2 == false
  | .macc w => 
      xNoAB w && xNoQ w && w.flags == 0 && w.slice == 0
  | .mshf w | .mclr w => 
      xNoCell w && xNoAB w && xNoQ w && w.flags == 0 && w.slice == 0
  | .mdrn w => 
      xNoCell w && xNoAB w && decide (w.fmt.toNat ≤ 4) && decide (w.flags.toNat < 2) && w.slice == 0
  | .mlda w => 
      xNoCell w && xNoAB w && (w.fmt == 0 || w.fmt == 4) && decide (w.flags.toNat < 2) && w.slice == 0
  | .interlockHold _ | .freezeThaw _ | .segmentExpansion _ _ _ | .exposedWriteLanding _ | .loadDataArrival _
  | .registerLanding _ _ | .slotLanding _ | .waitConditionMet _ _ | .starvationGuard _ _ | .preemptionRequest _ _
  | .preemptionLimitExpiry _ _ | .serviceEntry _ | .escalationDrainComplete _ _ | .phaseSnapshot _ _
  | .phaseRollback _ _ | .spliceRequest _ | .spliceAnswer _ | .remoteAppend _ | .headMessageSend _ _ _
  | .headMessage _ _ | .unspliceMarker _ | .headRequest _ | .headRequestAnswer _ | .copyStart _ | .copyPiece _ _
  | .cpymDelivery _ _ | .notify _ | .copyCompletion _ | .sparseStart _ | .metadataArrival _ | .sparseEmit _
  | .sparseFinish _ | .latchReady _ | .matrixAccumulationLanding _ | .drainSlotPresent _ | .barrierArrival _
  | .barrierRelease _ | .gangStart _ | .gissHoldEnd _ | .gangCompletion _ | .homeAccess _ | .homeAtomic _
  | .tableWalkRead _ _ | .dirtyReport _ | .tokenSliceRequest _ | .ownershipInvalidation _ | .partyDeath _
  | .orphanScan _ _ | .completionReread _ _ | .l1Eviction _ _ | .flushMarker _ | .flushAcknowledgement _
  | .lqPush _ _ _ _ | .lqControlWrite _ _ _ _ | .launchAcceptance _ _ | .packageTick | .dispatch _ _ | .doneFinish _ _
  | .launchEnd _ | .coalWindowExpiry _ | .contextSave _ _ | .contextRestore _ _ _ | .sampleInterval _ _
  | .clockSwitch _ | .clockSwitchEnd _ | .scratchpadSweep _ | .sageCommit | .bankAccess _ | .alertBlockEnd _
  | .refresh _ | .patrolScrub _ | .l2Sweep _ _ | .channelClr _ _ | .force _ _ | .flitArrival _ _ _ _ | .linkFailure _
  | .transportTimeout _ | .packetReceive _ _ | .requestAdmission _ | .shareRefill _ | .hostAccess _ _ _ _
  | .hostLend _ | .hostLendPass _ | .hostRetn _ | .hostSplit _ | .hostJoin _ | .hostShare _ | .hostUnshr _
  | .hostTkmodePlain _ | .hostTkmodeAtomic _ | .hostTkqry _ | .hostReclaimClean _ | .hostReinit _ | .hostCreate _
  | .hostDestroy _ | .hostSeize _ | .xinvAsn _ | .xinvRange _ | .hostBadCommand _ _ | .ago _ | .registerWrite _ _ _
  | .journalWrite | .throttleStep _ _ | .overtemperature | .packageReset _ | .liveUpdate _ | .mgmtPower _ | .mgmtReset
  | .mgmtFirmwareUpdate _ | .mgmtRead _ | .mgmtAttestation _ | .mgmtForceDecTed _ | .mgmtRetireCore _
  | .mgmtRaiseMinSvn _ _ | .mgmtClearCore _ | .podRemove _ | .podAdmit _ _ | .emptyBundle | .unassignedOpcode
  | .taskKill _ _ | .coreUnresponsive _ | .powerLoss | .portLinkDown _ | .portLinkUp _ | .softError _
  | .writeAcknowledgement _ | .hselWrite _ _ => true

/-- The slots that an instruction may stand in, numbered in canonical order (R32, R61). -/
def Instr.slots (i : Instr) : List Nat :=
  match i with
  | .add _ | .sub _ | .mul _ | .mulh _ | .mulhn _ | .div _ | .divn _ | .mod _ | .modn _ | .and _ | .or _ | .xor _
  | .andn _ | .orn _ | .shl _ | .shra _ | .shrl _ | .rotl _ | .clz _ | .ctz _ | .popc _ | .min _ | .max _ | .minn _
  | .maxn _ | .sext _ | .zext _ | .bfx _ | .bfi _ | .mov _ | .sel _ | .li _ | .lih _ | .cmpeq _ | .cmpne _ | .cmplt _
  | .cmple _ | .cmpltn _ | .cmplen _ | .pand _ | .por _ | .pxor _ | .pnot _ | .fadd _ | .fsub _ | .fmul _ | .fma _
  | .fmin _ | .fmax _ | .fcmplt _ | .fcmpeq _ | .fcvti _ | .icvtf _ | .fabs _ | .fneg _ => [0, 1]
  | .lit _ | .qcfg _ | .qpop _ | .qsplc _ | .qunsp _ | .qsync _ | .qstat _ | .qclr _ | .dset _ | .dget _ | .qzap _ => [1]
  | .br _ | .brp _ | .brnp _ | .call _ | .ret _ | .jmps _ | .loop _ | .loopi _ | .loopx _ | .mloop _ | .lbrk _
  | .getx _ | .chksig _ | .phase _ | .qwait _ | .qfree _ | .waitc _ | .bara _ | .barw _ | .bar _ | .gjoin _ | .giss _
  | .gend _ | .lnch _ | .done _ | .yield _ | .trap _ | .eretResume _ | .eretSkip _ | .eretEsc _ | .sysrd _ | .syswr _ => [0]
  | .vadd _ | .vsub _ | .vmul _ | .vfma _ | .vfms _ | .vfnma _ | .vmin _ | .vmax _ | .vabs _ | .vneg _ | .vabd _
  | .vadds _ | .vsubs _ | .vmulh _ | .vand _ | .vor _ | .vxor _ | .vnot _ | .vshl _ | .vshra _ | .vshrl _ | .vclz _
  | .vpopc _ | .vmov _ | .vsel _ | .vidx _ | .vcmpeq _ | .vcmpne _ | .vcmplt _ | .vcmple _ | .vpand _ | .vpor _
  | .vpnot _ | .vradd _ | .vrmax _ | .vrmin _ | .xcp _ | .xbc _ | .vdot2 _ | .vdot4 _ => [2, 3, 4]
  | .sfexp2 _ | .sflog2 _ | .sfrcp _ | .sfrsq _ | .sfsqrt _ | .sfsin _ | .sfcos _ | .sftanh _ | .sfsigm _ | .sferf _ => [5]
  | .ppack _ | .punpk _ | .pcvt _ | .pscl _ | .pdscl _ | .pres _ | .pcrt _ | .pshuf _ | .ptrn _ | .pswz _ | .plut _ => [6]
  | .ld _ | .st _ | .ldl _ | .stl _ | .ldv _ | .stv _ | .ldg _ | .sts _ | .pref _ | .flush _ | .flushInv _
  | .flushAll _ | .fence _ | .lock _ | .unlock _ | .aadd _ | .amin _ | .amax _ | .aand _ | .aor _ | .axor _ | .aswp _
  | .acas _ | .afadd _ | .redadd _ | .redmin _ | .redmax _ | .redfadd _ | .lend _ | .lendPass _ | .retn _ | .split _
  | .join _ | .share _ | .unshr _ | .tkmodePlain _ | .tkmodeAtomic _ | .tkqry _ | .tkqryChain _ | .tkqrySelf _
  | .reclaimClean _ | .reclaimReinit _ | .reclaimCreate _ | .reclaimDestroy _ | .reclaimSeize _ | .cpy _ | .cpym _
  | .cpyn _ | .cpyq _ | .cpyf _ | .sxbm _ | .sxrl _ | .sxstop _ | .sxstopAll _ => [7, 8]
  | .mnop _ | .mpa _ | .mpsh _ | .macc _ | .mshf _ | .mdrn _ | .mclr _ | .mlda _ => [9]
  | .interlockHold _ | .freezeThaw _ | .segmentExpansion _ _ _ | .exposedWriteLanding _ | .loadDataArrival _
  | .registerLanding _ _ | .slotLanding _ | .waitConditionMet _ _ | .starvationGuard _ _ | .preemptionRequest _ _
  | .preemptionLimitExpiry _ _ | .serviceEntry _ | .escalationDrainComplete _ _ | .phaseSnapshot _ _
  | .phaseRollback _ _ | .spliceRequest _ | .spliceAnswer _ | .remoteAppend _ | .headMessageSend _ _ _
  | .headMessage _ _ | .unspliceMarker _ | .headRequest _ | .headRequestAnswer _ | .copyStart _ | .copyPiece _ _
  | .cpymDelivery _ _ | .notify _ | .copyCompletion _ | .sparseStart _ | .metadataArrival _ | .sparseEmit _
  | .sparseFinish _ | .latchReady _ | .matrixAccumulationLanding _ | .drainSlotPresent _ | .barrierArrival _
  | .barrierRelease _ | .gangStart _ | .gissHoldEnd _ | .gangCompletion _ | .homeAccess _ | .homeAtomic _
  | .tableWalkRead _ _ | .dirtyReport _ | .tokenSliceRequest _ | .ownershipInvalidation _ | .partyDeath _
  | .orphanScan _ _ | .completionReread _ _ | .l1Eviction _ _ | .flushMarker _ | .flushAcknowledgement _
  | .lqPush _ _ _ _ | .lqControlWrite _ _ _ _ | .launchAcceptance _ _ | .packageTick | .dispatch _ _ | .doneFinish _ _
  | .launchEnd _ | .coalWindowExpiry _ | .contextSave _ _ | .contextRestore _ _ _ | .sampleInterval _ _
  | .clockSwitch _ | .clockSwitchEnd _ | .scratchpadSweep _ | .sageCommit | .bankAccess _ | .alertBlockEnd _
  | .refresh _ | .patrolScrub _ | .l2Sweep _ _ | .channelClr _ _ | .force _ _ | .flitArrival _ _ _ _ | .linkFailure _
  | .transportTimeout _ | .packetReceive _ _ | .requestAdmission _ | .shareRefill _ | .hostAccess _ _ _ _
  | .hostLend _ | .hostLendPass _ | .hostRetn _ | .hostSplit _ | .hostJoin _ | .hostShare _ | .hostUnshr _
  | .hostTkmodePlain _ | .hostTkmodeAtomic _ | .hostTkqry _ | .hostReclaimClean _ | .hostReinit _ | .hostCreate _
  | .hostDestroy _ | .hostSeize _ | .xinvAsn _ | .xinvRange _ | .hostBadCommand _ _ | .ago _ | .registerWrite _ _ _
  | .journalWrite | .throttleStep _ _ | .overtemperature | .packageReset _ | .liveUpdate _ | .mgmtPower _ | .mgmtReset
  | .mgmtFirmwareUpdate _ | .mgmtRead _ | .mgmtAttestation _ | .mgmtForceDecTed _ | .mgmtRetireCore _
  | .mgmtRaiseMinSvn _ _ | .mgmtClearCore _ | .podRemove _ | .podAdmit _ _ | .emptyBundle | .unassignedOpcode
  | .taskKill _ _ | .coreUnresponsive _ | .powerLoss | .portLinkDown _ | .portLinkUp _ | .softError _
  | .writeAcknowledgement _ | .hselWrite _ _ => []

/-- A word of a slot is well-formed there (R35). -/
def Instr.wfIn (slot : Nat) (i : Instr) : Bool := i.slots.contains slot && i.wf

end Sys2Proof
end

