-- ==== Sys2Proof/Decode.lean ====
section
/-!
DEFINITION. The decoder of slot words (R36 to R46, R61 to R67) and the encoder. A word is a number; a slot's number says which
layout it has (R32, R33).
-/
namespace Sys2Proof

/-- Bits [lo + n - 1 : lo] of a word. -/
def fld (w lo n : Nat) : Nat := w / 2 ^ lo % 2 ^ n

/-- Why a word is refused. -/
inductive DecodeError where
  | unassigned | malformed | noSlot | short
  deriving DecidableEq, Repr

/-- The fields of the scalar forms (R36). -/
def rOf (w : Nat) : RForm :=
  ⟨BitVec.ofNat 4 (fld w 28 4), BitVec.ofNat 5 (fld w 16 5), BitVec.ofNat 5 (fld w 11 5), BitVec.ofNat 1 (fld w 10 1),
   BitVec.ofNat 10 (fld w 0 10)⟩
def lOf (w : Nat) : LForm := ⟨BitVec.ofNat 4 (fld w 28 4), BitVec.ofNat 5 (fld w 16 5), BitVec.ofNat 16 (fld w 0 16)⟩
def tOf (w : Nat) : TForm := ⟨BitVec.ofNat 4 (fld w 28 4), BitVec.ofNat 21 (fld w 0 21)⟩
def bOf (w : Nat) : BForm := ⟨BitVec.ofNat 4 (fld w 28 4), BitVec.ofNat 12 (fld w 9 12), BitVec.ofNat 9 (fld w 0 9)⟩
def bpOf (w : Nat) : BPForm :=
  ⟨BitVec.ofNat 4 (fld w 28 4), BitVec.ofNat 3 (fld w 18 3), BitVec.ofNat 9 (fld w 9 9), BitVec.ofNat 9 (fld w 0 9)⟩
def jOf (w : Nat) : JForm :=
  ⟨BitVec.ofNat 4 (fld w 28 4), BitVec.ofNat 3 (fld w 18 3), BitVec.ofNat 9 (fld w 9 9), BitVec.ofNat 9 (fld w 0 9)⟩
/-- The fields of a vector word (R38). -/
def vOf (w : Nat) : VForm :=
  ⟨BitVec.ofNat 4 (fld w 60 4), BitVec.ofNat 4 (fld w 48 4), BitVec.ofNat 8 (fld w 40 8), BitVec.ofNat 8 (fld w 32 8),
   BitVec.ofNat 10 (fld w 22 10), BitVec.ofNat 10 (fld w 12 10), BitVec.ofNat 10 (fld w 2 10), BitVec.ofNat 2 (fld w 0 2)⟩
/-- The fields of a special-function word (R40). -/
def sOf (w : Nat) : SForm :=
  ⟨BitVec.ofNat 4 (fld w 60 4), BitVec.ofNat 4 (fld w 50 4), BitVec.ofNat 8 (fld w 42 8), BitVec.ofNat 8 (fld w 34 8),
   BitVec.ofNat 10 (fld w 24 10), BitVec.ofNat 2 (fld w 22 2), BitVec.ofNat 22 (fld w 0 22)⟩
/-- The fields of a permute word (R41). -/
def pOf (w : Nat) : PForm :=
  ⟨BitVec.ofNat 4 (fld w 60 4), BitVec.ofNat 4 (fld w 50 4), BitVec.ofNat 4 (fld w 46 4), BitVec.ofNat 8 (fld w 38 8),
   BitVec.ofNat 8 (fld w 30 8), BitVec.ofNat 10 (fld w 20 10), BitVec.ofNat 10 (fld w 10 10), BitVec.ofNat 10 (fld w 0 10)⟩
/-- The fields of a memory word (R42). -/
def mOf (w : Nat) : MForm :=
  ⟨BitVec.ofNat 4 (fld w 60 4), BitVec.ofNat 3 (fld w 50 3), BitVec.ofNat 3 (fld w 47 3), BitVec.ofNat 8 (fld w 39 8),
   BitVec.ofNat 5 (fld w 34 5), BitVec.ofNat 5 (fld w 29 5), BitVec.ofNat 5 (fld w 24 5), BitVec.ofNat 24 (fld w 0 24)⟩
/-- The fields of a matrix word (R43). -/
def xOf (w : Nat) : XForm :=
  ⟨BitVec.ofNat 4 (fld w 28 4), BitVec.ofNat 2 (fld w 23 2), BitVec.ofNat 1 (fld w 22 1), BitVec.ofNat 4 (fld w 18 4),
   BitVec.ofNat 4 (fld w 14 4), BitVec.ofNat 4 (fld w 10 4), BitVec.ofNat 3 (fld w 7 3), BitVec.ofNat 3 (fld w 4 3),
   BitVec.ofNat 4 (fld w 0 4)⟩


/-- The scalar opcodes (R61). -/
def scalarOf (op w : Nat) : Option Instr :=
  match op with
  | 1 => some (.add (rOf w))
  | 2 => some (.sub (rOf w))
  | 3 => some (.mul (rOf w))
  | 4 => some (.mulh (rOf w))
  | 5 => some (.mulhn (rOf w))
  | 6 => some (.div (rOf w))
  | 7 => some (.divn (rOf w))
  | 8 => some (.mod (rOf w))
  | 9 => some (.modn (rOf w))
  | 16 => some (.and (rOf w))
  | 17 => some (.or (rOf w))
  | 18 => some (.xor (rOf w))
  | 19 => some (.andn (rOf w))
  | 20 => some (.orn (rOf w))
  | 21 => some (.shl (rOf w))
  | 22 => some (.shra (rOf w))
  | 23 => some (.shrl (rOf w))
  | 24 => some (.rotl (rOf w))
  | 25 => some (.clz (rOf w))
  | 26 => some (.ctz (rOf w))
  | 27 => some (.popc (rOf w))
  | 32 => some (.min (rOf w))
  | 33 => some (.max (rOf w))
  | 34 => some (.minn (rOf w))
  | 35 => some (.maxn (rOf w))
  | 36 => some (.sext (rOf w))
  | 37 => some (.zext (rOf w))
  | 38 => some (.bfx (rOf w))
  | 39 => some (.bfi (rOf w))
  | 40 => some (.mov (rOf w))
  | 41 => some (.sel (rOf w))
  | 42 => some (.li (lOf w))
  | 43 => some (.lih (lOf w))
  | 44 => some (.lit (tOf w))
  | 48 => some (.cmpeq (rOf w))
  | 49 => some (.cmpne (rOf w))
  | 50 => some (.cmplt (rOf w))
  | 51 => some (.cmple (rOf w))
  | 52 => some (.cmpltn (rOf w))
  | 53 => some (.cmplen (rOf w))
  | 54 => some (.pand (rOf w))
  | 55 => some (.por (rOf w))
  | 56 => some (.pxor (rOf w))
  | 57 => some (.pnot (rOf w))
  | 64 => some (.fadd (rOf w))
  | 65 => some (.fsub (rOf w))
  | 66 => some (.fmul (rOf w))
  | 67 => some (.fma (rOf w))
  | 68 => some (.fmin (rOf w))
  | 69 => some (.fmax (rOf w))
  | 70 => some (.fcmplt (rOf w))
  | 71 => some (.fcmpeq (rOf w))
  | 72 => some (.fcvti (rOf w))
  | 73 => some (.icvtf (rOf w))
  | 74 => some (.fabs (rOf w))
  | 75 => some (.fneg (rOf w))
  | 80 => some (.br (bOf w))
  | 81 => some (.brp (bpOf w))
  | 82 => some (.brnp (bpOf w))
  | 83 => some (.call (bOf w))
  | 84 => some (.ret (rOf w))
  | 85 => some (.jmps (rOf w))
  | 86 => some (.loop (jOf w))
  | 87 => some (.loopi (jOf w))
  | 88 => some (.loopx (jOf w))
  | 89 => some (.mloop (jOf w))
  | 90 => some (.lbrk (rOf w))
  | 91 => some (.getx (rOf w))
  | 92 => some (.chksig (rOf w))
  | 93 => some (.phase (rOf w))
  | 96 => some (.qwait (rOf w))
  | 97 => some (.qfree (rOf w))
  | 98 => some (.waitc (rOf w))
  | 99 => some (.bara (rOf w))
  | 100 => some (.barw (rOf w))
  | 101 => some (.bar (rOf w))
  | 102 => some (.gjoin (rOf w))
  | 103 => some (.giss (rOf w))
  | 104 => some (.gend (rOf w))
  | 105 => some (.lnch (rOf w))
  | 106 => some (.done (rOf w))
  | 107 => some (.yield (rOf w))
  | 108 => some (.trap (rOf w))
  | 109 =>
    match fld w 0 10 with
    | 0 => some (.eretResume (rOf w))
    | 1 => some (.eretSkip (rOf w))
    | 2 => some (.eretEsc (rOf w))
    | _ => none
  | 110 => some (.sysrd (rOf w))
  | 111 => some (.syswr (rOf w))
  | 112 => some (.qcfg (rOf w))
  | 113 => some (.qpop (rOf w))
  | 114 => some (.qsplc (rOf w))
  | 115 => some (.qunsp (rOf w))
  | 116 => some (.qsync (rOf w))
  | 117 => some (.qstat (rOf w))
  | 118 => some (.qclr (rOf w))
  | 119 => some (.dset (rOf w))
  | 120 => some (.dget (rOf w))
  | 121 => some (.qzap (rOf w))
  | _ => none

/-- The vector opcodes (R62). -/
def vectorOf (op w : Nat) : Option Instr :=
  match op with
  | 1 => some (.vadd (vOf w))
  | 2 => some (.vsub (vOf w))
  | 3 => some (.vmul (vOf w))
  | 4 => some (.vfma (vOf w))
  | 5 => some (.vfms (vOf w))
  | 6 => some (.vfnma (vOf w))
  | 7 => some (.vmin (vOf w))
  | 8 => some (.vmax (vOf w))
  | 9 => some (.vabs (vOf w))
  | 10 => some (.vneg (vOf w))
  | 11 => some (.vabd (vOf w))
  | 12 => some (.vadds (vOf w))
  | 13 => some (.vsubs (vOf w))
  | 14 => some (.vmulh (vOf w))
  | 16 => some (.vand (vOf w))
  | 17 => some (.vor (vOf w))
  | 18 => some (.vxor (vOf w))
  | 19 => some (.vnot (vOf w))
  | 20 => some (.vshl (vOf w))
  | 21 => some (.vshra (vOf w))
  | 22 => some (.vshrl (vOf w))
  | 23 => some (.vclz (vOf w))
  | 24 => some (.vpopc (vOf w))
  | 25 => some (.vmov (vOf w))
  | 26 => some (.vsel (vOf w))
  | 27 => some (.vidx (vOf w))
  | 32 => some (.vcmpeq (vOf w))
  | 33 => some (.vcmpne (vOf w))
  | 34 => some (.vcmplt (vOf w))
  | 35 => some (.vcmple (vOf w))
  | 36 => some (.vpand (vOf w))
  | 37 => some (.vpor (vOf w))
  | 38 => some (.vpnot (vOf w))
  | 48 => some (.vradd (vOf w))
  | 49 => some (.vrmax (vOf w))
  | 50 => some (.vrmin (vOf w))
  | 51 => some (.xcp (vOf w))
  | 52 => some (.xbc (vOf w))
  | 53 => some (.vdot2 (vOf w))
  | 54 => some (.vdot4 (vOf w))
  | _ => none

/-- The special-function opcodes (R63). -/
def specialOf (op w : Nat) : Option Instr :=
  match op with
  | 1 => some (.sfexp2 (sOf w))
  | 2 => some (.sflog2 (sOf w))
  | 3 => some (.sfrcp (sOf w))
  | 4 => some (.sfrsq (sOf w))
  | 5 => some (.sfsqrt (sOf w))
  | 6 => some (.sfsin (sOf w))
  | 7 => some (.sfcos (sOf w))
  | 8 => some (.sftanh (sOf w))
  | 9 => some (.sfsigm (sOf w))
  | 10 => some (.sferf (sOf w))
  | _ => none

/-- The permute opcodes (R64). -/
def permuteOf (op w : Nat) : Option Instr :=
  match op with
  | 1 => some (.ppack (pOf w))
  | 2 => some (.punpk (pOf w))
  | 3 => some (.pcvt (pOf w))
  | 4 => some (.pscl (pOf w))
  | 5 => some (.pdscl (pOf w))
  | 6 => some (.pres (pOf w))
  | 7 => some (.pcrt (pOf w))
  | 8 => some (.pshuf (pOf w))
  | 9 => some (.ptrn (pOf w))
  | 10 => some (.pswz (pOf w))
  | 11 => some (.plut (pOf w))
  | _ => none

/-- The memory opcodes (R65). -/
def memoryOf (op w : Nat) : Option Instr :=
  match op with
  | 1 => some (.ld (mOf w))
  | 2 => some (.st (mOf w))
  | 3 => some (.ldl (mOf w))
  | 4 => some (.stl (mOf w))
  | 5 => some (.ldv (mOf w))
  | 6 => some (.stv (mOf w))
  | 7 => some (.ldg (mOf w))
  | 8 => some (.sts (mOf w))
  | 16 => some (.pref (mOf w))
  | 17 =>
    match fld w 50 3 with
    | 0 => some (.flush (mOf w))
    | 1 => some (.flushInv (mOf w))
    | 2 => some (.flushAll (mOf w))
    | _ => none
  | 18 => some (.fence (mOf w))
  | 19 => some (.lock (mOf w))
  | 20 => some (.unlock (mOf w))
  | 32 => some (.aadd (mOf w))
  | 33 => some (.amin (mOf w))
  | 34 => some (.amax (mOf w))
  | 35 => some (.aand (mOf w))
  | 36 => some (.aor (mOf w))
  | 37 => some (.axor (mOf w))
  | 38 => some (.aswp (mOf w))
  | 39 => some (.acas (mOf w))
  | 40 => some (.afadd (mOf w))
  | 48 => some (.redadd (mOf w))
  | 49 => some (.redmin (mOf w))
  | 50 => some (.redmax (mOf w))
  | 51 => some (.redfadd (mOf w))
  | 64 =>
    match fld w 50 3 with
    | 0 => some (.lend (mOf w))
    | 1 => some (.lendPass (mOf w))
    | _ => none
  | 65 =>
    match fld w 50 3 with
    | 0 => some (.retn (mOf w))
    | _ => none
  | 66 =>
    match fld w 50 3 with
    | 0 => some (.split (mOf w))
    | _ => none
  | 67 =>
    match fld w 50 3 with
    | 0 => some (.join (mOf w))
    | _ => none
  | 68 =>
    match fld w 50 3 with
    | 0 => some (.share (mOf w))
    | _ => none
  | 69 =>
    match fld w 50 3 with
    | 0 => some (.unshr (mOf w))
    | _ => none
  | 70 =>
    match fld w 50 3 with
    | 0 => some (.tkmodePlain (mOf w))
    | 1 => some (.tkmodeAtomic (mOf w))
    | _ => none
  | 71 =>
    match fld w 50 3 with
    | 0 => some (.tkqry (mOf w))
    | 1 => some (.tkqryChain (mOf w))
    | 2 => some (.tkqrySelf (mOf w))
    | _ => none
  | 72 =>
    match fld w 50 3 with
    | 0 => some (.reclaimClean (mOf w))
    | 1 => some (.reclaimReinit (mOf w))
    | 2 => some (.reclaimCreate (mOf w))
    | 3 => some (.reclaimDestroy (mOf w))
    | 4 => some (.reclaimSeize (mOf w))
    | _ => none
  | 80 => some (.cpy (mOf w))
  | 81 => some (.cpym (mOf w))
  | 82 => some (.cpyn (mOf w))
  | 83 => some (.cpyq (mOf w))
  | 84 => some (.cpyf (mOf w))
  | 96 => some (.sxbm (mOf w))
  | 97 => some (.sxrl (mOf w))
  | 98 =>
    match fld w 50 3 with
    | 0 => some (.sxstop (mOf w))
    | 1 => some (.sxstopAll (mOf w))
    | _ => none
  | _ => none

/-- The beat operations (R66). -/
def matrixOf (op w : Nat) : Option Instr :=
  match op with
  | 0 => some (.mnop (xOf w))
  | 1 => some (.mpa (xOf w))
  | 2 => some (.mpsh (xOf w))
  | 3 => some (.macc (xOf w))
  | 4 => some (.mshf (xOf w))
  | 5 => some (.mdrn (xOf w))
  | 6 => some (.mclr (xOf w))
  | 7 => some (.mlda (xOf w))
  | _ => none

/-- What a word stands for before its fields are judged: none for an unassigned opcode (R67). -/
def rawDecode (slot w : Nat) : Option Instr :=
  if slot < 2 then scalarOf (fld w 21 7) w
  else if slot < 5 then vectorOf (fld w 52 8) w
  else if slot = 5 then specialOf (fld w 54 6) w
  else if slot = 6 then permuteOf (fld w 54 6) w
  else if slot < 9 then memoryOf (fld w 53 7) w
  else matrixOf (fld w 25 3) w

/-- The decoder: the instruction that the word of a slot stands for, or why it is refused (R35, R67). -/
def decodeWord (slot w : Nat) : Except DecodeError Instr :=
  if slot < 10 then
    match rawDecode slot w with
    | some i => if i.wfIn slot then .ok i else .error .malformed
    | none => .error .unassigned
  else .error .noSlot

/-- The bytes of a slot's word (R33). -/
def slotBytes (slot : Nat) : Nat := if slot < 2 ∨ slot = 9 then 4 else 8

/-- The value of two-word and one-word slots from bytes: little-endian words, the low word first (R3, R33). -/
def wordOf : List Byte → Nat
  | [] => 0
  | b :: r => b.toNat + 256 * wordOf r

/-- The decoder over bytes: the instruction of a slot and the bytes that follow its word. -/
def decodeBytes (slot : Nat) (bs : List Byte) : Except DecodeError (Instr × List Byte) :=
  if bs.length < slotBytes slot then .error .short
  else match decodeWord slot (wordOf (bs.take (slotBytes slot))) with
    | .ok i => .ok (i, bs.drop (slotBytes slot))
    | .error e => .error e

/-- An instruction's word before packing: its layout, opcode and fields. -/
inductive Layout where
  | r (op : Nat) (w : RForm)
  | l (op : Nat) (w : LForm)
  | t (op : Nat) (w : TForm)
  | b (op : Nat) (w : BForm)
  | bp (op : Nat) (w : BPForm)
  | j (op : Nat) (w : JForm)
  | v (op : Nat) (w : VForm)
  | s (op : Nat) (w : SForm)
  | p (op : Nat) (w : PForm)
  | m (op : Nat) (w : MForm)
  | x (op : Nat) (w : XForm)
  deriving DecidableEq, Repr

/-- A word from its fields, most significant first, each with its width (R36 to R43). -/
def pack : List (Nat × Nat) → Nat → Nat
  | [], acc => acc
  | (v, n) :: r, acc => pack r (acc * 2 ^ n + v)

/-- The word of a layout (R36 to R43). -/
def Layout.word : Layout → Nat
  | .r op w => pack [(w.g.toNat, 4), (op, 7), (w.d.toNat, 5), (w.a.toNat, 5), (w.i.toNat, 1), (w.b.toNat, 10)] 0
  | .l op w => pack [(w.g.toNat, 4), (op, 7), (w.d.toNat, 5), (w.imm.toNat, 16)] 0
  | .t op w => pack [(w.g.toNat, 4), (op, 7), (w.lit.toNat, 21)] 0
  | .b op w => pack [(w.g.toNat, 4), (op, 7), (w.disp.toNat, 12), (w.idx.toNat, 9)] 0
  | .bp op w => pack [(w.g.toNat, 4), (op, 7), (w.p.toNat, 3), (w.disp.toNat, 9), (w.idx.toNat, 9)] 0
  | .j op w => pack [(w.g.toNat, 4), (op, 7), (w.x.toNat, 3), (w.e.toNat, 9), (w.c.toNat, 9)] 0
  | .v op w => pack [(w.g.toNat, 4), (op, 8), (w.ty.toNat, 4), (w.gm.toNat, 8), (w.dst.toNat, 8), (w.a.toNat, 10),
      (w.b.toNat, 10), (w.c.toNat, 10), (w.lm.toNat, 2)] 0
  | .s op w => pack [(w.g.toNat, 4), (op, 6), (w.ty.toNat, 4), (w.gm.toNat, 8), (w.dst.toNat, 8), (w.src.toNat, 10),
      (w.lm.toNat, 2), (w.z.toNat, 22)] 0
  | .p op w => pack [(w.g.toNat, 4), (op, 6), (w.tf.toNat, 4), (w.tt.toNat, 4), (w.gm.toNat, 8), (w.dst.toNat, 8),
      (w.a.toNat, 10), (w.b.toNat, 10), (w.imm.toNat, 10)] 0
  | .m op w => pack [(w.g.toNat, 4), (op, 7), (w.sz.toNat, 3), (w.sc.toNat, 3), (w.data.toNat, 8), (w.base.toNat, 5),
      (w.idx.toNat, 5), (w.at16.toNat, 5), (w.disp.toNat, 24)] 0
  | .x op w => pack [(w.g.toNat, 4), (op, 3), (w.cell.toNat, 2), (w.bank.toNat, 1), (w.a.toNat, 4), (w.b.toNat, 4),
      (w.q.toNat, 4), (w.fmt.toNat, 3), (w.flags.toNat, 3), (w.slice.toNat, 4)] 0


/-- The layout and opcode of an instruction (R61 to R66); none for an event. -/
def Instr.layout (i : Instr) : Option Layout :=
  match i with
  | .add w => some (.r 1 w)
  | .sub w => some (.r 2 w)
  | .mul w => some (.r 3 w)
  | .mulh w => some (.r 4 w)
  | .mulhn w => some (.r 5 w)
  | .div w => some (.r 6 w)
  | .divn w => some (.r 7 w)
  | .mod w => some (.r 8 w)
  | .modn w => some (.r 9 w)
  | .and w => some (.r 16 w)
  | .or w => some (.r 17 w)
  | .xor w => some (.r 18 w)
  | .andn w => some (.r 19 w)
  | .orn w => some (.r 20 w)
  | .shl w => some (.r 21 w)
  | .shra w => some (.r 22 w)
  | .shrl w => some (.r 23 w)
  | .rotl w => some (.r 24 w)
  | .clz w => some (.r 25 w)
  | .ctz w => some (.r 26 w)
  | .popc w => some (.r 27 w)
  | .min w => some (.r 32 w)
  | .max w => some (.r 33 w)
  | .minn w => some (.r 34 w)
  | .maxn w => some (.r 35 w)
  | .sext w => some (.r 36 w)
  | .zext w => some (.r 37 w)
  | .bfx w => some (.r 38 w)
  | .bfi w => some (.r 39 w)
  | .mov w => some (.r 40 w)
  | .sel w => some (.r 41 w)
  | .li w => some (.l 42 w)
  | .lih w => some (.l 43 w)
  | .lit w => some (.t 44 w)
  | .cmpeq w => some (.r 48 w)
  | .cmpne w => some (.r 49 w)
  | .cmplt w => some (.r 50 w)
  | .cmple w => some (.r 51 w)
  | .cmpltn w => some (.r 52 w)
  | .cmplen w => some (.r 53 w)
  | .pand w => some (.r 54 w)
  | .por w => some (.r 55 w)
  | .pxor w => some (.r 56 w)
  | .pnot w => some (.r 57 w)
  | .fadd w => some (.r 64 w)
  | .fsub w => some (.r 65 w)
  | .fmul w => some (.r 66 w)
  | .fma w => some (.r 67 w)
  | .fmin w => some (.r 68 w)
  | .fmax w => some (.r 69 w)
  | .fcmplt w => some (.r 70 w)
  | .fcmpeq w => some (.r 71 w)
  | .fcvti w => some (.r 72 w)
  | .icvtf w => some (.r 73 w)
  | .fabs w => some (.r 74 w)
  | .fneg w => some (.r 75 w)
  | .br w => some (.b 80 w)
  | .brp w => some (.bp 81 w)
  | .brnp w => some (.bp 82 w)
  | .call w => some (.b 83 w)
  | .ret w => some (.r 84 w)
  | .jmps w => some (.r 85 w)
  | .loop w => some (.j 86 w)
  | .loopi w => some (.j 87 w)
  | .loopx w => some (.j 88 w)
  | .mloop w => some (.j 89 w)
  | .lbrk w => some (.r 90 w)
  | .getx w => some (.r 91 w)
  | .chksig w => some (.r 92 w)
  | .phase w => some (.r 93 w)
  | .qwait w => some (.r 96 w)
  | .qfree w => some (.r 97 w)
  | .waitc w => some (.r 98 w)
  | .bara w => some (.r 99 w)
  | .barw w => some (.r 100 w)
  | .bar w => some (.r 101 w)
  | .gjoin w => some (.r 102 w)
  | .giss w => some (.r 103 w)
  | .gend w => some (.r 104 w)
  | .lnch w => some (.r 105 w)
  | .done w => some (.r 106 w)
  | .yield w => some (.r 107 w)
  | .trap w => some (.r 108 w)
  | .eretResume w => some (.r 109 w)
  | .eretSkip w => some (.r 109 w)
  | .eretEsc w => some (.r 109 w)
  | .sysrd w => some (.r 110 w)
  | .syswr w => some (.r 111 w)
  | .qcfg w => some (.r 112 w)
  | .qpop w => some (.r 113 w)
  | .qsplc w => some (.r 114 w)
  | .qunsp w => some (.r 115 w)
  | .qsync w => some (.r 116 w)
  | .qstat w => some (.r 117 w)
  | .qclr w => some (.r 118 w)
  | .dset w => some (.r 119 w)
  | .dget w => some (.r 120 w)
  | .qzap w => some (.r 121 w)
  | .vadd w => some (.v 1 w)
  | .vsub w => some (.v 2 w)
  | .vmul w => some (.v 3 w)
  | .vfma w => some (.v 4 w)
  | .vfms w => some (.v 5 w)
  | .vfnma w => some (.v 6 w)
  | .vmin w => some (.v 7 w)
  | .vmax w => some (.v 8 w)
  | .vabs w => some (.v 9 w)
  | .vneg w => some (.v 10 w)
  | .vabd w => some (.v 11 w)
  | .vadds w => some (.v 12 w)
  | .vsubs w => some (.v 13 w)
  | .vmulh w => some (.v 14 w)
  | .vand w => some (.v 16 w)
  | .vor w => some (.v 17 w)
  | .vxor w => some (.v 18 w)
  | .vnot w => some (.v 19 w)
  | .vshl w => some (.v 20 w)
  | .vshra w => some (.v 21 w)
  | .vshrl w => some (.v 22 w)
  | .vclz w => some (.v 23 w)
  | .vpopc w => some (.v 24 w)
  | .vmov w => some (.v 25 w)
  | .vsel w => some (.v 26 w)
  | .vidx w => some (.v 27 w)
  | .vcmpeq w => some (.v 32 w)
  | .vcmpne w => some (.v 33 w)
  | .vcmplt w => some (.v 34 w)
  | .vcmple w => some (.v 35 w)
  | .vpand w => some (.v 36 w)
  | .vpor w => some (.v 37 w)
  | .vpnot w => some (.v 38 w)
  | .vradd w => some (.v 48 w)
  | .vrmax w => some (.v 49 w)
  | .vrmin w => some (.v 50 w)
  | .xcp w => some (.v 51 w)
  | .xbc w => some (.v 52 w)
  | .vdot2 w => some (.v 53 w)
  | .vdot4 w => some (.v 54 w)
  | .sfexp2 w => some (.s 1 w)
  | .sflog2 w => some (.s 2 w)
  | .sfrcp w => some (.s 3 w)
  | .sfrsq w => some (.s 4 w)
  | .sfsqrt w => some (.s 5 w)
  | .sfsin w => some (.s 6 w)
  | .sfcos w => some (.s 7 w)
  | .sftanh w => some (.s 8 w)
  | .sfsigm w => some (.s 9 w)
  | .sferf w => some (.s 10 w)
  | .ppack w => some (.p 1 w)
  | .punpk w => some (.p 2 w)
  | .pcvt w => some (.p 3 w)
  | .pscl w => some (.p 4 w)
  | .pdscl w => some (.p 5 w)
  | .pres w => some (.p 6 w)
  | .pcrt w => some (.p 7 w)
  | .pshuf w => some (.p 8 w)
  | .ptrn w => some (.p 9 w)
  | .pswz w => some (.p 10 w)
  | .plut w => some (.p 11 w)
  | .ld w => some (.m 1 w)
  | .st w => some (.m 2 w)
  | .ldl w => some (.m 3 w)
  | .stl w => some (.m 4 w)
  | .ldv w => some (.m 5 w)
  | .stv w => some (.m 6 w)
  | .ldg w => some (.m 7 w)
  | .sts w => some (.m 8 w)
  | .pref w => some (.m 16 w)
  | .flush w => some (.m 17 w)
  | .flushInv w => some (.m 17 w)
  | .flushAll w => some (.m 17 w)
  | .fence w => some (.m 18 w)
  | .lock w => some (.m 19 w)
  | .unlock w => some (.m 20 w)
  | .aadd w => some (.m 32 w)
  | .amin w => some (.m 33 w)
  | .amax w => some (.m 34 w)
  | .aand w => some (.m 35 w)
  | .aor w => some (.m 36 w)
  | .axor w => some (.m 37 w)
  | .aswp w => some (.m 38 w)
  | .acas w => some (.m 39 w)
  | .afadd w => some (.m 40 w)
  | .redadd w => some (.m 48 w)
  | .redmin w => some (.m 49 w)
  | .redmax w => some (.m 50 w)
  | .redfadd w => some (.m 51 w)
  | .lend w => some (.m 64 w)
  | .lendPass w => some (.m 64 w)
  | .retn w => some (.m 65 w)
  | .split w => some (.m 66 w)
  | .join w => some (.m 67 w)
  | .share w => some (.m 68 w)
  | .unshr w => some (.m 69 w)
  | .tkmodePlain w => some (.m 70 w)
  | .tkmodeAtomic w => some (.m 70 w)
  | .tkqry w => some (.m 71 w)
  | .tkqryChain w => some (.m 71 w)
  | .tkqrySelf w => some (.m 71 w)
  | .reclaimClean w => some (.m 72 w)
  | .reclaimReinit w => some (.m 72 w)
  | .reclaimCreate w => some (.m 72 w)
  | .reclaimDestroy w => some (.m 72 w)
  | .reclaimSeize w => some (.m 72 w)
  | .cpy w => some (.m 80 w)
  | .cpym w => some (.m 81 w)
  | .cpyn w => some (.m 82 w)
  | .cpyq w => some (.m 83 w)
  | .cpyf w => some (.m 84 w)
  | .sxbm w => some (.m 96 w)
  | .sxrl w => some (.m 97 w)
  | .sxstop w => some (.m 98 w)
  | .sxstopAll w => some (.m 98 w)
  | .mnop w => some (.x 0 w)
  | .mpa w => some (.x 1 w)
  | .mpsh w => some (.x 2 w)
  | .macc w => some (.x 3 w)
  | .mshf w => some (.x 4 w)
  | .mdrn w => some (.x 5 w)
  | .mclr w => some (.x 6 w)
  | .mlda w => some (.x 7 w)
  | .interlockHold _ | .freezeThaw _ | .segmentExpansion _ _ _ | .exposedWriteLanding _ | .loadDataArrival _
  | .registerLanding _ _ | .slotLanding _ | .waitConditionMet _ _ | .starvationGuard _ _ | .preemptionRequest _ _
  | .preemptionLimitExpiry _ _ | .serviceEntry _ | .escalationDrainComplete _ _ | .phaseSnapshot _ _
  | .phaseRollback _ _ | .spliceRequest _ | .spliceAnswer _ | .remoteAppend _ | .headMessageSend _ _ _
  | .headMessage _ _ | .unspliceMarker _ | .headRequest _ | .headRequestAnswer _ | .copyStart _ | .copyPiece _ _
  | .cpymDelivery _ _ | .notify _ | .copyCompletion _ | .sparseStart _ | .metadataArrival _ | .sparseEmit _
  | .sparseFinish _ | .latchReady _ | .matrixAccumulationLanding _ | .drainSlotPresent _ | .barrierArrival _
  | .barrierRelease _ | .gangStart _ | .gissHoldEnd _ | .gangCompletion _ | .homeAccess _ | .homeAtomic _
  | .tableWalkRead _ _ | .dirtyReport _ | .tokenSliceRequest _ | .ownershipInvalidation _ | .partyDeath _
  | .orphanScan _ _ | .completionReread _ _ | .l1Eviction _ _ | .flushMarker _ | .flushAcknowledgement _
  | .lqPush _ _ _ _ | .lqControlWrite _ _ _ _ | .launchAcceptance _ _ | .packageTick | .dispatch _ _ | .doneFinish _ _
  | .launchEnd _ | .coalWindowExpiry _ | .contextSave _ _ | .contextRestore _ _ _ | .sampleInterval _ _
  | .clockSwitch _ | .clockSwitchEnd _ | .scratchpadSweep _ | .sageCommit | .bankAccess _ | .alertBlockEnd _
  | .refresh _ | .patrolScrub _ | .l2Sweep _ _ | .channelClr _ _ | .force _ _ | .flitArrival _ _ _ _ | .linkFailure _
  | .transportTimeout _ | .packetReceive _ _ | .requestAdmission _ | .shareRefill _ | .hostAccess _ _ _ _
  | .hostLend _ | .hostLendPass _ | .hostRetn _ | .hostSplit _ | .hostJoin _ | .hostShare _ | .hostUnshr _
  | .hostTkmodePlain _ | .hostTkmodeAtomic _ | .hostTkqry _ | .hostReclaimClean _ | .hostReinit _ | .hostCreate _
  | .hostDestroy _ | .hostSeize _ | .xinvAsn _ | .xinvRange _ | .hostBadCommand _ _ | .ago _ | .registerWrite _ _ _
  | .journalWrite | .throttleStep _ _ | .overtemperature | .packageReset _ | .liveUpdate _ | .mgmtPower _ | .mgmtReset
  | .mgmtFirmwareUpdate _ | .mgmtRead _ | .mgmtAttestation _ | .mgmtForceDecTed _ | .mgmtRetireCore _
  | .mgmtRaiseMinSvn _ _ | .mgmtClearCore _ | .podRemove _ | .podAdmit _ _ | .emptyBundle | .unassignedOpcode
  | .taskKill _ _ | .coreUnresponsive _ | .powerLoss | .portLinkDown _ | .portLinkUp _ | .softError _
  | .writeAcknowledgement _ | .hselWrite _ _ => none

/-- The word that an instruction is encoded in, from the spec's encoding tables; none for an event. -/
def encode (i : Instr) : Option Nat := i.layout.map Layout.word

/-- The bits of an instruction numbered as the opcode table numbers them, given to the decoder in the first slot that accepts them: a
32-bit word in s0, s1 and x, a 64-bit word in v0, f, k and m0. -/
def decodeTableWord (nbits w : Nat) : Option Instr :=
  let slots := if nbits ≤ 32 then [0, 1, 9] else [2, 7, 5, 6]
  slots.findSome? (fun sl => match decodeWord sl w with | .ok i => some i | .error _ => none)

end Sys2Proof
end

