-- ==== Sys2Proof/Machine/Float.lean ====
section
/-!
DEFINITION. Number formats and arithmetic (R98 to R118): the floating formats, exact values, the five rounding modes, exact
sums and products with one rounding, integers and residue triples. Values are exact: a sign, a natural significand and an
integer exponent; nothing is rounded before `FFmt.round`.
-/
namespace Sys2Proof.Machine

/-- A floating format (R98): exponent bits, fraction bits, bias, and whether the all-ones exponent holds infinities. -/
structure FFmt where
  ew : Nat
  mw : Nat
  bias : Nat
  ieee : Bool
  deriving DecidableEq, Repr

def fp32 : FFmt := ⟨8, 23, 127, true⟩
def bf16 : FFmt := ⟨8, 7, 127, true⟩
def fp16 : FFmt := ⟨5, 10, 15, true⟩
def e4m3 : FFmt := ⟨4, 3, 7, false⟩
def e5m2 : FFmt := ⟨5, 2, 15, true⟩

/-- The width in bits. -/
def FFmt.width (f : FFmt) : Nat := 1 + f.ew + f.mw

/-- The magnitude code of the largest finite value (R98). -/
def FFmt.maxMag (f : FFmt) : Nat :=
  if f.ieee then (2 ^ f.ew - 1) * 2 ^ f.mw - 1 else 2 ^ (f.ew + f.mw) - 2

/-- The code of the canonical NaN (R98). -/
def FFmt.nan (f : FFmt) : Nat :=
  if f.ieee then (2 ^ f.ew - 1) * 2 ^ f.mw + 2 ^ (f.mw - 1) else 2 ^ (f.ew + f.mw) - 1

/-- An exact value of a floating operation: NaN, an infinity, or `(-1)^neg * m * 2^e`. -/
inductive FVal where
  | nan
  | inf (neg : Bool)
  | fin (neg : Bool) (m : Nat) (e : Int)
  deriving DecidableEq, Repr

/-- The five rounding modes (R107). -/
inductive RMode where
  | rne | rtz | rdn | rup | rto
  deriving DecidableEq, Repr

/-- The mode of a 3-bit code; codes 5 to 7 are refused by the decoder and read here as RTO (R107). -/
def RMode.ofCode : Nat → RMode
  | 0 => .rne | 1 => .rtz | 2 => .rdn | 3 => .rup | _ => .rto

/-- The exact value of a code (R98, R99). -/
def FFmt.value (f : FFmt) (v : Nat) : FVal :=
  let neg := v.testBit (f.ew + f.mw)
  let e := fld v f.mw f.ew
  let m := v % 2 ^ f.mw
  if f.ieee && e == 2 ^ f.ew - 1 then (if m = 0 then .inf neg else .nan)
  else if !f.ieee && v % 2 ^ (f.ew + f.mw) == 2 ^ (f.ew + f.mw) - 1 then .nan
  else if e = 0 then .fin neg m (1 - (f.bias : Int) - f.mw)
  else .fin neg (2 ^ f.mw + m) ((e : Int) - f.bias - f.mw)

/-- Whether a truncated significand is stepped up: `odd` its last bit, `r` the discarded part out of `d` (R107, R108). -/
def RMode.up (md : RMode) (neg odd : Bool) (r d : Nat) : Bool :=
  match md with
  | .rne => decide (2 * r > d) || (decide (2 * r = d) && odd)
  | .rtz => false
  | .rdn => neg && decide (r > 0)
  | .rup => !neg && decide (r > 0)
  | .rto => !odd && decide (r > 0)

/-- The code that a finite overflow takes (R109). -/
def FFmt.overflow (f : FFmt) (md : RMode) (neg : Bool) : Nat :=
  if !f.ieee then f.maxMag
  else match md with
    | .rne => f.maxMag + 1
    | .rtz => f.maxMag
    | .rdn => if neg then f.maxMag + 1 else f.maxMag
    | .rup => if neg then f.maxMag else f.maxMag + 1
    | .rto => f.maxMag

/-- A magnitude code with a sign. -/
def FFmt.sign (f : FFmt) (neg : Bool) (mag : Nat) : Nat := if neg then 2 ^ (f.ew + f.mw) + mag else mag

/-- The magnitude code of `m * 2^e`, `m > 0`, rounded in a mode, overflow not yet judged (R107, R108). -/
def FFmt.roundMag (f : FFmt) (md : RMode) (neg : Bool) (m : Nat) (e : Int) : Nat :=
  let top : Int := (Nat.log2 m : Int) + e
  let emin : Int := 1 - (f.bias : Int)
  let q : Int := max top emin - f.mw
  let base : Nat := (q + f.mw + f.bias - 1).toNat * 2 ^ f.mw
  if e ≥ q then base + m * 2 ^ (e - q).toNat
  else
    let d := 2 ^ (q - e).toNat
    let t := m / d
    base + t + (if md.up neg (t % 2 == 1) (m % d) d then 1 else 0)

/-- An exact value rounded into a format (R107 to R110, R112). -/
def FFmt.round (f : FFmt) (md : RMode) : FVal → Nat
  | .nan => f.nan
  | .inf neg => if f.ieee then f.sign neg (f.maxMag + 1) else f.nan
  | .fin neg m e =>
    if m = 0 then f.sign neg 0
    else
      let mag := f.roundMag md neg m e
      if mag > f.maxMag then f.sign neg (f.overflow md neg) else f.sign neg mag

/-- The exact product (R110). -/
def FVal.mul : FVal → FVal → FVal
  | .nan, _ => .nan
  | _, .nan => .nan
  | .inf a, .inf b => .inf (a != b)
  | .inf a, .fin b m _ => if m = 0 then .nan else .inf (a != b)
  | .fin a m _, .inf b => if m = 0 then .nan else .inf (a != b)
  | .fin a m e, .fin b n k => .fin (a != b) (m * n) (e + k)

/-- A finite value as an integer multiple of `2^k`, for `k` at most its exponent. -/
def finInt (neg : Bool) (m : Nat) (e k : Int) : Int :=
  let v : Int := ((m * 2 ^ (e - k).toNat : Nat) : Int)
  if neg then -v else v

/-- The exact sum; an exact zero is +0 unless both addends are −0 (R110). -/
def FVal.add : FVal → FVal → FVal
  | .nan, _ => .nan
  | _, .nan => .nan
  | .inf a, .inf b => if a = b then .inf a else .nan
  | .inf a, .fin .. => .inf a
  | .fin .., .inf b => .inf b
  | .fin a m e, .fin b n k =>
    if m = 0 ∧ n = 0 then .fin (a && b) 0 e
    else if m = 0 then .fin b n k
    else if n = 0 then .fin a m e
    else
      let q := min e k
      let v := finInt a m e q + finInt b n k q
      if v = 0 then .fin false 0 q else .fin (decide (v < 0)) v.natAbs q

/-- The value with its sign inverted. -/
def FVal.neg : FVal → FVal
  | .nan => .nan
  | .inf a => .inf (!a)
  | .fin a m e => .fin (!a) m e

/-- The magnitude. -/
def FVal.abs : FVal → FVal
  | .nan => .nan
  | .inf _ => .inf false
  | .fin _ m e => .fin false m e

/-- The value times `2^k`. -/
def FVal.scale (k : Int) : FVal → FVal
  | .fin a m e => .fin a m (e + k)
  | v => v

/-- `a < b` among numbers, −0 equal to +0; false where either is NaN (R111). -/
def FVal.lt : FVal → FVal → Bool
  | .nan, _ => false
  | _, .nan => false
  | .inf a, .inf b => a && !b
  | .inf a, .fin .. => a
  | .fin .., .inf b => !b
  | .fin a m e, .fin b n k => decide (finInt a m e (min e k) < finInt b n k (min e k))

/-- `a = b` among numbers, −0 equal to +0; false where either is NaN (R111). -/
def FVal.eq : FVal → FVal → Bool
  | .nan, _ => false
  | _, .nan => false
  | .inf a, .inf b => a == b
  | .inf _, .fin .. => false
  | .fin .., .inf _ => false
  | .fin a m e, .fin b n k => decide (finInt a m e (min e k) = finInt b n k (min e k))

/-- The sign. -/
def FVal.isNeg : FVal → Bool
  | .nan => false
  | .inf a => a
  | .fin a .. => a

/-- `a` before `b` in the order of minima: −0 is less than +0 (R111). -/
def FVal.before (a b : FVal) : Bool := a.lt b || (a.eq b && a.isNeg && !b.isNeg)

/-- The minimum, ignoring a NaN operand (R111). -/
def FVal.min (a b : FVal) : FVal :=
  match a, b with
  | .nan, _ => b
  | _, .nan => a
  | _, _ => if b.before a then b else a

/-- The maximum, ignoring a NaN operand (R111). -/
def FVal.max (a b : FVal) : FVal :=
  match a, b with
  | .nan, _ => b
  | _, .nan => a
  | _, _ => if a.before b then b else a

/-- An integer as an exact value. -/
def FVal.ofInt (v : Int) : FVal := .fin (decide (v < 0)) v.natAbs 0

/-- An exact value rounded to an integer in a mode and clamped (R112); NaN gives 0. -/
def FVal.toInt (md : RMode) (lo hi : Int) : FVal → Int
  | .nan => 0
  | .inf neg => if neg then lo else hi
  | .fin neg m e =>
    let mag : Nat :=
      if e ≥ 0 then m * 2 ^ e.toNat
      else
        let d := 2 ^ (-e).toNat
        let t := m / d
        t + (if md.up neg (t % 2 == 1) (m % d) d then 1 else 0)
    let v : Int := if neg then -(mag : Int) else mag
    Max.max lo (Min.min hi v)

/-- An integer format: width in bits and signedness (R102). -/
structure IFmt where
  w : Nat
  s : Bool
  deriving DecidableEq, Repr

/-- The least value of an integer format (R102). -/
def IFmt.lo (f : IFmt) : Int := if f.s then -(2 ^ (f.w - 1) : Int) else 0

/-- The greatest value of an integer format (R102). -/
def IFmt.hi (f : IFmt) : Int := if f.s then 2 ^ (f.w - 1) - 1 else 2 ^ f.w - 1

/-- The value of a code in an integer format. -/
def IFmt.value (f : IFmt) (v : Nat) : Int := if f.s then signed v f.w else v

/-- The low bits of an integer (R103). -/
def IFmt.wrap (f : IFmt) (v : Int) : Nat := (v % 2 ^ f.w).toNat

/-- An integer clamped to the format's range (R103). -/
def IFmt.clamp (f : IFmt) (v : Int) : Nat := f.wrap (Max.max f.lo (Min.min f.hi v))

/-- The modulus of the residue triple (R105). -/
def resM : Int := 16776960

/-- The canonical triple of an integer (R104, R106). -/
def resOf (x : Int) : Nat :=
  (x % 256).toNat + 256 * (x % 255).toNat + 65536 * (x % 257).toNat

/-- The channels of a lane, non-canonical values read as R104 says. -/
def resChannels (v : Nat) : Nat × Nat × Nat :=
  (v % 256, fld v 8 8 % 255, fld v 16 9 % 257)

/-- The integer of three canonical residues (R105). -/
def crt (a b c : Nat) : Nat :=
  let t2 : Nat := (((b : Int) - a) % 255).toNat
  let x12 := a + 256 * t2
  let t3 : Nat := ((((c : Int) - x12) * 129) % 257).toNat
  x12 + 65280 * t3

/-- The signed value of a triple (R105). -/
def resSigned (v : Nat) : Int :=
  let c := resChannels v
  let x := crt c.1 c.2.1 c.2.2
  if x < 8388480 then x else (x : Int) - resM

/-- A triple whose channels are combined one by one (R106). -/
def resMap2 (op : Int → Int → Int) (a b : Nat) : Nat :=
  let x := resChannels a
  let y := resChannels b
  (op x.1 y.1 % 256).toNat + 256 * (op x.2.1 y.2.1 % 255).toNat + 65536 * (op x.2.2 y.2.2 % 257).toNat

/-- A fixed pairwise tree over a list, adjacent elements first (R118): level by level, `fuel` levels. -/
def pairTree {α : Type} (op : α → α → α) : Nat → List α → List α
  | 0, l => l
  | n + 1, l => pairTree op n (pairs l)
where
  pairs : List α → List α
    | x :: y :: r => op x y :: pairs r
    | l => l

end Sys2Proof.Machine
end

