-- ==== Sys2Proof/Config.lean ====
section
/-!
DEFINITION. What the spec leaves open, as constants without a body. A free value takes the counter `fresh` of the state, or the
operands it depends on; nothing constrains it beyond its type.
-/
namespace Sys2Proof.Config

/-- The bits of a special-function result before its bound is applied: a fixed function of the opcode, the type code and the
input element (R223; assumption 9). -/
opaque sfBits : Nat → Nat → Nat → BitVec 32

/-- A byte that the spec leaves undefined, one for each value of the counter `fresh` and each byte position: where atomics of different
sizes overlap, and in a context image where it gives no layout (R14, R158, R186, R219; assumption 10). -/
opaque freeByte : Nat → Nat → BitVec 8

/-- A choice that the spec leaves open, one for each value of the counter `fresh`: the port that a packet takes, the requests that a
failing link loses, the line that L1 drops, the next free TASK index (R127, R160, R388, R392; assumption 11). -/
opaque freeNat : Nat → Nat → Nat

/-- The payload bits of a journal entry whose layout the spec does not give: a fixed function of the entry's type and the values it
carries (R407; assumption 14). -/
opaque journalBits : Nat → List Nat → BitVec 320

/-- Byte `i` of a signature under the device identity key over the bytes of a report: the spec names the scheme and gives no key (R406;
assumption 15). -/
opaque signature : List (BitVec 8) → Nat → BitVec 8

/-- The measurement register that an image of a component extends (R406: the one that its stage names; assumption 16). -/
opaque measReg : Nat → Nat

end Sys2Proof.Config
end

