-- ==== Sys2Proof/Machine/CoreState.lean ====
section
/-!
DEFINITION. The data types of one task context and its queues, streams, loops, traps and pending writes
(R7, R12, R14, R77, R94, R197, R206).
-/
namespace Sys2Proof.Machine

/-- The causes of TRAPCAUSE (R206). -/
inductive Cause where
  | illegal | illegalDelta | align | xlate | ownNone | ownShared | ownMode | poison | eccUe | slotFull
  | format | queue | queueSync | loopStep | stopSpacing | gang | linkDown | priv | mixedAtomic | sig | trap
  deriving DecidableEq, Repr

/-- The status of a context (R12). -/
inductive CtxStatus where
  | free | dormant | ready | running | waiting | held
  deriving DecidableEq, Repr

/-- The mode of a queue (R77): 00 disabled, 01 local, 10 splice-out, 11 splice-in. -/
inductive QMode where
  | disabled | localQ | spliceOut | spliceIn
  deriving DecidableEq, Repr

/-- An index and wrap pair (R78). -/
structure QPtr where
  idx : Nat := 0
  wrap : Bool := false
  deriving DecidableEq, Repr

/-- A queue descriptor (R77). `failing` is the mark of R82, `down` the failed path of R90, `pinned` lists the slots that an
engine still reads (R262), `popped` the slots popped in this phase of a phase-bound task (R220), `headDue` a
head message still to be sent, `nextHead` the cycle from which the next may go (R86), and `headNo` the place in program order of the pops that it tells;
`cuts` are heads that a FENCE has cut off from later pops, with their places (R144, R151). -/
structure QDesc where
  base : Nat := 0
  ssz : Nat := 0
  capm1 : Nat := 0
  head : QPtr := {}
  tail : QPtr := {}
  mode : QMode := .disabled
  pend : Bool := false
  refused : Bool := false
  ownf : Bool := false
  hwm : Nat := 0
  occm1 : Nat := 0
  rcapm1 : Nat := 0
  mirror : QPtr := {}
  mpar : Bool := false
  pcore : Nat := 0
  pdie : Nat := 0
  pctx : Nat := 0
  pq : Nat := 0
  rcapw : Nat := 0
  pmap : BitVec 256 := 0
  failing : Bool := false
  down : Bool := false
  pinned : List Nat := []
  popped : Nat := 0
  headDue : Bool := false
  nextHead : Nat := 0
  headNo : Nat := 0
  cuts : List (Nat × QPtr) := []
  deriving DecidableEq, Repr

/-- A level of the loop stack (R197). `start` is a code address; `after` is the address of the bundle that follows the END bundle, as the
segment gave it when the loop began (R201). -/
structure Level where
  rem : Nat
  start : Word
  endIdx : Nat
  xn : Nat
  stg : Nat
  step : BitVec 32
  after : Option Word := none
  deriving DecidableEq, Repr

/-- The registers of a context (R189, R239, R94). An entry that is not listed reads as zero (false). -/
structure Regs where
  s : Tab Word := []
  p : BitVec 8 := 0
  x : Tab Word := []
  l : Tab Lanes := []
  lp : Tab LaneMask := []
  d : Tab (BitVec 256) := []
  deriving DecidableEq, Repr

/-- An end of a splice: package core, context, queue (R84). -/
structure QEnd where
  core : Nat
  ctx : Nat
  q : Nat
  deriving DecidableEq, Repr

/-- A write of an exposed pipeline (R55, R213): its destination and value. `slot` is a local queue slot, `remote` the slot of
another context's queue that a splice from queue `q` feeds. -/
inductive Write where
  | s (n : Nat) (v : Word)
  | p (n : Nat) (v : Bool)
  | x (n : Nat) (v : Word)
  | l (n : Nat) (lanes : LaneMask) (v : Lanes)
  | lp (n : Nat) (lanes : LaneMask) (v : LaneMask)
  | d (n : Nat) (v : BitVec 256)
  | slot (q idx : Nat) (tag : Byte) (data : List Byte)
  | remote (dst : QEnd) (q idx : Nat) (tag : Byte) (data : List Byte)
  deriving DecidableEq, Repr

/-- The write aims at a queue slot (R213). -/
def Write.toSlot : Write → Bool
  | .slot .. => true
  | .remote .. => true
  | _ => false

/-- An exposed write in flight: the issue-domain cycles until it lands, the slot that issued it, its place in the order of issue, its
latency, and the code address of its bundle (R55, R56). `flaw` counts the residue mismatches that its result has still to meet, and
`again` says that its operation is being computed again (R216); `sel` is the lane-mask selector of its word (R213). -/
structure Pend where
  due : Nat
  slot : Nat
  w : Write
  no : Nat := 0
  lat : Nat := 0
  addr : Word := 0
  flaw : Nat := 0
  again : Bool := false
  sel : Nat := 0
  deriving DecidableEq, Repr

/-- TRAPCAUSE (R206). -/
structure TrapCause where
  cause : BitVec 5 := 0
  slot : BitVec 4 := 15
  esc : Bool := false
  res : Bool := false
  detail : BitVec 10 := 0
  rollbk : BitVec 16 := 0
  deriving DecidableEq, Repr

/-- A bundle in expanded form (R27): its stop flag, the slot words present as (slot, word), and the trap that its own bits
raise (R35), with the slot that holds the fault or 15. -/
structure Bundle where
  stop : Bool := false
  words : List (Nat × Nat) := []
  bad : Option (Cause × Nat) := none
  deriving DecidableEq, Repr

/-- A segment expanded into a loop-buffer half (R25, R29): its address divided by 64, its NEXT, its bundles, and the trap
taken when control enters it (R28); `left` counts the cycles until a bundle of it may issue, and `opened` says that its bundle 0 has
issued, so that its successor is expanded (R29). -/
structure Segment where
  addr : Nat
  next : Int := 0
  bundles : List Bundle := []
  bad : Option Cause := none
  left : Nat := 0
  opened : Bool := false
  deriving DecidableEq, Repr

/-- The wait condition of a WAITING context (R15): a queue slot present, free slots of a splice-out queue, a completion
object, a barrier phase. -/
inductive Wait where
  | slot (q k : Nat)
  | room (q n : Nat)
  | object (va : Nat) (b : Nat)
  | barrier (desc : Word) (n : Nat)
  deriving DecidableEq, Repr

/-- What one bundle asks of the sequencer beside the writes of its slots: the transfer or loop action of s0. -/
inductive Ctl where
  | go (target : Word)
  | push (lv : Level) (x0 : Word)
  | skip (endIdx : Nat)
  | brk
  | yield
  | done
  | phase (base len : Nat)
  | gend
  deriving DecidableEq, Repr

/-- A change of a queue's state that takes effect after the bundle's pops and appends (R83, R97): its configuration, the start
or end of a splice, a resynchronisation, the discard of its slots; a stream register written by the service context; HDBG
(R207). -/
inductive QAct where
  | cfg (q : Nat) (v : Word)
  | splice (q : Nat) (dst : QEnd)
  | unsplice (q : Nat)
  | sync (q : Nat)
  | clear (q n : Nat)
  | dset (d : Nat) (v : BitVec 256)
  | hdbg (v : BitVec 2)
  deriving DecidableEq, Repr

/-- Why a slot does not perform: a trap at issue, or a fault while the slots perform (R49, R208). The number is DETAIL; `res`
marks a SIG of the residue check. -/
inductive Stop where
  | trap (c : Cause) (detail : Nat)
  | fail (c : Cause) (detail : Nat) (res : Bool)
  deriving DecidableEq, Repr

/-- Why the issue domain of a core is frozen (R20). `finish` is DONE's wait (R344), `clock` the hold of a clock switch (R358),
`walk` a page-table walk in progress (R126). -/
inductive Freeze where
  | absent (q idx : Nat) | late | requests | noRoom (q : Nat) | wait (w : Wait) | bar (w : Wait) | unsplice (q : Nat)
  | latch (i : Nat) | giss | fault | rollback | clock | walk | finish
  deriving DecidableEq, Repr

/-- Why a bundle is held at issue (R49): an absent queue slot, an interlock on the core's own pipelines, one for the pages of a memory slot's engine
operation (R261), a freeze, or a translation that must first be walked (R126). -/
inductive Hold where
  | slot (q idx : Nat)
  | interlock
  | pages (slot : Nat)
  | freeze (f : Freeze)
  | walk (va : Nat)
  deriving DecidableEq, Repr

/-- Operands latched at the beginning of a bundle (R210): the registers and the stage predicates. -/
structure Latch where
  regs : Regs
  g : BitVec 8
  deriving DecidableEq, Repr

/-- The bundle in progress: the slot now performing; the literal of LIT; on a reissue the latched operands, the slots already
performed (as bits) and the appends already allocated as (slot, queue, index); the transfer or loop action of s0; the pops as
(queue, slots consumed) and appends as (slot, queue, index) collected so far (R52, R53); the queue
changes still to be made, and the source slots that its copies pin as (queue, index); the queues that each slot uses and
those that it configures (R83); what holds or stops it. `begun` says that its issue cycle has begun, `issued` that it has issued
before, `void` that there is no bundle at the program counter, and `start` is the sequence number of its first access. `fixed` are the pops of a
bundle that has issued before, `recheck` says that an address of it is being computed again (R216), and `dead` is a cause that the
service routine has raised, taken when the bundle ends (R13, R211). -/
structure Bun where
  slot : Nat := 0
  bundle : Bundle := {}
  lit : Option (BitVec 21) := none
  latch : Option Latch := none
  done : Nat := 0
  pre : List (Nat × Nat × Nat) := []
  ctl : Option Ctl := none
  pops : List (Nat × Nat) := []
  apps : List (Nat × Nat × Nat) := []
  acts : List QAct := []
  pins : List (Nat × Nat) := []
  uses : List (Nat × Nat) := []
  cfgs : List (Nat × Nat) := []
  trap : Option (Nat × Cause × Nat) := none
  holds : List Hold := []
  failed : List Nat := []
  begun : Bool := false
  issued : Bool := false
  void : Bool := false
  start : Nat := 0
  fixed : Option (List (Nat × Nat)) := none
  recheck : Bool := false
  dead : Option Cause := none
  deriving DecidableEq, Repr

/-- The replay buffer (R210): the address of the held bundle, the bundle, the slots performed as bits, the operands latched as it began (none
where it has not begun, DEDUCED),
the appends already allocated, whether the bundle has issued before (so that it is counted once, R59, R217), and the control
action and queue changes that its performed slots have left for its end; `pops` are the pops that its first issue fixed (R52, R210). `void` says that the segment of the bundle was not yet
expanded, so that its words follow with the expansion (R22, R207). -/
structure Replay where
  addr : Word
  bundle : Bundle
  done : Nat
  latch : Option Latch
  apps : List (Nat × Nat × Nat) := []
  issued : Bool := false
  ctl : Option Ctl := none
  acts : List QAct := []
  pops : Option (List (Nat × Nat)) := none
  void : Bool := false
  deriving DecidableEq, Repr

/-- TRAPCAUSE's code of a cause (R206). -/
def Cause.code : Cause → Nat
  | .illegal => 1 | .illegalDelta => 2 | .align => 3 | .xlate => 4 | .ownNone => 5 | .ownShared => 6 | .ownMode => 7
  | .poison => 8 | .eccUe => 9 | .slotFull => 10 | .format => 11 | .queue => 12 | .queueSync => 13 | .loopStep => 14
  | .stopSpacing => 15 | .gang => 16 | .linkDown => 17 | .priv => 18 | .mixedAtomic => 19 | .sig => 20 | .trap => 31

/-- The mode bits of a queue descriptor (R77). -/
def QMode.code : QMode → Nat
  | .disabled => 0 | .localQ => 1 | .spliceOut => 2 | .spliceIn => 3

/-- A pointer as its nine descriptor bits (R77, R78). -/
def QPtr.bits (p : QPtr) : Nat := p.idx + (if p.wrap then 256 else 0)

/-- The slots from `h` up to `t` (R78). -/
def qcount (h t : QPtr) (cap : Nat) : Nat :=
  if h.wrap = t.wrap then t.idx - h.idx else cap - h.idx + t.idx

/-- A pointer advanced by `n` slots (R78). -/
def qadvance (p : QPtr) (n cap : Nat) : QPtr :=
  let i := p.idx + n
  if i ≥ cap then { idx := i - cap, wrap := !p.wrap } else { idx := i, wrap := p.wrap }

/-- The capacity of a queue in slots. -/
def QDesc.cap (q : QDesc) : Nat := q.capm1 + 1

/-- The capacity that a splice-in queue advertises (R78). -/
def QDesc.adv (q : QDesc) : Nat := min (q.capm1 + 1) (q.occm1 + 1)

/-- The bytes of one slot (R78). -/
def QDesc.slotBytes (q : QDesc) : Nat := (q.ssz + 1) * 512

/-- The slots allocated in a local or splice-in queue; outstanding on the splice of a splice-out queue (R78, R85). -/
def QDesc.used (q : QDesc) : Nat :=
  match q.mode with
  | .spliceOut => qcount q.mirror q.tail (q.rcapw + 1)
  | _ => qcount q.head q.tail q.cap

/-- Even parity over MIRROR, RCAPM1 and RCAPW (R77): true where the number of one bits is odd. -/
def QDesc.parity (q : QDesc) : Bool :=
  let v := q.mirror.bits + q.rcapm1 * 512 + q.rcapw * 131072
  (List.range 25).foldl (fun b i => b != v.testBit i) false

/-- The mirror passes R87. -/
def QDesc.mirrorOk (q : QDesc) : Bool :=
  q.mpar == q.parity && decide (qcount q.mirror q.tail (q.rcapw + 1) ≤ q.rcapm1 + 1)

/-- The slots behind the head that `p` pops leave which stay allocated: those popped in this phase (R220), and those from the
oldest slot that an engine still reads (R262). -/
def QDesc.behind (d : QDesc) (p : Nat) (bound : Bool) (pins : List Nat) : Nat :=
  let h := (qadvance d.head p d.cap).idx
  (d.pinned ++ pins).foldl (fun m i =>
    let dist := (i + d.cap - h) % d.cap
    if dist < d.used - p then m else max m (d.cap - dist)) (d.popped + if bound then p else 0)

/-- The free slots of a splice-out queue (R85); none while its request is pending. -/
def QDesc.freeOut (q : QDesc) : Nat :=
  if q.pend then 0 else q.rcapm1 + 1 - qcount q.mirror q.tail (q.rcapw + 1)

/-- The scratchpad offset, within the task's span, of slot index `i` (R78). -/
def QDesc.slotOff (q : QDesc) (i : Nat) : Nat := q.base * 512 + i * q.slotBytes

/-- The index of the slot at offset `k` from the head (R78). -/
def QDesc.at (q : QDesc) (k : Nat) : Nat := (qadvance q.head k q.cap).idx

end Sys2Proof.Machine
end

