-- ==== Sys2Proof/Machine/CtxState.lean ====
section
/-!
DEFINITION. The state of a task context and of a core: what Thyme binds to the context, the landing buffer, phase state,
the matrix array, the gather latches, the caches, and the core's network port (R7, R12 to R22, R126 to R130, R218, R283,
R395).
-/
namespace Sys2Proof.Machine

/-- What Thyme binds to a context at placement (R160, R334): the party word, the launch's party word, entry and frame, the address space,
the declared scratchpad span as (offset in the core scratchpad, bytes), the lane-private span as (offset, bytes a lane), and
the header's other declarations. `member` is a gang member number, `share` the share
class (R394), `lkey` and `entryIx` name the accepted launch and its entry. -/
structure Bind where
  party : Word := 0
  launch : Word := 0
  entry : Nat := 0
  asn : BitVec 16 := 0
  root : Nat := 0
  spanBase : Nat := 0
  spanBytes : Nat := 0
  privBase : Nat := 0
  privBytes : Nat := 0
  stopmax : Nat := 256
  array : Bool := false
  latchUse : Bool := false
  phaseBound : Bool := false
  tkadm : Bool := false
  lockq : Nat := 0
  prio : Nat := 7
  snap : Nat := 0
  out0 : Nat := 0
  out0n : Nat := 0
  notify : List Nat := []
  isNotify : Bool := false
  gang : Option Nat := none
  member : Nat := 0
  share : Nat := 0
  lkey : Nat := 0
  entryIx : Nat := 0
  nopre : Bool := false
  deriving DecidableEq, Repr

/-- A landing-buffer entry (R129, R130): the issue-domain cycles until it is due, the register, the flight awaited or the data
that has arrived, bad data, the code address of the load's bundle, and its lane-mask selector. -/
structure Landing where
  due : Nat
  slot : Nat
  flight : Nat
  w : Write
  arrived : Bool := false
  fault : Option Cause := none
  addr : Word := 0
  sel : Nat := 0
  deriving DecidableEq, Repr

/-- A notify waiting for its dormant context (R265): the handler, its argument, DST and the bytes moved. -/
structure NotifyRec where
  entry : Word
  arg : Word
  dst : Word
  bytes : Word
  deriving DecidableEq, Repr

/-- Phase state of a phase-bound task (R218 to R221): the output half as (offset, blocks), which frame is current, the CPYF
registrations of this phase's input and those of the next, a snapshot or rollback in progress, and whether that rollback has
refetched its input, or failed. -/
structure Phase where
  out : Nat := 0
  blocks : Nat := 0
  frame : Nat := 0
  input : List Nat := []
  reg : List Nat := []
  next : Option (Nat × Nat) := none
  rollback : Option Cause := none
  refetched : Bool := false
  failed : Bool := false
  deriving DecidableEq, Repr

/-- A barrier slot (R308); `launch` is the LAUNCH party that binds it, 0 where BOUND is clear. -/
structure BarSlot where
  expect : Nat := 0
  arrived : Nat := 0
  phase : Nat := 0
  launch : Word := 0
  deriving DecidableEq, Repr

/-- The state of a gang member (R316). -/
inductive GState where
  | detached | parked | broadcast | done
  deriving DecidableEq, Repr

/-- A completion that a broadcast still owes (R323): the barrier word, the sequence numbers of the first access of the broadcast
and of the first after it, and the issue-domain counts of the member cores from which its accumulations have landed. -/
structure Owed where
  desc : Word
  first : Nat
  last : Option Nat := none
  beats : List Nat := []
  deriving DecidableEq, Repr

/-- A gang (R316): its members as (core, context) in member order, their states, the LAUNCH party, the members that wait for their
GJOIN's write to land before they park, the completion barrier of the last GISS, the completions owed, the cycles until every member may issue, and the loop indices
and loop stacks that followers keep through a broadcast (R320). `preempt` says that a pre-emption of the whole is under way, and
`stopped` lists the members that it has stopped with the state each was in (R326); `giss` says that GISS holds the leader (R319). -/
structure Gang where
  members : List (Nat × Nat)
  states : List GState
  launch : Word := 0
  parking : List Nat := []
  comp : Word := 0
  owed : List Owed := []
  delay : Nat := 0
  kept : List (Tab Word × List Level) := []
  preempt : Bool := false
  stopped : List (Nat × GState) := []
  started : Bool := false
  giss : Bool := false
  deriving DecidableEq, Repr

/-- A snapshot frame (R219): image offsets 0 to 0x487F, and the next phase's output half; for a gang also
its state and the CORE barrier slots of its launch on the member's core (R327). -/
structure Frame where
  regs : Regs
  pc : Word
  sig : BitVec 32
  loops : List Level
  qs : Tab QDesc
  out : Nat
  blocks : Nat
  input : List Nat := []
  bars : Tab BarSlot := []
  gang : Option Gang := none
  deriving DecidableEq, Repr

/-- An asynchronous cause of a context (R208): the entry index that TRAPCAUSE.DETAIL names, and the completion object of the
operation that has stopped, of which a wait takes the cause at once (R271); `addr` is the code address of the offending bundle where TRAPADDR names
it (R186). -/
structure AsyncCause where
  cause : Cause
  ent : Nat := 0
  comp : Option Nat := none
  addr : Option Word := none
  deriving DecidableEq, Repr

/-- One task context, or the service context (R7, R12, R14). `loops` has the innermost level first; `buf` is the loop buffer,
`rstack` the four-entry return stack, a hint (R196);
`ticked` says that the issue-domain cycle now due has begun and its bundle has not ended;
`atStop` says that the context stands at a stop point (R58), `stepped` that SSTEP has been taken there (R207), `now` that its asynchronous cause is taken
at once (R271); `replay` is the replay record of an escalated context; `preempt` counts the cycles since a
pre-emption request; `badS` and `badL` are the scalar registers whose residue disagrees and the lane registers with an
uncorrectable error (R216, R255); `past` says that control has passed bundle 511 of a segment without a successor (R30); `shadow` are the
writes in the shadow result buffer (R60); `doubt` is a segment whose signature has failed once (R28); `barNo` is the flight and phase of a BAR that waits (R315); `act` counts
the active cycles of this sample interval and `charge` the wear charged (R352); `vbase` is the first of its blocks in the shadow value store (R213); `met` is an
object of another package, with the value by which its WAITC has been met (R204). -/
structure Ctx where
  status : CtxStatus := .free
  regs : Regs := {}
  q : Tab QDesc := []
  pc : Word := 0
  sig : BitVec 32 := 0xFFFFFFFF
  spacing : Nat := 0
  loops : List Level := []
  buf : List Segment := []
  rstack : List Word := []
  pend : List Pend := []
  land : List Landing := []
  hdbg : BitVec 2 := 0
  cause : TrapCause := {}
  addr : Word := 0
  async : List AsyncCause := []
  ticked : Bool := false
  atStop : Bool := false
  stepped : Bool := false
  now : Bool := false
  wait : Option Wait := none
  starve : Nat := 0
  preempt : Option Nat := none
  escalating : Bool := false
  bind : Bind := {}
  locks : List Nat := []
  engNext : Nat := 0
  notifies : List NotifyRec := []
  phase : Phase := {}
  frames : List Frame := []
  flushSeq : BitVec 16 := 0
  replay : Option Replay := none
  finishing : Bool := false
  badS : List Nat := []
  badL : List Nat := []
  past : Bool := false
  shadow : List Pend := []
  doubt : Option Nat := none
  barNo : Option (Nat × Nat) := none
  act : Nat := 0
  charge : Nat := 0
  vbase : Nat := 0
  met : Option (Nat × Nat) := none
  deriving DecidableEq, Repr

/-- A translation entry (R126): address space, virtual base, page bytes, physical base, W, X and NC. -/
structure TlbEntry where
  asn : BitVec 16
  va : Nat
  bytes : Nat
  pa : Nat
  w : Bool
  x : Bool
  nc : Bool
  deriving DecidableEq, Repr

/-- A table walk in progress (R126): the address, the level about to be read, the table, whether the first entry of a 64 KiB
group is due, whether it has failed, whether it has one of its die's walkers, and whether its read waits at a bank. -/
structure Walk where
  asn : BitVec 16
  va : Nat
  level : Nat
  table : Nat
  group : Bool := false
  failed : Bool := false
  busy : Bool := false
  asked : Bool := false
  deriving DecidableEq, Repr

/-- An L1 line (R127): the address space and virtual address it was filled under, its 128 bytes, the dirty bytes, and the other address
spaces whose accesses have used it. -/
structure Line where
  asn : BitVec 16
  va : Nat
  data : List Byte
  dirty : BitVec 128
  users : List (BitVec 16 × Nat) := []
  deriving DecidableEq, Repr

/-- A gather latch (R139, R291): its bytes, the 32-byte words of it with an uncorrectable error, its ready bit, the context and
stream of the LDG that last filled it, where one has, and the beats for which a push still fetches from it. -/
structure GLatch where
  data : List Byte := []
  bad : List Nat := []
  ready : Bool := false
  filled : Option (Nat × Nat) := none
  readers : Nat := 0
  deriving DecidableEq, Repr

/-- Staging (R283, R293): the element family as bytes and slice length, the formats of A and B, the slices as raw elements by line
and position, and the scales by line, where SCALE was set. -/
structure Staging where
  fa : Nat
  fb : Nat
  a : List (List Nat)
  b : List (List Nat)
  ea : List Nat
  eb : List Nat
  deriving DecidableEq, Repr

/-- A pending accumulation (R286): the beats until it lands, its bank, its cell operation and its operands. -/
structure Beat where
  due : Nat
  bank : Nat
  cell : Nat
  ops : Staging
  deriving DecidableEq, Repr

/-- An open drain slot (R297): its queue, index and receiver, its format, the MDRNs into it so far, the bytes written, and the place in program order
of its append. -/
structure OpenDrain where
  q : Nat
  idx : Nat
  rem : Option QEnd
  fmt : Nat
  m : Nat
  groups : Nat
  data : Memory
  no : Nat := 0
  deriving DecidableEq, Repr

/-- An open load slot (R299): its queue, index and format, and the MLDAs from it so far. -/
structure OpenLoad where
  q : Nat
  idx : Nat
  fmt : Nat
  m : Nat
  deriving DecidableEq, Repr

/-- One bank (R283): accumulator (r, c) is bits [32(32r + c) + 31 : 32(32r + c)]; `bad` lists accumulators with an uncorrectable
error (R302); and its open slots. -/
structure Bank where
  acc : BitVec 32768 := 0
  bad : List Nat := []
  drain : Option OpenDrain := none
  load : Option OpenLoad := none
  deriving DecidableEq, Repr

/-- The matrix array of a core (R283). `next` holds pushes on their way to staging with the beats left. -/
structure MArray where
  b0 : Bank := {}
  b1 : Bank := {}
  staging : Option Staging := none
  next : List (Nat × Staging) := []
  beats : List Beat := []
  deriving DecidableEq, Repr

/-- Bank `b` of the array. -/
def MArray.bank (a : MArray) (b : Nat) : Bank := if b = 0 then a.b0 else a.b1

def MArray.setBank (a : MArray) (b : Nat) (k : Bank) : MArray := if b = 0 then { a with b0 := k } else { a with b1 := k }

end Sys2Proof.Machine
end

