-- ==== Sys2Proof/Machine/Flight.lean ====
section
/-!
DEFINITION. What is on its way: accesses issued and not yet complete, fences, token requests, and the messages of splices,
barriers and engines. The key of an entry in the table of flights gives its place in program order.
-/
namespace Sys2Proof.Machine

/-- The classes of FENCE (R144). -/
inductive AClass where
  | ld | st | at | en | qa
  deriving DecidableEq, Repr

/-- The operations of the home slice (R183). -/
inductive AtomOp where
  | add | min | max | band | bor | bxor | swap | cas | fadd
  deriving DecidableEq, Repr

/-- Where the result of an access goes: nowhere; S[d] extended by a size code (R133); S[d] and S[d+1]; enabled lanes of L[d]; a
queue slot with its tag, or the receiver's slot that its splice feeds; a gather latch; the old value of an atomic, extended by its class (R183). -/
inductive ADst where
  | none
  | scalar (d cls : Nat)
  | pair (d : Nat)
  | lanes (d : Nat) (mask : LaneMask)
  | slot (q idx : Nat) (tag : Byte) (rem : Option QEnd)
  | latch (i : Nat)
  | old (d cls : Nat)
  | word (d : Nat) (v : Word)
  deriving DecidableEq, Repr

/-- An update at the home (R183, R184): the operation, the class, the elements as (physical address, operand), the compare value
of ACAS, and the mixed-atomic check of HDBG. -/
structure Atom where
  op : AtomOp
  cls : Nat
  elems : List (Nat × Nat)
  cmp : Nat := 0
  mac : Bool := false
  deriving DecidableEq, Repr

/-- A physical range of an access that uses L1, with the virtual address by which the access reaches it (R127). -/
structure Cached where
  pa : Nat
  len : Nat
  va : Nat
  deriving DecidableEq, Repr

/-- An access in flight (R145): its class and scope, the ranges of it that use L1 and those on a page with NC = 1, the physical ranges it reads and the
bytes it writes, and, once it has performed, the data bound. `report` holds the regions whose first write is still to be reported (R163). -/
structure Acc where
  cls : AClass
  scope : Nat
  cached : List Cached := []
  nc : List (Nat × Nat) := []
  asn : BitVec 16 := 0
  reads : List (Nat × Nat) := []
  writes : List (Nat × List Byte) := []
  atom : Option Atom := none
  dst : ADst := .none
  report : List Nat := []
  lock : Option (Bool × Nat × Bool) := none
  performed : Bool := false
  data : List Byte := []
  fault : Option Cause := none
  deriving DecidableEq, Repr

/-- The token instructions at the token slice (R166). -/
inductive TokOp where
  | lend | lendPass | retn | split | join | share | unshr | plain | atomic | query | chain (i : Nat) | me
  | clean | reinit | create | destroy | seize
  deriving DecidableEq, Repr

/-- The operation only reads the table (R175). -/
def TokOp.reads : TokOp → Bool
  | .query => true
  | .chain _ => true
  | .me => true
  | _ => false

/-- A token request (R166): the operation, the region by physical base and size code, the issuing and named party, whether the
issuer is privileged, its scope, the destination register, and the answer once given. -/
structure TokReq where
  op : TokOp
  base : Nat
  sz : Nat
  self : Word
  target : Word := 0
  priv : Bool := false
  scope : Nat := 0
  d : Nat := 0
  launch : Word := 0
  invSent : Bool := false
  answered : Bool := false
  status : Word := 0
  status2 : Word := 0
  fault : Option Cause := none
  deriving DecidableEq, Repr

/-- A message or access in flight. An append names the 32-byte words of its slot that carry an uncorrectable error (R131); `sent` says that the
markers of an arrival have gone out (R152, R310); a flush names its address space, its range of virtual addresses, whether it takes every line, and whether it drops them (R142); `told` says that an SXSTOP has reached the engine (R280). -/
inductive Msg where
  | access (a : Acc)
  | fence (pred succ : BitVec 5) (scope : Nat) (sent : Bool)
  | marker (fence dest : Nat)
  | ack (fence dest : Nat)
  | token (t : TokReq)
  | inval (req : Nat)
  | spliceReq (src dst : QEnd) (ssz : Nat) (party : Word)
  | spliceAns (src dst : QEnd) (ok own : Bool) (head tail : QPtr) (capm1 adv : Nat)
  | append (src dst : QEnd) (idx : Nat) (tag : Byte) (data : List Byte) (bad : List Nat)
  | head (src dst : QEnd) (p : QPtr) (failing : Bool)
  | unsplice (src dst : QEnd) (upto : Nat)
  | headReq (src dst : QEnd)
  | headAns (src dst : QEnd) (p : QPtr) (failing : Bool)
  | arrive (desc : Word) (bar sent : Bool)
  | release (key phase : Nat)
  | piece (op : Nat) (ws : List (Nat × List Byte)) (slot : Bool) (report : List Nat)
  | sxstop (ops : List Nat) (st : Nat) (told : Bool)
  | flush (asn : BitVec 16) (lo n : Nat) (all inv : Bool)
  | launch (addr : Nat) (reads : List (Nat × Nat)) (asn : BitVec 16) (party : Word) (st : Option Nat)
  deriving DecidableEq, Repr

/-- An entry of the table of flights: the issuing core and context, the code address of the issuing bundle, its share class (R394), whether the port
has admitted it (R396), and the message. `ord` gives the place in program order of a message that left later than it was issued: behind all flights with a
smaller number (R54), `since` the cycle of issue (R369). -/
structure Flight where
  core : Nat
  ctx : Nat
  addr : Word := 0
  cls : Nat := 0
  admitted : Bool := true
  ord : Option Nat := none
  since : Nat := 0
  msg : Msg
  deriving DecidableEq, Repr

/-- The place of the flight with number `n` in the program order of its context (R54). -/
def Flight.place (n : Nat) (f : Flight) : Nat := match f.ord with | some o => 2 * o | none => 2 * n + 1

/-- The condition of a token (R162). -/
inductive TState where
  | held | orphan | poison
  deriving DecidableEq, Repr

/-- A token entry (R162). `lost` marks memory lost with a dead core's scratchpad (R176, R188);
`dlaunch` is the LAUNCH party of a dead owner's launch (R187). -/
structure Region where
  base : Nat
  sz : Nat
  owner : Word
  chain : List Word := []
  shares : Nat := 0
  atomic : Bool := false
  dirty : Bool := false
  st : TState := .held
  lost : Bool := false
  dlaunch : Word := 0
  deriving DecidableEq, Repr

/-- A dead party (R187): the LAUNCH party of its launch, the cores of its contexts, and the point of the machine's run at which it died. -/
structure Dead where
  party : Word
  launch : Word
  cores : List Nat := []
  no : Nat := 0
  deriving DecidableEq, Repr

/-- The ownership state of the package (R160, R162, R177): token entries by physical base, share records as (base, party),
engagements as (base, party) once for each unjoined operation, the live TASK and LAUNCH parties, and the
dead ones (R187). -/
structure Ownership where
  regions : Tab Region := []
  shares : List (Nat × Word) := []
  engaged : List (Nat × Word) := []
  live : List Word := []
  dead : List Dead := []
  deriving DecidableEq, Repr

end Sys2Proof.Machine
end

