-- ==== Sys2Proof/Machine/EngineState.lean ====
section
/-!
DEFINITION. The state of engine operations: copies (R256 to R272) and sparse-index operations (R273 to R282), from issue to join.
-/
namespace Sys2Proof.Machine

/-- The copy instructions, and the refetch of a registered input on rollback (R259, R268). -/
inductive CopyKind where
  | cpy | cpym | cpyn | cpyq | cpyf | refetch
  deriving DecidableEq, Repr

/-- A copy descriptor (R258). -/
structure CopyDesc where
  src : Nat
  dst : Nat
  comp : Nat
  len : Nat
  rows : Nat
  inc : Nat
  spitch : Nat
  dpitch : Nat
  sqk : Bool
  sq : Nat
  spop : Bool
  dqk : Bool
  dq : Nat
  tfmt : Nat
  tswz : Nat
  mcast : Nat
  tctx : Nat
  narg : Nat
  hndl : Nat
  zeros : Bool
  deriving DecidableEq, Repr

/-- A physical range of an operation, and whether an access to it needs a token (R165), and its page's NC. -/
structure Rng where
  pa : Nat
  len : Nat
  tok : Bool
  nc : Bool := false
  deriving DecidableEq, Repr

/-- One row of an operation, as physical ranges. -/
abbrev Row := List Rng

/-- The delivery of CPYM to one core of the quad (R264): waiting for its data, its slot allocated at an index, done. -/
inductive Delivery where
  | waiting | slot (idx : Nat) | done
  deriving DecidableEq, Repr

/-- A copy in progress. `todo` lists the pieces that have not come back, `asked` those whose reads have gone out, `left` counts writes still to perform, `buf` holds bytes read
for a delivery that takes them whole, `srcQ` is the pinned source slot, `slot` the destination slot allocated at issue as (queue,
index, receiver of a splice), `targets` CPYM's deliveries by core, `ncore` CPYN's destination core. -/
structure CopyOp where
  kind : CopyKind
  d : CopyDesc
  src : List Row := []
  dst : List Row := []
  todo : List Nat := []
  asked : List Nat := []
  left : Nat := 0
  buf : Memory := []
  srcQ : Option (Nat × Nat) := none
  slot : Option (Nat × Nat × Option QEnd) := none
  slotSent : Bool := false
  targets : Tab Delivery := []
  ncore : Nat := 0
  notified : Bool := false
  deriving DecidableEq, Repr

/-- A slot that a sparse-index operation has open: its index and the elements written (R278). -/
structure OpenSlot where
  idx : Nat
  n : Nat
  deriving DecidableEq, Repr

/-- A sparse-index operation (R274, R278). `run` says SXRL; `meta` is the metadata's physical ranges, `words` the words that have
arrived, `asked` and `got` how many have been asked for and have come, `pos`, `cnt` and `crd` the state area, and `sub` the offsets taken from the word at the front; `ending` is the cycle in
which its last slots were closed. -/
structure SxOp where
  run : Bool
  desc : Nat
  count : Nat
  cbase : Nat
  rbase : Nat
  rate : Nat
  oq : Nat
  rq : Nat
  rqen : Bool
  wide : Bool
  g : Nat
  pad : Nat
  src : Row
  words : List Nat := []
  asked : Nat := 0
  got : Nat := 0
  pos : Nat := 0
  cnt : Nat := 0
  crd : Nat := 0
  sub : Nat := 0
  oslot : Option OpenSlot := none
  rslot : Option OpenSlot := none
  stop : Bool := false
  ending : Option Nat := none
  deriving DecidableEq, Repr

inductive EngBody where
  | copy (c : CopyOp)
  | sparse (x : SxOp)
  deriving DecidableEq, Repr

/-- An engine operation (R257): its issuer, entry index, launch priority, party, the completion object as a physical address with
the value added, whether it has started, the regions it engages (R177), those whose first write it has reported (R163), and the number under which it was issued before a save (R282). `svc` says that the service
context issued it (R272), `since` is the cycle from which it runs (R256, R273), `turn` the cycle in which it last sent a read, decoded or
emitted, `back` the cycle in which data last came back, and `compNc` says that its completion object lies on a page with NC = 1. -/
structure EngOp where
  core : Nat
  ctx : Nat
  ent : Nat
  prio : Nat
  party : Word
  comp : Option Nat
  inc : Nat
  started : Bool := false
  engaged : List Nat := []
  reported : List Nat := []
  born : Option Nat := none
  phase : Bool := false
  svc : Bool := false
  since : Nat := 0
  turn : Option Nat := none
  back : Option Nat := none
  compNc : Bool := false
  body : EngBody
  deriving DecidableEq, Repr

end Sys2Proof.Machine
end

