-- ==== Sys2Proof/Machine/PackageState.lean ====
section
/-!
DEFINITION. The state of the package beside its cores: barrier slots and gangs (chapter 13), launches and saved contexts (14),
lifetime records (15), memory channels and code strengths (16), links, ports and share registers (17), host cores, journal,
management and power (18).
-/
namespace Sys2Proof.Machine

/-- A pending launch record (R331): its 512 bits, its submitter, its queue as 64 × die + queue, and the address it was read from. -/
structure LRec where
  bits : Nat
  party : Word
  q : Nat
  addr : Nat := 0
  deriving DecidableEq, Repr

/-- Where one task of an entry is placed (R336, R339): core, context, notify contexts, scratchpad and lane-private offsets, and
the TASK party. -/
structure Place where
  core : Nat
  ctx : Nat
  nots : List Nat := []
  span : Nat := 0
  priv : Nat := 0
  party : Word := 0
  deriving DecidableEq, Repr

/-- A launch queue with its save pool (R329, R400), and the places, each with its header, that are kept for the record at its head while the
tasks are saved that it pre-empts (R337). -/
structure LQueue where
  en : Bool := false
  prio : Nat := 7
  asn : BitVec 16 := 0
  ovf : Bool := false
  recs : List LRec := []
  spbase : Nat := 0
  spsize : Nat := 0
  spused : Nat := 0
  kept : List (Place × Nat) := []
  deriving DecidableEq, Repr

/-- An entry's instance in the current frame (R338). -/
inductive InstSt where
  | idle | released | running | saved | done | lost
  deriving DecidableEq, Repr

/-- A timetable entry of an accepted launch: its 32 bytes (R332), its header's 256 (R334), its arguments' 240, its places, and its
instance: state, frame, slip ticks, charge (R338, R352); whether a TIGHT stay has been journalled (R359), whether the instance has been counted
as overdue (R338), and the bases of the token entries reserved for its start (R336). -/
structure Entry where
  bits : Nat
  hdr : Nat
  args : Nat
  places : List Place := []
  st : InstSt := .idle
  frame : Nat := 0
  lateTicks : Nat := 0
  charge : Nat := 0
  tight : Bool := false
  counted : Bool := false
  claims : List Nat := []
  deriving DecidableEq, Repr

/-- An accepted launch (R337, R338, R342): `hold` counts a frame counter not yet started, `sticks` to `lost` are the counts of
its status block, `lostf` lists the frames in which an instance was lost, and `gone` the scratchpad spans of tasks lost with their
core (R188). -/
structure Launch where
  src : LRec
  prio : Nat
  asn : BitVec 16
  seq : Nat
  party : Word
  entries : List Entry
  items : List Nat := []
  started : Bool := false
  frame : Nat := 0
  sticks : Nat := 0
  sevents : Nat := 0
  pticks : Nat := 0
  donecnt : Nat := 0
  lost : Nat := 0
  lostf : List Nat := []
  gone : List (Nat × Nat) := []
  slipped : Bool := false
  killed : Bool := false
  deriving DecidableEq, Repr

/-- A saved task (R346): the address of its saved state in HBM and the sizes of its parts; what the model keeps of the context and its notify
contexts beside their images, the place it left, and by offset its tags; array and latches, its parked sparse-index operations (R282), the
CORE barrier slots of its launch (R326), the queue whose pool holds it with the units taken there, and the bytes taken of the migration
reserve (R362). -/
structure Saved where
  ctx : Ctx
  nots : List Ctx := []
  place : Place
  base : Nat := 0
  parts : List Nat := []
  tags : Tab Byte := []
  arr : Option MArray := none
  latch0 : GLatch := {}
  latch1 : GLatch := {}
  parked : List EngOp := []
  bars : Tab BarSlot := []
  q : Nat := 0
  units : Nat := 0
  reserve : Nat := 0
  deriving DecidableEq, Repr

/-- A core's lifetime record (R354), with its count of intervals within the hour, the last sixteen readings of its oscillators,
whether its margin was at most 600 and at most 200 at the end of the last interval, and whether it failed or was retired by
the controller (R356). -/
structure Sage where
  wufine : Nat := 0
  margin : Nat := 1000
  margin0 : Nat := 1000
  st : Nat := 0
  eccs : Bool := false
  cause : Nat := 0
  emmax : Nat := 0
  poh : Nat := 0
  idle : Nat := 0
  part : Nat := 0
  hist : List (List Int) := []
  low6 : Bool := false
  low2 : Bool := false
  failed : Bool := false
  admin : Bool := false
  deriving DecidableEq, Repr

/-- What a request asks of its bank (R416): a read, a write of whole words, or a read, merge and write. -/
inductive BKind where
  | read | write | merge
  deriving DecidableEq, Repr

/-- A request at a bank (R368): its row, its line, what it asks, and the cycle in which it reaches the controller (R369). -/
structure BReq where
  row : Nat
  line : Nat
  kind : BKind
  from_ : Nat := 0
  deriving DecidableEq, Repr

/-- A bank (R368, R370, R371, R372, R416): its queued requests, the one being served with the cycle in which it ends, the open row and the hits
served from it, the cycle of its last activation, that from which it may be precharged, its tracker of 256 entries as (row, count), a free one with
row `freeRow`, the entry whose alert waits for its access to end, its block as (end, tracker entry), the position and the count of its refreshes, and
the cycle until which a background command, or the write of a correction, holds it; `left` says of the lines whose data have left the controller in which
cycle they did (R369). -/
structure DBank where
  queue : List BReq := []
  serving : Option (BReq × Nat) := none
  row : Option Nat := none
  hits : Nat := 0
  last : Option Nat := none
  pre : Nat := 0
  alerting : Option Nat := none
  track : List (Nat × Nat) := []
  block : Option (Nat × Nat) := none
  pos : Nat := 0
  done : Nat := 0
  busy : Nat := 0
  left : Tab Nat := []
  deriving DecidableEq, Repr

/-- A stack's registers (R374), and the cycle from which its next patrol read is due (R376). -/
structure Stack where
  alerts : Nat := 0
  vict : Nat := 0
  row : Nat := 0
  bank : Nat := 0
  pch : Nat := 0
  chan : Nat := 0
  time : Nat := 0
  ce : Nat := 0
  ue : Nat := 0
  passes : Nat := 0
  prow : Nat := 0
  scruben : Bool := true
  next : Nat := 1048576
  deriving DecidableEq, Repr

/-- A die's registers: the slices at DEC-TED and those that have finished re-encoding (R378), each slice's sweep position and the words
it has corrected in this pass (R377), its L2 lines, most recent first (R8), and the share registers (R398). -/
structure Die where
  strong : List Nat := []
  done : List Nat := []
  sweep : Tab Nat := []
  corrected : Tab Nat := []
  l2 : List Nat := []
  portbud : Nat := 524288
  err : Bool := false
  share : Tab Nat := []
  qcls : Tab Nat := []
  deriving DecidableEq, Repr

/-- A Phogil link (R381 to R383): the lanes in service outward and inward, whether it is up, the replays requested and flits
carried, and the cycles of the recent replays of each lane (outward 0 to 15, inward 16 to 31). -/
structure Link where
  laneso : BitVec 16 := 0xFFFF
  lanesi : BitVec 16 := 0xFFFF
  up : Bool := true
  replays : Nat := 0
  flits : Nat := 0
  recent : Tab (List Nat) := []
  deriving DecidableEq, Repr

/-- A scale-out port (R389). -/
structure Port where
  up : Bool := false
  en : Bool := true
  txb : Nat := 0
  rxb : Nat := 0
  retx : Nat := 0
  trim : Nat := 0
  deriving DecidableEq, Repr

/-- A host core's device registers: HSEL and its command port (R401, R402), and the outcome of its last device access: the bytes
read, or an access fault. `irqs` counts the supervisor external interrupts raised (R404). `op` is a pending command, `since` the point of the machine's run
from which a pending command no longer waits for new accesses, and `taken` the range whose rights it withdraws (R164, R403). -/
structure HostCore where
  hsel : Word := 0
  desig : Nat := 0
  party : Word := 0
  len : Nat := 0
  status : Nat := 0
  result : Word := 0
  result2 : Word := 0
  data : List Byte := []
  fault : Bool := false
  irqs : Nat := 0
  since : Option Nat := none
  op : Nat := 0
  taken : List (Nat × Nat) := []
  deriving DecidableEq, Repr

/-- A journal entry not yet written (R407): type, die, package core and the payload of bytes 24 to 63, with the cycle of the event
and its sequence number. -/
structure JEntry where
  seq : Nat
  ty : Nat
  die : Nat
  core : Nat
  cycle : Nat
  payload : Nat
  deriving DecidableEq, Repr

/-- Miovilo (R407, R408): its registers, the entries to be written, the controller's mirror, most recent first, and whether the
entry being written lacks only its SEQ. -/
structure Journal where
  jbase : Nat := 0
  jnext : Nat := 1
  jold : Nat := 1
  pend : List JEntry := []
  mirror : List JEntry := []
  half : Bool := false
  deriving DecidableEq, Repr

/-- The management controller and the power block (R405, R406, R410, R412, R414). `out` is the controller's last answer at its
port; `errors` its log of phase rollbacks (R221); `svcEntry` the code address of the service routine's entry (R209), and `steps`
counts the milliseconds whose power it has judged (R414). -/
structure Mgmt where
  powered : Bool := true
  recovery : Bool := false
  minsvn : Nat := 0
  svn : Tab Nat := []
  meas : Tab (BitVec 256) := []
  pcap : Nat := 2400
  pnow : Nat := 0
  thr : Nat := 0
  tj : Nat := 0
  areq : Nat := 0
  astat : Nat := 0
  errors : List (Nat × Nat × Cause × Word) := []
  out : List Byte := []
  released : Bool := true
  svcEntry : Nat := 0
  steps : Nat := 0
  deriving DecidableEq, Repr

/-- Thyme: PLIMIT, the queues by 64 × die + queue, the accepted launches, saved contexts, coalescing windows as thread to (count, cycle of its close), the
rotation among the queues of each priority, the bytes of the migration reserve in use and its base, the address-space roots, the translations onto scratchpads that Thyme has created, each by the
physical address of its entry (R180, R361), a hold of every frame counter during an update, and the image that takes over with the cycle in which the hold began (R410). -/
structure Thyme where
  plimit : Nat := 4096
  queues : Tab LQueue := []
  launches : Tab Launch := []
  saved : Tab Saved := []
  windows : Tab (Nat × Nat) := []
  rot : Tab Nat := []
  reserve : Nat := 0
  resvBase : Nat := 0x7FFE000000
  roots : Tab Nat := []
  maps : List Nat := []
  update : Bool := false
  taking : Option (Image × Nat) := none
  deriving DecidableEq, Repr

/-- A share class at a core's port (R395 to R398): its tokens, allotment and debt, the bytes admitted in this interval and whether it
was active in it, LAST, ACT and TOTAL, the cycles in which it last admitted a core request and an engine piece, and the operation
that had the last turn. -/
structure PortCls where
  bucket : Nat := 65536
  alloc : Nat := 65536
  debt : Nat := 0
  spent : Nat := 0
  active : Bool := false
  last : Nat := 0
  act : Bool := false
  total : Nat := 0
  granted : Option Nat := none
  eng : Option Nat := none
  turn : Nat := 0
  deriving DecidableEq, Repr

end Sys2Proof.Machine
end

