-- ==== Sys2Proof/Machine/State.lean ====
section
/-!
DEFINITION. The state of the package, and the state after reset.
-/
namespace Sys2Proof.Machine

/-- Why the machine stops with a fault. No meaning of this model raises it today; see the constructor. -/
inductive Fault where
  /-- An access to a physical address that the spec gives no target (R121) and no trap. Safe. -/
  | noTarget
  deriving DecidableEq, Repr

/-- Why a step has no meaning. -/
inductive Refusal where
  /-- The arm of an instruction that has no meaning yet. Safe. -/
  | notModelled (mnemonic : String)
  deriving DecidableEq, Repr

/-- What happens next besides the issue of bundles: an event of another agent, or one wall cycle, in which the work in
flight moves on by the default policy or not at all. -/
inductive Choice where
  | event (i : Instr)
  | cycle (deliver : Bool)
  deriving DecidableEq, Repr

/-- The state of a core (R5 to R21). `svcFreeze` and `sdiv0`, `sdiv1` are the freezes and divides of the service context, which has its
own pipelines (R209); `ilock` says that the last cycle was an interlock hold (R49); `slowDue` is Sage's signal
and `slowOld` says that the stop point at which the core stands issued before it (R358); `refills` counts the port's intervals (R397), `routine` is the security version of the service routine that it has installed (R410);
`retry` says that a freeze has cleared with a fault (R21), and `upset` lists memory slots whose next address meets a residue mismatch:
once (1), twice (2), or again after it has been computed once more (3) (R216); `kept` are translations that the held bundle has found and
the cache has since evicted (R126), and `paged` the interlock holds that each memory slot of it has taken for the pages of an engine operation
(R261); `asd` counts the cycles in which the array advanced, and
`worked` says that it had a beat to advance in the last (R303, R348). -/
structure Core where
  ctxs : Tab Ctx := []
  running : Option Nat := none
  next : Nat := 0
  switchLeft : Nat := 0
  freeze : List Freeze := []
  svcFreeze : List Freeze := []
  isd : Nat := 0
  slow : Bool := false
  slowDue : Bool := false
  slowOld : Bool := false
  strong : Bool := false
  sweep : Nat := 0
  act : Nat := 0
  ilock : Bool := false
  port : Tab PortCls := []
  refills : Nat := 0
  routine : Nat := 0
  clkHold : Nat := 0
  clkPend : Bool := false
  bun : Bun := {}
  replay : Option Replay := none
  held : Option Nat := none
  svcTimer : Option Nat := none
  fBusy : Nat := 0
  kBusy : Nat := 0
  div0 : Nat := 0
  div1 : Nat := 0
  sdiv0 : Nat := 0
  sdiv1 : Nat := 0
  tlb : List TlbEntry := []
  walks : List Walk := []
  reported : List Nat := []
  lanes : Memory := []
  l1 : Tab Line := []
  latch0 : GLatch := {}
  latch1 : GLatch := {}
  arr : MArray := {}
  out : Bool := false
  failed : Bool := false
  retry : Bool := false
  upset : Tab Nat := []
  kept : List TlbEntry := []
  paged : Tab Nat := []
  asd : Nat := 0
  worked : Bool := false
  deriving DecidableEq, Repr

/-- The state of the package. `ivals` counts the sample intervals that Sage has read of each core (R348), and `commits` its
commits since power-up that fell due (R355). -/
structure State where
  cores : Tab Core := []
  mem : Memory := []
  tags : Tab Byte := []
  bad : List Nat := []
  cycle : Nat := 0
  tick : Nat := 0
  agenda : List Choice := []
  cur : Nat := 0
  fresh : Nat := 0
  flight : Tab Flight := []
  own : Ownership := {}
  ops : Tab EngOp := []
  granules : Tab (List (Nat × Nat)) := []
  seq : Nat := 0
  pkgid : Nat := 0
  pod : List Nat := [0]
  podid : BitVec 16 := 0
  l2locks : List Nat := []
  soft : Tab Nat := []
  bars : Tab BarSlot := []
  gangs : Tab Gang := []
  thyme : Thyme := {}
  sage : Tab Sage := []
  ivals : Tab Nat := []
  commits : Nat := 0
  stored : Tab Sage := []
  banks : Tab DBank := []
  hbmStacks : Tab Stack := []
  dies : Tab Die := []
  links : Tab Link := []
  paths : Tab (List Nat) := []
  ports : Tab Port := []
  torn : List Nat := []
  heard : Tab Nat := []
  hosts : Tab HostCore := []
  routes : Tab Nat := []
  journal : Journal := {}
  mgmt : Mgmt := {}
  deriving DecidableEq, Repr

def State.reset : State := {}

end Sys2Proof.Machine
end

