-- ==== Sys2Proof/Machine/Ops.lean ====
section
/-!
DEFINITION. The named operations over the state: the current core and context, registers, exposed writes, the physical and
local memory of a context, and taking an exception (R209) with its return (R212).
-/
namespace Sys2Proof.Machine

abbrev Out := Host.Outcome State Fault Refusal

/-- A core that has done nothing. -/
def Core.idle : Core := {}

/-- Context `k` of a core; 4 is the service context (R12, R13). -/
def Core.ctx (c : Core) (k : Nat) : Ctx := Tab.get {} c.ctxs k

/-- A core with context `k` replaced. -/
def Core.setCtx (c : Core) (k : Nat) (x : Ctx) : Core := { c with ctxs := c.ctxs.put k x }

def Core.modCtx (c : Core) (k : Nat) (f : Ctx → Ctx) : Core := c.setCtx k (f (c.ctx k))

/-- Core `c` of the package (R5). -/
def State.coreAt (s : State) (c : Nat) : Core := Tab.get Core.idle s.cores c

def State.setCore (s : State) (c : Nat) (x : Core) : State := { s with cores := s.cores.put c x }

def State.modCore (s : State) (c : Nat) (f : Core → Core) : State := s.setCore c (f (s.coreAt c))

def State.modCtx (s : State) (c k : Nat) (f : Ctx → Ctx) : State := s.modCore c (fun x => x.modCtx k f)

def State.ctxAt (s : State) (c k : Nat) : Ctx := (s.coreAt c).ctx k

/-- The core whose slot performs now. -/
def State.core (s : State) : Core := s.coreAt s.cur

/-- The number of the context that issues on a core: the service context while it runs, else the running context. -/
def Core.issuing (c : Core) : Nat := if c.held.isSome then 4 else c.running.getD 0

/-- The context that issues. -/
def State.me (s : State) : Ctx := s.core.ctx s.core.issuing

/-- The number of the context whose queues, streams and address space a slot uses: the held context for the service context
(R210). -/
def Core.dataIdx (c : Core) : Nat := c.held.getD (c.running.getD 0)

/-- The context whose queues, streams and address space a slot uses. -/
def State.data (s : State) : Ctx := s.core.ctx s.core.dataIdx

def State.modMyCore (s : State) (f : Core → Core) : State := s.modCore s.cur f
def State.modMe (s : State) (f : Ctx → Ctx) : State := s.modCtx s.cur s.core.issuing f
def State.modData (s : State) (f : Ctx → Ctx) : State := s.modCtx s.cur s.core.dataIdx f
def State.modBun (s : State) (f : Bun → Bun) : State := s.modMyCore (fun c => { c with bun := f c.bun })

/-- The service context issues (R210). -/
def State.inService (s : State) : Bool := s.core.held.isSome

/-- The slot now performing. -/
def State.slot (s : State) : Nat := s.core.bun.slot

/-- The registers that slots read: those of the issuing context, or the operands latched by the replay buffer (R210). -/
def State.rd (s : State) : Regs :=
  match s.core.bun.latch with
  | some l => l.regs
  | none => s.me.regs

/-- A scalar register; S0 reads zero (R189). -/
def Regs.sreg (r : Regs) (n : Nat) : Word := if n = 0 then 0 else Tab.get 0 r.s n

/-- A scalar predicate; P0 reads true (R189). -/
def Regs.preg (r : Regs) (n : Nat) : Bool := if n = 0 then true else r.p.getLsbD n

/-- A lane register (R239). -/
def Regs.lreg (r : Regs) (n : Nat) : Lanes := Tab.get 0 r.l n

/-- A lane predicate over all lanes; LP0 reads true (R239). -/
def Regs.lpreg (r : Regs) (n : Nat) : LaneMask := if n = 0 then BitVec.allOnes 128 else Tab.get 0 r.lp n

/-- A stream register (R94). -/
def Regs.dreg (r : Regs) (n : Nat) : BitVec 256 := Tab.get 0 r.d n

/-- A loop index (R189). -/
def Regs.xreg (r : Regs) (n : Nat) : Word := Tab.get 0 r.x n

/-- Scalar register `n` as the bundle begins (R51). -/
def State.sreg (s : State) (n : BitVec 5) : Word := s.rd.sreg n.toNat

/-- The innermost active MLOOP (R203). -/
def mloopOf : List Level → Option Level
  | [] => none
  | l :: r => if l.stg = 0 then mloopOf r else some l

/-- The stage predicates of a context as bits (R203): outside every MLOOP only G0. -/
def Ctx.stages (c : Ctx) : BitVec 8 :=
  match mloopOf c.loops with
  | none => 1
  | some l =>
    let i := (c.regs.xreg l.xn).toNat
    let n := i + l.rem + 1
    let cnt := n - l.stg + 1
    (List.range 8).foldl
      (fun (b : BitVec 8) j => if j < l.stg ∧ j ≤ i ∧ i < cnt + j then b ||| (1#8 <<< j) else b) 0

/-- Stage predicate `j` as slots see it. -/
def State.gpred (s : State) (j : Nat) : Bool :=
  match s.core.bun.latch with
  | some l => l.g.getLsbD j
  | none => s.me.stages.getLsbD j

/-- A guard holds (R44). -/
def State.guard (s : State) (g : BitVec 4) : Bool :=
  if g.toNat < 8 then s.rd.preg g.toNat else s.gpred (g.toNat - 8)

/-- The lane-mask selector of the word of the performing slot, which a shadow entry names (R38, R40, R132, R138, R213). -/
def State.maskSel (s : State) : Nat :=
  match s.core.bun.bundle.words.find? (fun e => e.1 == s.slot) with
  | some (sl, w) =>
    if 2 ≤ sl ∧ sl ≤ 4 then w % 4
    else if sl = 5 then fld w 22 2
    else if sl = 7 ∨ sl = 8 then (match rawDecode sl w with
      | some (.ldl m) => m.sz.toNat / 2 % 4
      | some (.ldv m) => m.sz.toNat % 4
      | _ => 0)
    else 0
  | none => 0

/-- An exposed write issued now, due in `lat` issue-domain cycles (R55). -/
def State.put (w : Write) (lat : Nat) (s : State) : State :=
  s.modMe (fun c => { c with pend := c.pend ++ [{ due := lat, slot := s.slot, w := w, no := s.seq, lat := lat, addr := c.pc, sel := s.maskSel }] })

/-- A core's bundle in progress. -/
def State.bun (s : State) : Bun := s.core.bun

/-- The stage predicates as slots see them, as bits. -/
def State.stageBits (s : State) : BitVec 8 :=
  match s.core.bun.latch with
  | some l => l.g
  | none => s.me.stages

/-- The operands that the replay buffer latches (R210). -/
def State.latchNow (s : State) : Latch := ⟨s.rd, s.stageBits⟩

/-- The latched operands with which a bundle enters the replay buffer: those it began with, where it has begun (R210). -/
def State.latchHeld (s : State) : Option Latch := if s.bun.begun then some s.latchNow else s.bun.latch

/-- The gang of a context (R316). -/
def State.gangOf (s : State) (x : Ctx) : Option Gang :=
  match x.bind.gang with
  | some g => Tab.find s.gangs g
  | none => none

/-- An entry added to the journal (R407). -/
def State.journalAdd (ty die core payload : Nat) (s : State) : State :=
  let j := s.journal
  let e : JEntry := { seq := j.jnext, ty := ty, die := die, core := core, cycle := s.cycle, payload := payload }
  { s with journal := { j with jnext := j.jnext + 1, jold := max j.jold (j.jnext + 1 - 1048576), pend := j.pend ++ [e],
                               mirror := (e :: j.mirror).take 65536 } }

/-- A payload whose exact layout the spec leaves open, from its type and the values it carries (R407; assumption 14). -/
def openPayload (ty : Nat) (vs : List Nat) : Nat := (Config.journalBits ty vs).toNat

/-- A fault reported to Thyme and to the management controller: a FAULT entry of the journal with TRAPCAUSE and TRAPADDR, which the
controller keeps, and the controller's own record (R13, R221, R407, R408). -/
def State.logFault (c k : Nat) (cause : Cause) (addr : Word) (s : State) : State :=
  let s := s.journalAdd 5 (c / 96) c (openPayload 5 [cause.code, addr.toNat])
  { s with mgmt := { s.mgmt with errors := s.mgmt.errors ++ [(c, k, cause, addr)] } }

/-- Context `k` of a core starts to escalate (R213). -/
def Core.escalate (c : Core) (k : Nat) : Core :=
  c.modCtx k (fun x => { x with status := .held, escalating := true, cause := { x.cause with esc := true } })

/-- A gang's member `k` escalates with another member (R13, R325); one that does not run is stopped where it stands (R22). A cause of its
own that still waits for service is dropped. -/
def Core.escalateWith (k : Nat) (c : Core) : Core :=
  let d := if c.svcTimer.isSome then
      { c with svcTimer := none, freeze := c.freeze.filter (fun f => !(f == .fault)) } else c
  match (d.ctx k).status with
  | .running => d.escalate k
  | .held => d.escalate k
  | .ready => d.modCtx k (fun x => { x with preempt := some (x.preempt.getD 0) })
  | .waiting => d.modCtx k (fun x => { x with preempt := some (x.preempt.getD 0), status := .ready, wait := none })
  | _ => d

/-- The service routine has faulted (R13): the core stops issuing, every bound task context escalates, and the core is out of
placement. `hard` is a cause of ECC_UE or SIG, which the wear state records (R356). -/
def Core.serviceFault (hard : Bool) (c : Core) : Core :=
  { c with
    running := none, held := none, svcTimer := none, out := true, failed := hard || c.failed, replay := none,
    freeze := c.freeze.filter (fun f => !(f == .fault)),
    ctxs := c.ctxs.map fun e =>
      if e.1 < 4 ∧ e.2.status ≠ .free ∧ e.2.status ≠ .dormant then
        (e.1, { e.2 with status := .held, escalating := true, cause := { e.2.cause with esc := true },
                         replay := if c.held = some e.1 then c.replay else e.2.replay })
      else e }

/-- A cause of the service context (R13): its core stops issuing, its task contexts escalate, and with them the other members of their
gangs, which Thyme migrates as a whole (R326); the core reports to Thyme and to the management controller. -/
def State.serviceFault (c : Cause) (addr : Word) (s : State) : State :=
  let cur := s.cur
  let hit := s.core.ctxs.filter (fun e => decide (e.1 < 4) && e.2.status != .free && e.2.status != .dormant)
  let s := hit.foldl (fun (t : State) (e : Nat × Ctx) => match t.gangOf e.2 with
    | some g => (g.members.filter (fun m => m.1 != cur)).foldl (fun (u : State) (m : Nat × Nat) => u.modCore m.1 (Core.escalateWith m.2)) t
    | none => t) s
  (s.modMyCore (Core.serviceFault (c == .eccUe || c == .sig))).logFault cur 4 c addr

/-- A context that a cause stops (R206, R209): HELD, with TRAPCAUSE and TRAPADDR written. -/
def Ctx.trapped (c : Cause) (slot detail : Nat) (res : Bool) (addr : Word) (x : Ctx) : Ctx :=
  { x with
    status := .held, addr := addr,
    cause := { x.cause with cause := BitVec.ofNat 5 c.code, slot := BitVec.ofNat 4 slot, esc := false, res := res,
                            detail := BitVec.ofNat 10 detail } }

/-- The replay record of the bundle in progress (R210); of a bundle whose segment is not expanded it has the address alone (R22, R207). -/
def State.heldNow (s : State) : Replay :=
  let b := s.bun
  if b.void then { addr := s.me.pc, bundle := {}, done := b.done, latch := none, void := true }
  else { addr := s.me.pc, bundle := b.bundle, done := b.done, latch := s.latchHeld, apps := b.pre, issued := b.issued, ctl := b.ctl,
         acts := b.acts, pops := b.fixed }

/-- The issuing context escalates without service, and with it the other members of its running gang (R186, R213, R325). -/
def State.escalateUnit (s : State) : State :=
  let cur := s.cur
  let others : List (Nat × Nat) := match s.gangOf s.me with
    | some g => if g.started then g.members.filter (fun m => m.1 != cur) else []
    | none => []
  others.foldl (fun (t : State) (m : Nat × Nat) => t.modCore m.1 (Core.escalateWith m.2))
    (s.modMyCore (fun c => ({ c with svcTimer := none, freeze := c.freeze.filter (fun f => !(f == .fault)) } : Core).escalate c.issuing))

/-- Taking a synchronous cause (R209): the issue domain freezes, the held bundle enters the replay buffer with its performed
bits and latched operands, TRAPCAUSE and TRAPADDR are written, the context becomes HELD, and the service context begins four
cycles later. A cause of the service context follows R13; an uncorrectable error or a residue SIG in a phase-bound task rolls
the phase back instead, whatever else its bundle has raised (R208, R221). When several slots raise a cause in one cycle, the earliest in
canonical order is kept (R208). MIXED_ATOMIC escalates the context at once (R186). A failed table walk is forgotten, so that the next access walks
again (R124). -/
def State.takeCause (c : Cause) (slot detail : Nat) (res : Bool) (addr : Word) (s : State) : State :=
  if s.inService then s.serviceFault c addr
  else if s.me.phase.rollback.isSome then s
  else if s.me.bind.phaseBound && (c == .eccUe || (c == .sig && res)) then
    let s := s.modMe (fun x => { x with addr := addr, status := if x.status = .held then .running else x.status,
                                        phase := { x.phase with rollback := some c } })
    s.modMyCore (fun k => { k with svcTimer := none, freeze := k.freeze.filter (fun f => !(f == .fault)) ++ [.rollback] })
  else if s.core.svcTimer.isSome && decide (s.me.cause.slot.toNat ≤ slot) then s
  else
    let held := some s.heldNow
    let s := s.modMe (Ctx.trapped c slot detail res addr)
    let s := s.modMyCore (fun k => { k with freeze := k.freeze.filter (fun f => !(f == .fault)) ++ [.fault], svcTimer := some 4,
                                            replay := held, walks := k.walks.filter (fun w => !w.failed), kept := [], paged := [] })
    if c == .mixedAtomic then s.escalateUnit else s

/-- A cause raised while the slots of a bundle perform (R208): the rest of a service bundle performs before its fault is taken
(R211). -/
def State.raise (c : Cause) (slot detail : Nat) (res : Bool) (s : State) : State :=
  if s.inService then s.modBun (fun b => { b with dead := some (b.dead.getD c) })
  else s.takeCause c slot detail res s.me.pc

/-- The issue checks of an older slot still wait for a table walk (R126), so that no later check has failed first (R49). -/
def Bun.walking (b : Bun) : Bool := b.holds.any (fun h => match h with | .walk _ => true | _ => false)

/-- What a slot's stop does: a trap at issue is recorded for the whole bundle and taken, unless an older check is still to be made; a
fault while slots perform marks this slot as not performed and is taken (R49, R208). -/
def State.stop (e : Stop) (s : State) : State :=
  match e with
  | .trap c d =>
    let first := match s.bun.trap with | some (k, _, _) => decide (k ≤ s.slot) | none => false
    if first || s.bun.walking then s
    else (s.modBun (fun b => { b with trap := some (s.slot, c, d) })).takeCause c s.slot d false s.me.pc
  | .fail c d res =>
    ((s.modBun (fun b => { b with failed := b.failed ++ [s.slot] })).modMyCore (fun k => { k with upset := k.upset.drop s.slot })).raise
      c s.slot d res

/-- The common course of a slot (R49, R50, R208): nothing where the guard is false; else the issue checks, which collect pops,
appends and holds; then, unless the bundle is held, the slot performs. -/
def runSlot (g : BitVec 4) (issue : State → Except Stop State) (perf : State → Except Stop State) (s : State) : Out :=
  if s.guard g then
    match issue s with
    | .error e => .next (s.stop e)
    | .ok t =>
      if t.bun.holds.isEmpty then
        match perf t with
        | .error e => .next (t.stop e)
        | .ok u => .next u
      else .next t
  else .next s

/-- A slot that makes no issue check. -/
def runPure (g : BitVec 4) (perf : State → State) (s : State) : Out :=
  if s.guard g then .next (perf s) else .next s

/-- A condition of an issue check. -/
def require (b : Bool) (c : Cause) (s : State) : Except Stop State := if b then .ok s else .error (.trap c 0)

/-- A hold of the bundle. -/
def State.hold (h : Hold) (s : State) : State := s.modBun (fun b => { b with holds := b.holds ++ [h] })

/-- The residue check of the registers that a slot reads (R208, R216). -/
def readRegs (rs : List Nat) (s : State) : Except Stop State :=
  if rs.any (fun r => s.me.badS.contains r) then .error (.fail .sig 0 true) else .ok s

/-- The address of a memory slot has met a residue mismatch a second time (R216). -/
def State.addrBad (s : State) : Bool := Tab.get 0 s.core.upset s.slot == 3

/-- The residue checks of a memory slot: of the registers that it reads, and of its address (R216). -/
def readAddr (rs : List Nat) (s : State) : Except Stop State := if s.addrBad then .error (.fail .sig 0 true) else readRegs rs s

end Sys2Proof.Machine
end

