-- ==== Sys2Proof/Machine/Operands.lean ====
section
/-!
DEFINITION. Every operand form: the second operand of form R with LIT (R37, R190), lane, queue, scalar and constant specifiers
(R39, R47), queue sources, pops and appends (R52, R53, R79 to R85), streams (R94, R95), lane masks (R240), element types (R45,
R101).
-/
namespace Sys2Proof.Machine

/-- The literal that a LIT in s1 supplies to s0 (R37). -/
def State.litFor (s : State) : Option (BitVec 21) := if s.slot = 0 then s.bun.lit else none

/-- B of form R (R190): S[b], or the immediate sign-extended, or the LIT-extended value. -/
def State.opB (s : State) (w : RForm) : Word :=
  if w.i = 0 then s.sreg (w.b.extractLsb' 0 5)
  else match s.litFor with
    | some l => (l ++ w.b).signExtend 64
    | none => w.b.signExtend 64

/-- The immediate of form L (R37, R192). -/
def State.immL (s : State) (w : LForm) : Word :=
  match s.litFor with
  | some l => (l ++ w.imm).signExtend 64
  | none => w.imm.signExtend 64

/-- The registers that form R reads. -/
def rReads (w : RForm) : List Nat :=
  w.a.toNat :: (if w.i = 0 then [(w.b.extractLsb' 0 5).toNat] else [])

/-- The scratchpad of package core `c` in physical addresses (R121). -/
def scratchPA (c : Nat) : Nat := 0x20000000000 + c * 0x200000

/-- The physical address of offset `o` of a context's scratchpad span (R120). -/
def spanPA (c : Nat) (x : Ctx) (o : Nat) : Nat := scratchPA c + x.bind.spanBase + o

/-- Queue `q` of the context whose queues the slot uses. -/
def State.queue (s : State) (q : Nat) : QDesc := Tab.get {} s.data.q q

def Ctx.queue (x : Ctx) (q : Nat) : QDesc := Tab.get {} x.q q

def Ctx.modQ (x : Ctx) (q : Nat) (f : QDesc → QDesc) : Ctx := { x with q := x.q.put q (f (x.queue q)) }

def State.modQ (s : State) (q : Nat) (f : QDesc → QDesc) : State := s.modData (fun x => x.modQ q f)

/-- The slot uses queue `q` (R83). -/
def State.use (s : State) (q : Nat) : State := s.modBun (fun b => { b with uses := b.uses ++ [(s.slot, q)] })

/-- A distance beyond the tail of a local queue: LINK_DOWN where its splice's path has failed, else QUEUE (R79, R90). -/
def QDesc.beyond (d : QDesc) : Cause := if d.down then .linkDown else .queue

/-- The issue check of a source at offset `k` (R79): a trap, a hold on an absent slot, or nothing. -/
def needSlot (q k : Nat) (s : State) : Except Stop State :=
  let d := s.queue q
  let i := d.at k
  match d.mode with
  | .disabled => .error (.trap .queue 0)
  | .spliceOut => .error (.trap .queue 0)
  | .localQ =>
    if k < d.used then .ok (if d.pmap.getLsbD i then s.use q else (s.use q).hold (.slot q i))
    else .error (.trap d.beyond 0)
  | .spliceIn =>
    if k < d.adv then .ok (if d.pmap.getLsbD i then s.use q else (s.use q).hold (.slot q i))
    else .error (.trap .queue 0)

/-- The issue check of the `n` slots that a pop consumes, which must all be present (R79, R80). -/
def needSlots (q : Nat) : Nat → State → Except Stop State
  | 0, s => .ok s
  | n + 1, s => match needSlot q n s with
    | .error e => .error e
    | .ok t => needSlots q n t

/-- A pop of `n` slots, collected with the bundle's other pops (R52, R80). -/
def popSlots (q n : Nat) (s : State) : Except Stop State :=
  match needSlots q n s with
  | .error e => .error e
  | .ok t => .ok (t.modBun (fun b => { b with pops := b.pops ++ [(q, n)] }))

/-- The slots of queue `q` that the bundle's pops consume (R52). -/
def Bun.popped (b : Bun) (q : Nat) : Nat := (b.pops.filter (fun e => e.1 == q)).foldl (fun m e => max m e.2) 0

/-- The appends to queue `q` that the bundle has made so far. -/
def Bun.appended (b : Bun) (q : Nat) : Nat := (b.apps.filter (fun e => e.2.1 == q)).length

/-- The capacity of a queue's index space: the receiver's for a splice-out queue (R85). -/
def QDesc.ring (d : QDesc) : Nat := match d.mode with | .spliceOut => d.rcapw + 1 | _ => d.cap

/-- The check that one more append to queue `q` makes (R53, R79, R84, R85, R87, R90, R220). -/
def appendCheck (q : Nat) (s : State) : Except Stop State :=
  let d := s.queue q
  let n := s.bun.appended q
  match d.mode with
  | .disabled => .error (.trap .queue 0)
  | .spliceIn => .error (.trap .queue 0)
  | .localQ =>
    let pins := (s.bun.pins.filter (fun e => e.1 == q)).map (fun e => e.2)
    if d.used - s.bun.popped q + d.behind (s.bun.popped q) s.data.bind.phaseBound pins + n + 1 > d.cap then
      .error (.trap .queue 0)
    else .ok (s.use q)
  | .spliceOut =>
    if d.down then .error (.trap .linkDown 0)
    else if d.refused then .error (.trap (if d.ownf then .ownNone else .queue) 0)
    else if d.pend then .ok ((s.use q).hold (.freeze (.noRoom q)))
    else if d.failing || !d.mirrorOk then .error (.trap .queueSync 0)
    else if d.freeOut < n + 1 then .ok ((s.use q).hold (.freeze (.noRoom q)))
    else .ok (s.use q)

/-- One slot allocated at the tail (R53, R85), with its index; a reissued slot keeps the index it was given (R210). -/
def appendSlot (q : Nat) (s : State) : Except Stop State :=
  match s.bun.pre.find? (fun e => e.1 == s.slot && e.2.1 == q) with
  | some _ => .ok s
  | none =>
    match appendCheck q s with
    | .error e => .error e
    | .ok t =>
      let d := s.queue q
      let i := (qadvance d.tail (s.bun.appended q) d.ring).idx
      .ok (t.modBun (fun b => { b with apps := b.apps ++ [(s.slot, q, i)] }))

/-- The index of the slot that the performing slot has appended to queue `q`. -/
def State.appIdx (s : State) (q : Nat) : Nat :=
  match (s.bun.pre ++ s.bun.apps).find? (fun e => e.1 == s.slot && e.2.1 == q) with
  | some (_, _, i) => i
  | none => 0

/-- The end of a splice that a queue feeds (R77). -/
def QDesc.partner (d : QDesc) : QEnd := ⟨96 * d.pdie + d.pcore, d.pctx, d.pq⟩

/-- The write that fills an appended slot: of the local queue, or of the receiver's where the queue is spliced out (R85). -/
def State.slotWrite (s : State) (q : Nat) (tag : Byte) (data : List Byte) : Write :=
  match (s.queue q).mode with
  | .spliceOut => .remote (s.queue q).partner q (s.appIdx q) tag data
  | _ => .slot q (s.appIdx q) tag data

/-- The index of the last slot that the performing slot has appended to queue `q`. -/
def State.appLast (s : State) (q : Nat) : Nat :=
  match (s.bun.pre ++ s.bun.apps).reverse.find? (fun e => e.1 == s.slot && e.2.1 == q) with
  | some (_, _, i) => i
  | none => 0

/-- The write that fills the scale slot appended behind a data slot, to the same queue or another (R234). -/
def State.scaleWrite (s : State) (q : Nat) (tag : Byte) (data : List Byte) : Write :=
  match (s.queue q).mode with
  | .spliceOut => .remote (s.queue q).partner q (s.appLast q) tag data
  | _ => .slot q (s.appLast q) tag data

/-- Where an access that fills the appended slot of queue `q` delivers (R85, R135). -/
def State.slotDst (s : State) (q : Nat) (tag : Byte) : ADst :=
  .slot q (s.appIdx q) tag (match (s.queue q).mode with | .spliceOut => some (s.queue q).partner | _ => none)

/-- A vector or special-function operand names a queue of one-block slots (R81). -/
def oneBlock (q : Nat) (s : State) : Except Stop State := require ((s.queue q).ssz == 0) .queue s

/-- Some byte of a physical range carries an uncorrectable error (R131, R375). -/
def State.badRange (s : State) (pa n : Nat) : Bool :=
  s.bad.any (fun w => decide (w * 32 < pa + n) && decide (pa < w * 32 + 32))

/-- The physical address of the slot at offset `k` of queue `q`. -/
def State.slotPA (s : State) (q k : Nat) : Nat :=
  let d := s.queue q
  spanPA s.cur s.data (d.slotOff (d.at k))

/-- The bytes of the slot at offset `k`. -/
def State.slotBytes (s : State) (q k : Nat) : List Byte :=
  s.mem.readBytes (s.slotPA q k) (s.queue q).slotBytes

/-- A slot that is read carries no uncorrectable error (R131, R208). -/
def readSlot (q k : Nat) (s : State) : Except Stop State :=
  if s.badRange (s.slotPA q k) (s.queue q).slotBytes then .error (.fail .eccUe 0 false) else .ok s

/-- Lane `j` of a lane register or one-block slot (R81). -/
def laneAt (v : Nat) (j : Nat) : Nat := fld v (32 * j) 32

/-- 128 lanes from their values. -/
def lanesOf (f : Nat → Nat) : Lanes :=
  BitVec.ofNat 4096 ((List.range 128).foldr (fun j acc => f j % 4294967296 + 4294967296 * acc) 0)

/-- 128 lane bits from their values. -/
def maskOf (f : Nat → Bool) : LaneMask :=
  BitVec.ofNat 128 ((List.range 128).foldr (fun j acc => (if f j then 1 else 0) + 2 * acc) 0)

/-- The bytes of 128 lanes, lane-major, little-endian (R81). -/
def lanesBytes (v : Lanes) : List Byte := leBytes v.toNat 512

/-- What an element type is (R45). -/
inductive EKind where
  | flt (f : FFmt)
  | int (f : IFmt)
  | res
  | b32
  deriving DecidableEq, Repr

/-- The element type of a type code (R45, R101). -/
def ekind : Nat → EKind
  | 0 => .flt fp32 | 1 => .flt bf16 | 2 => .flt fp16 | 3 => .flt e4m3 | 4 => .flt e5m2
  | 5 => .int ⟨32, true⟩ | 6 => .int ⟨32, false⟩ | 7 => .int ⟨16, true⟩ | 8 => .int ⟨16, false⟩
  | 9 => .int ⟨8, true⟩ | 10 => .int ⟨8, false⟩ | 11 => .res | _ => .b32

/-- The element width in bits (R101). -/
def EKind.width : EKind → Nat
  | .flt f => f.width
  | .int f => f.w
  | .res => 32
  | .b32 => 32

/-- The elements of a lane, element 0 first (R101). -/
def elems (w v : Nat) : List Nat := (List.range (32 / w)).map (fun i => fld v (i * w) w)

/-- A value from elements of `w` bits, element 0 in the low bits (R101). -/
def unelems (w : Nat) : List Nat → Nat
  | [] => 0
  | e :: r => e % 2 ^ w + 2 ^ w * unelems w r

/-- The same element in every position of a lane. -/
def splat (w e : Nat) : Nat := unelems w (List.replicate (32 / w) e)

/-- Constants 192 to 255 (R48). -/
def constTail : List Nat :=
  [0x00000000, 0x80000000, 0x7F800000, 0xFF800000, 0x7FC00000, 0x7F7FFFFF, 0xFF7FFFFF, 0x00800000,
   0x00000001, 0x3EAAAAAB, 0x3F2AAAAB, 0x3F317218, 0x3FB8AA3B, 0x40490FDB, 0x3EA2F983, 0x3FC90FDB] ++
  [0x40C90FDB, 0x3FB504F3, 0x3F3504F3, 0x402DF854, 0x40135D8E, 0x3E9A209B, 0x40549A78, 0x3F906EBB,
   0x3F4C422A, 0x3DCCCCCD, 0x3E4CCCCD, 0x3E99999A, 0x3F19999A, 0x3F333333, 0x3F666666, 0x3FC00000] ++
  [0x40400000, 0x40A00000, 0x40C00000, 0x40E00000, 0x41200000, 0x42C80000, 0x447A0000, 0x3D372713,
   0x3F400000, 0x40200000, 0x40600000, 0xBF800000, 0xBF000000, 0xC0000000, 0x3727C5AC, 0x358637BD] ++
  [0x477FE000, 0x43E00000, 0x47600000, 0x7F7F0000, 0x42FE0000, 0x437F0000, 0xC3000000, 0x3E2AAAAB,
   0x41400000, 0x3D4CCCCD, 0x3C23D70A, 0x3A83126F, 0x3F7FFFFF, 0x3F800001, 0x80800000, 0xFFFFFFFF]

/-- The integer of a constant index below 128 (R47). -/
def constInt (i : Nat) : Int := if i < 64 then i else (i : Int) - 128

/-- The FP32 pattern of a constant index from 128 (R47, R48). -/
def constF32 (i : Nat) : Nat :=
  if i < 192 then (i - 128 + 95) * 8388608 else constTail.getD (i - 192) 0

/-- The lane value of constant `i` for a type (R47). -/
def constLane (ty i : Nat) : Nat :=
  match ekind ty with
  | .flt f =>
    splat f.width (f.round .rne (if i < 128 then FVal.ofInt (constInt i) else fp32.value (constF32 i)))
  | .int f => if i < 128 then splat f.w (f.wrap (constInt i)) else constF32 i
  | .res => if i < 128 then resOf (constInt i) else constF32 i
  | .b32 => if i < 128 then (IFmt.mk 32 false).wrap (constInt i) else constF32 i

/-- The issue checks of a vector or special-function source (R39, R79, R81), its pop included. -/
def vsrcIssue (sp : BitVec 10) (s : State) : Except Stop State :=
  if fld sp.toNat 8 2 = 1 then do
    let q := fld sp.toNat 4 4
    let k := fld sp.toNat 1 3
    let s ← oneBlock q s
    if sp.getLsbD 0 then popSlots q (k + 1) s else needSlot q k s
  else .ok s

/-- The faults of reading a vector or special-function source (R208, R216, R255). -/
def vsrcRead (sp : BitVec 10) (s : State) : Except Stop State :=
  match fld sp.toNat 8 2 with
  | 0 => if s.me.badL.contains (fld sp.toNat 0 5) then .error (.fail .eccUe 0 false) else .ok s
  | 1 => readSlot (fld sp.toNat 4 4) (fld sp.toNat 1 3) s
  | 2 => readRegs [fld sp.toNat 0 5] s
  | _ => .ok s

/-- The value of a vector or special-function source in each lane (R39, R241). -/
def vsrc (ty : Nat) (sp : BitVec 10) (s : State) : Nat → Nat :=
  match fld sp.toNat 8 2 with
  | 0 => let v := (s.rd.lreg (fld sp.toNat 0 5)).toNat; fun j => laneAt v j
  | 1 => let v := leNat (s.slotBytes (fld sp.toNat 4 4) (fld sp.toNat 1 3)); fun j => laneAt v j
  | 2 => let v := (s.rd.sreg (fld sp.toNat 0 5)).toNat % 4294967296; fun _ => v
  | _ => let v := constLane ty (fld sp.toNat 0 8); fun _ => v

/-- The lane-mask selector (R38, R240). -/
def State.laneSel (s : State) (lm : BitVec 2) : LaneMask := s.rd.lpreg lm.toNat

/-- The enabled lanes (R240). -/
def State.enabled (s : State) (gm : BitVec 8) (lm : BitVec 2) : LaneMask :=
  let sel := s.laneSel lm
  maskOf (fun j => gm.getLsbD (j / 16) && sel.getLsbD j)

/-- The fields of a stream register (R94). -/
structure Stream where
  en : Bool
  kind : Nat
  qn : Nat
  fmt : Nat
  swz : Nat
  rows : Nat
  cols : Nat
  k : Nat
  scen : Bool
  sq : Nat
  sstr : Nat
  iq : Nat
  iw : Bool
  abase : Nat
  pitch : Nat
  len : Nat
  deriving DecidableEq, Repr

/-- A stream register's fields (R94). -/
def streamOf (v : BitVec 256) : Stream :=
  let n := v.toNat
  { en := n.testBit 0, kind := fld n 1 2, qn := fld n 3 4, fmt := fld n 7 4, swz := fld n 11 4, rows := fld n 15 8 + 1,
    cols := fld n 23 8 + 1, k := fld n 31 8 + 1, scen := n.testBit 40, sq := fld n 41 4, sstr := fld n 45 11,
    iq := fld n 56 4, iw := n.testBit 60, abase := fld n 64 64, pitch := fld n 128 32, len := fld n 160 32 }

/-- Stream `d` as the bundle begins (R96): the held context's for the service context (R210). -/
def State.stream (s : State) (d : Nat) : Stream :=
  streamOf (if s.inService then s.data.regs.dreg d else s.rd.dreg d)

/-- The tag byte of a format and swizzle (R91). -/
def tagByte (fmt swz : Nat) : Byte := BitVec.ofNat 8 (fmt + 16 * swz)

/-- The tag that matches every declaration (R91, R93). -/
def tagAny : Byte := 0x0F

/-- The tag of the 512-byte block that holds a physical address (R91). -/
def State.tagAt (s : State) (pa : Nat) : Byte := Tab.get tagAny s.tags (pa / 512)

/-- A block's tag agrees with a declaration (R93). -/
def tagOk (t : Byte) (fmt swz : Nat) : Bool :=
  t.toNat % 16 == 15 || (t.toNat % 16 == fmt && t.toNat / 16 == swz)

/-- Every block of the slot at offset `k` of a stream's queue has a tag that agrees with the stream (R93); the fault is
FORMAT, while slots perform. -/
def tagCheck (st : Stream) (k : Nat) (s : State) : Except Stop State :=
  let pa := s.slotPA st.qn k
  if (List.range ((s.queue st.qn).ssz + 1)).all (fun b => tagOk (s.tagAt (pa + 512 * b)) st.fmt st.swz) then .ok s
  else .error (.fail .format 0 false)

end Sys2Proof.Machine
end

