-- ==== Sys2Proof/Machine/Flags.lean ====
section
/-!
DEFINITION. The truth values that instructions compute: scalar compares (R193), floating compares (R111), element compares of
the vector slots (R250), and the minimum and maximum by the order of a type.
-/
namespace Sys2Proof.Machine

/-- Signed order of 64-bit values. -/
def sltW (a b : Word) : Bool := a.slt b

/-- The elements `a` and `b` of a type are equal (R111, R250). -/
def elemEq (k : EKind) (a b : Nat) : Bool :=
  match k with
  | .flt f => (f.value a).eq (f.value b)
  | .res => resChannels a == resChannels b
  | _ => a == b

/-- `a` is less than `b` by the order of the type (R103, R111). -/
def elemLt (k : EKind) (a b : Nat) : Bool :=
  match k with
  | .flt f => (f.value a).lt (f.value b)
  | .int f => decide (f.value a < f.value b)
  | _ => decide (a < b)

/-- The minimum by the order of the type (R103, R111). -/
def elemMin (k : EKind) (a b : Nat) : Nat :=
  match k with
  | .flt f => f.round .rne ((f.value a).min (f.value b))
  | _ => if elemLt k b a then b else a

/-- The maximum by the order of the type (R103, R111). -/
def elemMax (k : EKind) (a b : Nat) : Nat :=
  match k with
  | .flt f => f.round .rne ((f.value a).max (f.value b))
  | _ => if elemLt k a b then b else a

end Sys2Proof.Machine
end

