-- ==== Sys2Proof/Machine/Vector.lean ====
section
/-!
DEFINITION. The vector instructions (R239 to R255). Each acts on all 128 lanes in its issue cycle; results land at the
latencies of R245.
-/
namespace Sys2Proof.Machine

/-- The issue checks of a list of sources in order (R244). -/
def vsrcsIssue : List (BitVec 10) → State → Except Stop State
  | [], s => .ok s
  | sp :: r, s => match vsrcIssue sp s with
    | .error e => .error e
    | .ok t => vsrcsIssue r t

/-- The faults of reading a list of sources (R255). -/
def vsrcsRead : List (BitVec 10) → State → Except Stop State
  | [], s => .ok s
  | sp :: r, s => match vsrcRead sp s with
    | .error e => .error e
    | .ok t => vsrcsRead r t

/-- The issue checks of a destination byte: an append names a queue of one-block slots and allocates its slot (R53, R81). -/
def vdstIssue (dst : BitVec 8) (s : State) : Except Stop State :=
  if dst.getLsbD 7 then
    match oneBlock (fld dst.toNat 0 4) s with
    | .error e => .error e
    | .ok t => appendSlot (fld dst.toNat 0 4) t
  else .ok s

/-- The write of a lane result (R240, R242, R246): enabled lanes of a lane register, or a whole slot with zeros in the lanes that
are not enabled. -/
def vdstWrite (dst : BitVec 8) (tag : Byte) (en : LaneMask) (res : Nat → Nat) (s : State) : Write :=
  if dst.getLsbD 7 then
    s.slotWrite (fld dst.toNat 0 4) tag (lanesBytes (lanesOf (fun j => if en.getLsbD j then res j else 0)))
  else .l (fld dst.toNat 0 5) en (lanesOf res)

/-- The course of a vector instruction with a lane result (R244, R246): `srcs` the sources it uses, `tag` the type its appended
slot is tagged with, `res` the result of each lane. -/
def vec (lat : Nat) (tag : Nat) (srcs : List (BitVec 10)) (res : State → Nat → Nat) (w : VForm) (s : State) : Out :=
  runSlot w.g
    (fun s => match vsrcsIssue srcs s with
      | .error e => .error e
      | .ok s => vdstIssue w.dst s)
    (fun s => match vsrcsRead srcs s with
      | .error e => .error e
      | .ok s => .ok (s.put (vdstWrite w.dst (tagByte tag 0) (s.enabled w.gm w.lm) (res s) s) lat)) s

/-- An operation on each element of A (R246). -/
def vmap1 (lat : Nat) (op : EKind → Nat → Nat) (w : VForm) (s : State) : Out :=
  let k := ekind w.ty.toNat
  vec lat w.ty.toNat [w.a]
    (fun s j => unelems k.width ((elems k.width (vsrc w.ty.toNat w.a s j)).map (op k))) w s

/-- An operation on each element of A and B. -/
def vmap2 (lat : Nat) (op : EKind → Nat → Nat → Nat) (w : VForm) (s : State) : Out :=
  let k := ekind w.ty.toNat
  vec lat w.ty.toNat [w.a, w.b]
    (fun s j => unelems k.width
      (List.zipWith (op k) (elems k.width (vsrc w.ty.toNat w.a s j)) (elems k.width (vsrc w.ty.toNat w.b s j)))) w s

/-- A floating operation on each element of A, B and C, rounded once (R117). -/
def vmap3f (op : FVal → FVal → FVal → FVal) (w : VForm) (s : State) : Out :=
  let k := ekind w.ty.toNat
  let f : FFmt := match k with | .flt f => f | _ => fp32
  vec 5 w.ty.toNat [w.a, w.b, w.c]
    (fun s j => unelems k.width
      (List.zipWith (fun (ab : Nat × Nat) c => f.round .rne (op (f.value ab.1) (f.value ab.2) (f.value c)))
        (List.zip (elems k.width (vsrc w.ty.toNat w.a s j)) (elems k.width (vsrc w.ty.toNat w.b s j)))
        (elems k.width (vsrc w.ty.toNat w.c s j)))) w s

/-- An arithmetic element result: exact and rounded once for a float, the low bits for an integer, channel by channel for a
residue (R103, R106, R117). -/
def arith (fop : FVal → FVal → FVal) (iop : Int → Int → Int) (k : EKind) (a b : Nat) : Nat :=
  match k with
  | .flt f => f.round .rne (fop (f.value a) (f.value b))
  | .int f => f.wrap (iop (f.value a) (f.value b))
  | .res => resMap2 iop a b
  | .b32 => 0

/-- An integer operation whose exact result is clamped (R103). -/
def satur (iop : Int → Int → Int) (k : EKind) (a b : Nat) : Nat :=
  match k with
  | .int f => f.clamp (iop (f.value a) (f.value b))
  | _ => 0

/-- |a − b| (R103, R247). -/
def absDiff (k : EKind) (a b : Nat) : Nat :=
  match k with
  | .flt f => f.round .rne (((f.value a).add (f.value b).neg).abs)
  | .int f => (f.value a - f.value b).natAbs % 2 ^ f.w
  | _ => 0

/-- The absolute value: the sign bit cleared; MIN stays MIN; unsigned unchanged (R247). -/
def elemAbs (k : EKind) (a : Nat) : Nat :=
  match k with
  | .flt f => a % 2 ^ (f.ew + f.mw)
  | .int f => f.wrap (f.value a).natAbs
  | _ => a

/-- The negation: the sign bit inverted, or 0 − a (R247). -/
def elemNeg (k : EKind) (a : Nat) : Nat :=
  match k with
  | .flt f => if a.testBit (f.ew + f.mw) then a % 2 ^ (f.ew + f.mw) else a + 2 ^ (f.ew + f.mw)
  | .int f => f.wrap (-(f.value a))
  | _ => a

/-- The high half of the exact product (R103). -/
def mulHigh (k : EKind) (a b : Nat) : Nat :=
  match k with
  | .int f => f.wrap (f.value a * f.value b / 2 ^ f.w)
  | _ => 0

/-- A shift of each element by the element of B modulo the width (R248). -/
def shiftBy (op : Nat → Nat → Nat → Nat) (k : EKind) (a b : Nat) : Nat := op k.width a (b % k.width) % 2 ^ k.width

def execVadd (w : VForm) (s : State) : Out := vmap2 2 (arith FVal.add (fun a b => a + b)) w s
def execVsub (w : VForm) (s : State) : Out := vmap2 2 (arith (fun a b => a.add b.neg) (fun a b => a - b)) w s
def execVmul (w : VForm) (s : State) : Out := vmap2 5 (arith FVal.mul (fun a b => a * b)) w s
def execVfma (w : VForm) (s : State) : Out := vmap3f (fun a b c => (a.mul b).add c) w s
def execVfms (w : VForm) (s : State) : Out := vmap3f (fun a b c => (a.mul b).add c.neg) w s
def execVfnma (w : VForm) (s : State) : Out := vmap3f (fun a b c => (a.mul b).neg.add c) w s
def execVmin (w : VForm) (s : State) : Out := vmap2 2 elemMin w s
def execVmax (w : VForm) (s : State) : Out := vmap2 2 elemMax w s
def execVabs (w : VForm) (s : State) : Out := vmap1 2 elemAbs w s
def execVneg (w : VForm) (s : State) : Out := vmap1 2 elemNeg w s
def execVabd (w : VForm) (s : State) : Out := vmap2 2 absDiff w s
def execVadds (w : VForm) (s : State) : Out := vmap2 2 (satur (fun a b => a + b)) w s
def execVsubs (w : VForm) (s : State) : Out := vmap2 2 (satur (fun a b => a - b)) w s
def execVmulh (w : VForm) (s : State) : Out := vmap2 5 mulHigh w s

/-- A bit operation over all 32 bits of the lane (R248). -/
def vbits (op : Nat → Nat → Nat) (w : VForm) (s : State) : Out :=
  vec 2 w.ty.toNat [w.a, w.b] (fun s j => op (vsrc w.ty.toNat w.a s j) (vsrc w.ty.toNat w.b s j)) w s

def execVand (w : VForm) (s : State) : Out := vbits (fun a b => a &&& b) w s
def execVor (w : VForm) (s : State) : Out := vbits (fun a b => a ||| b) w s
def execVxor (w : VForm) (s : State) : Out := vbits (fun a b => a ^^^ b) w s
def execVnot (w : VForm) (s : State) : Out :=
  vec 2 w.ty.toNat [w.a] (fun s j => 4294967295 - vsrc w.ty.toNat w.a s j % 4294967296) w s
def execVshl (w : VForm) (s : State) : Out := vmap2 2 (shiftBy (fun _ a n => a * 2 ^ n)) w s
def execVshra (w : VForm) (s : State) : Out :=
  vmap2 2 (shiftBy (fun wd a n => (signed a wd / 2 ^ n % 2 ^ wd).toNat)) w s
def execVshrl (w : VForm) (s : State) : Out := vmap2 2 (shiftBy (fun _ a n => a / 2 ^ n)) w s
def execVclz (w : VForm) (s : State) : Out :=
  vmap1 2 (fun k a => if a = 0 then k.width else k.width - 1 - Nat.log2 a) w s
def execVpopc (w : VForm) (s : State) : Out :=
  vmap1 2 (fun k a => (List.range k.width).foldl (fun c i => if a.testBit i then c + 1 else c) 0) w s

def execVmov (w : VForm) (s : State) : Out := vec 2 w.ty.toNat [w.a] (fun s j => vsrc w.ty.toNat w.a s j) w s

/-- VSEL (R249): A where the lane predicate named by C is true, else B. -/
def execVsel (w : VForm) (s : State) : Out :=
  vec 2 w.ty.toNat [w.a, w.b]
    (fun s j => if (s.rd.lpreg (fld w.c.toNat 0 3)).getLsbD j then vsrc w.ty.toNat w.a s j else vsrc w.ty.toNat w.b s j) w s

/-- VIDX (R249): the lane number plus A. -/
def execVidx (w : VForm) (s : State) : Out :=
  vec 2 w.ty.toNat [w.a]
    (fun s j => arith FVal.add (fun a b => a + b) (ekind w.ty.toNat)
      (match ekind w.ty.toNat with | .flt f => f.round .rne (.ofInt j) | _ => j) (vsrc w.ty.toNat w.a s j)) w s

/-- The course of an instruction that writes lane predicate LP[d] of the enabled lanes (R250, R251). -/
def vpred (srcs : List (BitVec 10)) (res : State → Nat → Bool) (w : VForm) (s : State) : Out :=
  runSlot w.g (vsrcsIssue srcs)
    (fun s => match vsrcsRead srcs s with
      | .error e => .error e
      | .ok s => .ok (s.put (.lp (fld w.dst.toNat 0 3) (s.enabled w.gm w.lm) (maskOf (res s))) 2)) s

/-- A relation that must hold in every element position (R250). -/
def vrel (rel : EKind → Nat → Nat → Bool) (w : VForm) (s : State) (j : Nat) : Bool :=
  let k := ekind w.ty.toNat
  (List.zip (elems k.width (vsrc w.ty.toNat w.a s j)) (elems k.width (vsrc w.ty.toNat w.b s j))).all
    (fun p => rel k p.1 p.2)

def execVcmpeq (w : VForm) (s : State) : Out := vpred [w.a, w.b] (fun s j => vrel elemEq w s j) w s
def execVcmpne (w : VForm) (s : State) : Out := vpred [w.a, w.b] (fun s j => !vrel elemEq w s j) w s
def execVcmplt (w : VForm) (s : State) : Out := vpred [w.a, w.b] (fun s j => vrel elemLt w s j) w s
def execVcmple (w : VForm) (s : State) : Out :=
  vpred [w.a, w.b] (fun s j => vrel (fun k a b => elemLt k a b || elemEq k a b) w s j) w s

/-- Lane predicate named by a specifier (R39). -/
def lpSrc (sp : BitVec 10) (s : State) (j : Nat) : Bool := (s.rd.lpreg (fld sp.toNat 0 3)).getLsbD j

def execVpand (w : VForm) (s : State) : Out := vpred [] (fun s j => lpSrc w.a s j && lpSrc w.b s j) w s
def execVpor (w : VForm) (s : State) : Out := vpred [] (fun s j => lpSrc w.a s j || lpSrc w.b s j) w s
def execVpnot (w : VForm) (s : State) : Out := vpred [] (fun s j => !lpSrc w.a s j) w s

/-- Combines two values of which either may be absent (R252). -/
def combineOpt (op : Nat → Nat → Nat) : Option Nat → Option Nat → Option Nat
  | none, y => y
  | x, none => x
  | some x, some y => some (op x y)

/-- A group's reduction through the tree of R118, for one element position (R252). -/
def groupReduce (op : Nat → Nat → Nat) (vs : List (Option Nat)) : Nat :=
  ((pairTree (combineOpt op) 4 vs).headD none).getD 0

/-- A reduction of each enabled lane group (R252). -/
def vreduce (op : EKind → Nat → Nat → Nat) (w : VForm) (s : State) : Out :=
  let k := ekind w.ty.toNat
  vec 6 w.ty.toNat [w.a]
    (fun s =>
      let en := s.enabled w.gm w.lm
      let v := vsrc w.ty.toNat w.a s
      let res : List Nat := (List.range 8).map (fun g => unelems k.width ((List.range (32 / k.width)).map (fun e =>
        groupReduce (op k) ((List.range 16).map (fun j =>
          if en.getLsbD (16 * g + j) then some (fld (v (16 * g + j)) (e * k.width) k.width) else none)))))
      fun j => res.getD (j / 16) 0) w s

def execVradd (w : VForm) (s : State) : Out := vreduce (arith FVal.add (fun a b => a + b)) w s
def execVrmax (w : VForm) (s : State) : Out := vreduce elemMax w s
def execVrmin (w : VForm) (s : State) : Out := vreduce elemMin w s

/-- The group number of XCP and XBC: the constant index of source B (R253). -/
def groupArg (w : VForm) : Nat := fld w.b.toNat 0 3

def execXcp (w : VForm) (s : State) : Out :=
  vec 6 w.ty.toNat [w.a] (fun s j => vsrc w.ty.toNat w.a s (16 * ((j / 16) ^^^ groupArg w) + j % 16)) w s
def execXbc (w : VForm) (s : State) : Out :=
  vec 6 w.ty.toNat [w.a] (fun s j => vsrc w.ty.toNat w.a s (16 * groupArg w + j % 16)) w s

/-- The accumulator type of a dot product (R254): F32 for floats, S32 and N32 for integers. -/
def dotAcc (ty : Nat) : Nat :=
  match ekind ty with
  | .flt _ => 0
  | .int f => if f.s then 5 else 6
  | _ => 12

/-- The dot product of a lane (R254): the exact sum of c and the products, rounded once, or modulo 2^32. -/
def dotLane (ty : Nat) (a b c : Nat) : Nat :=
  match ekind ty with
  | .flt f =>
    fp32.round .rne ((List.zip (elems f.width a) (elems f.width b)).foldl
      (fun acc p => acc.add ((f.value p.1).mul (f.value p.2))) (fp32.value c))
  | .int f =>
    (IFmt.mk 32 f.s).wrap ((List.zip (elems f.w a) (elems f.w b)).foldl
      (fun acc p => acc + f.value p.1 * f.value p.2) ((IFmt.mk 32 f.s).value c))
  | _ => 0

/-- VDOT2 and VDOT4 (R254). -/
def vdot (w : VForm) (s : State) : Out :=
  let acc := dotAcc w.ty.toNat
  vec 5 acc [w.a, w.b, w.c]
    (fun s j => dotLane w.ty.toNat (vsrc w.ty.toNat w.a s j) (vsrc w.ty.toNat w.b s j) (vsrc acc w.c s j)) w s

def execVdot2 (w : VForm) (s : State) : Out := vdot w s
def execVdot4 (w : VForm) (s : State) : Out := vdot w s

end Sys2Proof.Machine
end

