-- ==== Sys2Proof/Machine/Permute.lean ====
section
/-!
DEFINITION. The permute instructions (R228 to R238): conversions, packing, block scales, residues, shuffles, transposes,
reswizzles and lookup over whole queue slots named by streams.
-/
namespace Sys2Proof.Machine

/-- The elements of `w` bits of a slot, in byte order (R229). -/
def slotElems (w : Nat) (bs : List Byte) : List Nat :=
  match w with
  | 8 => bs.map (fun b => b.toNat)
  | 16 => go16 bs
  | _ => go32 bs
where
  go16 : List Byte → List Nat
    | a :: b :: r => (a.toNat + 256 * b.toNat) :: go16 r
    | _ => []
  go32 : List Byte → List Nat
    | a :: b :: c :: d :: r => leNat [a, b, c, d] :: go32 r
    | _ => []

/-- The bytes of elements of `w` bits. -/
def elemsBytes (w : Nat) (es : List Nat) : List Byte := es.flatMap (fun e => leBytes e (w / 8))

/-- One element converted between types (R112, R232): from and to are type codes. -/
def convElem (md : RMode) (tf tt : Nat) (v : Nat) : Nat :=
  if tf = tt then v
  else match ekind tf, ekind tt with
    | .flt f, .flt g => g.round md (f.value v)
    | .flt f, .int g => g.wrap ((f.value v).toInt md g.lo g.hi)
    | .int f, .flt g => g.round md (.ofInt (f.value v))
    | .int f, .int g => g.clamp (f.value v)
    | .int f, .res => resOf (f.value v)
    | .res, .int g => g.clamp (resSigned v)
    | .res, .flt g => g.round md (.ofInt (resSigned v))
    | _, _ => v

/-- The bytes that the group mask disables are zero, in every 512-byte block (R229). -/
def maskBytes (gm : BitVec 8) (bs : List Byte) : List Byte :=
  (List.zip (List.range bs.length) bs).map (fun p => if gm.getLsbD (p.1 % 512 / 64) then p.2 else 0)

/-- A permute source: its stream, its offset, whether it pops (R41). -/
structure PSrc where
  d : Nat
  k : Nat
  pop : Bool
  deriving DecidableEq, Repr

def psrcOf (sp : BitVec 10) : PSrc := ⟨fld sp.toNat 4 4, fld sp.toNat 1 3, sp.getLsbD 0⟩

/-- The bytes of a slot of a stream's queue. -/
def State.streamSlot (s : State) (d : Nat) : Nat := (s.queue (s.stream d).qn).slotBytes

/-- A named stream is enabled and binds a queue (R95, R228). -/
def streamOn (d : Nat) (s : State) : Except Stop State :=
  require ((s.stream d).en && (s.stream d).kind == 0) .format s

/-- The queue checks and the pop of a permute source. -/
def psrcIssue (p : PSrc) (s : State) : Except Stop State :=
  let q := (s.stream p.d).qn
  if p.pop then popSlots q (p.k + 1) s else needSlot q p.k s

/-- The fetch of a permute source (R93, R231). -/
def psrcRead (p : PSrc) (s : State) : Except Stop State := do
  let st := s.stream p.d
  let s ← readSlot st.qn p.k s
  tagCheck st p.k s

def psrcBytes (p : PSrc) (s : State) : List Byte := s.slotBytes (s.stream p.d).qn p.k

/-- The destination stream number. -/
def pdst (w : PForm) : Nat := fld w.dst.toNat 0 4

/-- What a permute instruction computes: its data slot, and the scale slot that PSCL appends beside it. -/
structure PResult where
  data : List Byte
  scales : Option (List Byte) := none

/-- A data slot alone. -/
def pdata (b : List Byte) : PResult := ⟨b, none⟩

/-- The course of a permute instruction (R228 to R231). `bt` is the type that source B's stream must declare where B is used, if any;
`size` the size rule; `legal` the limits on imm10 that depend on N, judged before the
FORMAT checks (R235; assumption 94); `res` the result from the bytes of A and B; `sc` tells that a scale slot is appended. -/
def permute (w : PForm) (useB : Bool) (bt : Option Nat) (swz : Bool) (size : State → Bool) (legal : State → Bool)
    (sc : Bool) (res : State → List Byte → List Byte → PResult) (s : State) : Out :=
  let a := psrcOf w.a
  let b := psrcOf w.b
  runSlot w.g
    (fun s => do
      let s ← require (legal s) .illegal s
      let s ← streamOn a.d s
      let s ← if useB then streamOn b.d s else .ok s
      let s ← streamOn (pdst w) s
      let s ← require ((s.stream a.d).fmt == w.tf.toNat && (s.stream (pdst w)).fmt == w.tt.toNat &&
        (!useB || bt.all (fun t => (s.stream b.d).fmt == t))) .format s
      let s ← require (swz || ((s.stream a.d).swz == 0 && (s.stream (pdst w)).swz == 0 &&
        (!useB || (s.stream b.d).swz == 0))) .format s
      let s ← require (size s) .format s
      let s ← psrcIssue a s
      let s ← if useB then psrcIssue b s else .ok s
      let s ← appendSlot (s.stream (pdst w)).qn s
      let s ← if sc then appendSlot (s.stream (pdst w)).sq s else .ok s
      .ok (if s.core.kBusy = 0 then s else s.hold .interlock))
    (fun s => do
      let s ← psrcRead a s
      let s ← if useB then psrcRead b s else .ok s
      let r := res s (psrcBytes a s) (if useB then psrcBytes b s else [])
      let dst := s.stream (pdst w)
      let blocks (q : Nat) : Nat := (s.queue q).ssz + 1
      let reads := blocks (s.stream a.d).qn + (if useB then blocks (s.stream b.d).qn else 0)
      let writes := blocks dst.qn + (if sc then blocks dst.sq else 0)
      let c := max reads writes
      let t := s.put (s.slotWrite dst.qn (tagByte dst.fmt dst.swz) (maskBytes w.gm r.data)) (3 + c)
      let t := match r.scales with
        | some e => t.put (s.scaleWrite dst.sq (tagByte 12 0) e) (3 + c)
        | none => t
      .ok (t.modMyCore (fun k => { k with kBusy := c }))) s

/-- The rounding mode of imm10[2:0] (R230). -/
def pmode (w : PForm) : RMode := RMode.ofCode (fld w.imm.toNat 0 3)

/-- dest_bytes = src_bytes × w_to / w_from (R232). -/
def convSize (w : PForm) (s : State) : Bool :=
  s.streamSlot (pdst w) * (ekind w.tf.toNat).width ==
    s.streamSlot (psrcOf w.a).d * (ekind w.tt.toNat).width

/-- PCVT, PRES and PCRT (R232). -/
def pconvert (w : PForm) (s : State) : Out :=
  permute w false none false (convSize w) (fun _ => true) false
    (fun _ a _ => pdata (elemsBytes (ekind w.tt.toNat).width
      ((slotElems (ekind w.tf.toNat).width a).map (convElem (pmode w) w.tf.toNat w.tt.toNat)))) s

def execPcvt (w : PForm) (s : State) : Out := pconvert w s
def execPres (w : PForm) (s : State) : Out := pconvert w s
def execPcrt (w : PForm) (s : State) : Out := pconvert w s

/-- Groups of `m` elements of two lists taken in turn, `n` times (R233). -/
def interleave (m : Nat) : Nat → List Nat → List Nat → List Nat
  | 0, _, _ => []
  | n + 1, a, b => a.take m ++ b.take m ++ interleave m n (a.drop m) (b.drop m)

/-- PPACK (R233). -/
def execPpack (w : PForm) (s : State) : Out :=
  permute w true (some w.tf.toNat) false
    (fun s => s.streamSlot (psrcOf w.a).d == s.streamSlot (pdst w) && s.streamSlot (psrcOf w.b).d == s.streamSlot (pdst w))
    (fun _ => true) false
    (fun _ a b =>
      let wf := (ekind w.tf.toNat).width
      let c := convElem (pmode w) w.tf.toNat w.tt.toNat
      pdata (elemsBytes (ekind w.tt.toNat).width
          (interleave (32 / wf) (a.length / 4) ((slotElems wf a).map c) ((slotElems wf b).map c)))) s

/-- The elements of one half of each word (R233). -/
def halves (m half : Nat) : Nat → List Nat → List Nat
  | 0, _ => []
  | n + 1, l => ((l.drop (half * m)).take m) ++ halves m half n (l.drop (2 * m))

/-- PUNPK (R233). -/
def execPunpk (w : PForm) (s : State) : Out :=
  permute w false none false (fun s => s.streamSlot (psrcOf w.a).d == s.streamSlot (pdst w)) (fun _ => true) false
    (fun _ a _ =>
      let wt := (ekind w.tt.toNat).width
      pdata (elemsBytes wt ((halves (32 / wt) (w.imm.toNat % 2) (a.length / 4)
          (slotElems (ekind w.tf.toNat).width a)).map (convElem .rne w.tf.toNat w.tt.toNat)))) s

/-- An element under an E8M0 scale exponent, or NaN under scale 0xFF (R100, R114, R234). -/
def scaled (up : Bool) (e : Nat) (v : FVal) : FVal :=
  if e = 255 then .nan else v.scale (if up then (e : Int) - 127 else 127 - (e : Int))

/-- The computed scale of a block of 32 elements (R234). -/
def blockScale (emax : Int) (vs : List FVal) : Nat :=
  if vs.any (fun v => match v with | .inf _ => true | _ => false) then 255
  else
    let amax := vs.foldl (fun m v => match v with | .fin _ k e => if m.lt (.fin false k e) then .fin false k e else m | _ => m)
      (FVal.fin false 0 0)
    match amax with
    | .fin _ m e => if m = 0 then 127 else (Max.max 0 (Min.min 254 ((Nat.log2 m : Int) + e - emax + 127))).toNat
    | _ => 127

/-- Consecutive blocks of 32 elements, `n` of them. -/
def blocks32 {α : Type} : Nat → List α → List (List α)
  | 0, _ => []
  | n + 1, l => l.take 32 :: blocks32 n (l.drop 32)

/-- The floating format of a type code. -/
def fltOf (ty : Nat) : FFmt := match ekind ty with | .flt f => f | _ => fp32

/-- The bytes needed for one scale byte for each 32 elements of a slot. -/
def scaleBytes (w : PForm) (s : State) : Nat :=
  (s.streamSlot (psrcOf w.a).d * 8 / (ekind w.tf.toNat).width + 31) / 32

/-- Elements under the scales of their blocks, rounded to the target (R234). -/
def applyScales (md : RMode) (up : Bool) (tf tt : Nat) (es : List Nat) (sc : List Nat) : List Nat :=
  (List.zip (List.range es.length) es).map (fun p =>
    (fltOf tt).round md (scaled up (sc.getD (p.1 / 32) 0) ((fltOf tf).value p.2)))

/-- PSCL (R234). With computed scales a destination stream of SCEN = 0 traps FORMAT with the size rule (assumption 95). -/
def execPscl (w : PForm) (s : State) : Out :=
  let auto := w.imm.getLsbD 3
  let dst := pdst w
  permute w (!auto) (some 12) false
    (fun s => convSize w s &&
      (if auto then (s.stream dst).scen && decide (scaleBytes w s ≤ (s.queue (s.stream dst).sq).slotBytes)
       else decide (scaleBytes w s ≤ s.streamSlot (psrcOf w.b).d)))
    (fun _ => true) auto
    (fun s a b =>
      let es := slotElems (ekind w.tf.toNat).width a
      let n := (es.length + 31) / 32
      let sc : List Nat := if auto then
          (blocks32 n es).map (fun bl => blockScale (if w.tt.toNat = 3 then 8 else 15) (bl.map (fltOf w.tf.toNat).value))
        else b.map (fun x => x.toNat)
      let q := (s.queue (s.stream dst).sq).slotBytes
      ⟨elemsBytes 8 (applyScales (pmode w) false w.tf.toNat w.tt.toNat es sc),
        if auto then some ((sc.map (fun e => BitVec.ofNat 8 e) ++ List.replicate q (0 : Byte)).take q) else none⟩) s

/-- PDSCL (R234). -/
def execPdscl (w : PForm) (s : State) : Out :=
  permute w true (some 12) false
    (fun s => convSize w s && decide (scaleBytes w s ≤ s.streamSlot (psrcOf w.b).d))
    (fun _ => true) false
    (fun _ a b =>
      pdata (elemsBytes (ekind w.tt.toNat).width
          (applyScales (pmode w) true w.tf.toNat w.tt.toNat (slotElems (ekind w.tf.toNat).width a) (b.map (fun x => x.toNat))))) s

/-- The pattern and parameter of PSHUF (R230). -/
def shufPat (w : PForm) : Nat := fld w.imm.toNat 7 3
def shufP (w : PForm) : Nat := fld w.imm.toNat 0 7

/-- PSHUF uses source B in patterns 2 to 5 and 7 (R235). -/
def shufUsesB (w : PForm) : Bool := decide (2 ≤ shufPat w) && shufPat w != 6

/-- Element i of a PSHUF result (R235). -/
def shufElem (pat p n : Nat) (a b : List Nat) (i : Nat) : Nat :=
  let ab (j : Nat) : Nat := if j < n then a.getD j 0 else b.getD (j - n) 0
  match pat with
  | 0 => a.getD ((i + p) % n) 0
  | 1 => a.getD (i ^^^ (2 ^ p - 1)) 0
  | 2 => if i % 2 = 0 then a.getD (i / 2) 0 else b.getD ((i - 1) / 2) 0
  | 3 => if i % 2 = 0 then a.getD (i / 2 + n / 2) 0 else b.getD ((i - 1) / 2 + n / 2) 0
  | 4 => ab (2 * i)
  | 5 => ab (2 * i + 1)
  | 6 => a.getD p 0
  | _ => a.getD (b.getD i 0 % n) 0

/-- PSHUF (R235): no type is asked of source B's stream. -/
def execPshuf (w : PForm) (s : State) : Out :=
  let wd := (ekind w.tf.toNat).width
  let ub := shufUsesB w
  permute w ub none false
    (fun s => s.streamSlot (psrcOf w.a).d == s.streamSlot (pdst w) &&
      (!ub || s.streamSlot (psrcOf w.b).d == s.streamSlot (pdst w)))
    (fun s =>
      let n := s.streamSlot (psrcOf w.a).d * 8 / wd
      match shufPat w with
      | 1 => n % 2 ^ shufP w == 0
      | 6 => decide (shufP w < n)
      | _ => true) false
    (fun _ a b =>
      let ea := slotElems wd a
      let eb := slotElems wd b
      let n := ea.length
      pdata (elemsBytes wd ((List.range n).map (shufElem (shufPat w) (shufP w) n ea eb)))) s

/-- PTRN (R236): element (i, j) moves from index i·c + j to j·r + i. -/
def execPtrn (w : PForm) (s : State) : Out :=
  let wd := (ekind w.tf.toNat).width
  permute w false none false
    (fun s =>
      let a := s.stream (psrcOf w.a).d
      let d := s.stream (pdst w)
      a.rows * a.cols * (wd / 8) == s.streamSlot (psrcOf w.a).d && s.streamSlot (psrcOf w.a).d == s.streamSlot (pdst w) &&
        d.rows == a.cols && d.cols == a.rows)
    (fun _ => true) false
    (fun s a _ =>
      let st := s.stream (psrcOf w.a).d
      let ea := slotElems wd a
      pdata (elemsBytes wd ((List.range ea.length).map (fun x => ea.getD (x % st.rows * st.cols + x / st.rows) 0)))) s

/-- The stored offset of an identity offset under swizzle z (R237). -/
def swz (z o : Nat) : Nat :=
  let b := o / 512
  let sp := fld o 6 3
  let u := fld o 4 2
  let s2 := sp ^^^ (b % 8 &&& z % 8)
  let u2 := if z.testBit 3 then u ^^^ (sp % 4) else u
  512 * b + 64 * s2 + 16 * u2 + o % 16

/-- PSWZ (R237): every identity offset o of A's layout is written at its stored offset of the destination's layout. Both
layouts are permutations, so the byte at destination offset x comes from the one identity offset stored there. -/
def execPswz (w : PForm) (s : State) : Out :=
  permute w false none true (fun s => s.streamSlot (psrcOf w.a).d == s.streamSlot (pdst w)) (fun _ => true) false
    (fun s a _ =>
      let zs := (s.stream (psrcOf w.a).d).swz
      let zd := (s.stream (pdst w)).swz
      pdata ((List.range a.length).map (fun x =>
          match (List.range 512).find? (fun o => swz zd (x / 512 * 512 + o) == x) with
          | some o => a.getD (swz zs (x / 512 * 512 + o)) 0
          | none => 0))) s

/-- PLUT (R238). -/
def execPlut (w : PForm) (s : State) : Out :=
  let len := w.imm.toNat + 1
  let wi := (ekind w.tf.toNat).width
  let wt := (ekind w.tt.toNat).width
  permute w true (some w.tt.toNat) false
    (fun s => decide (len ≤ s.streamSlot (psrcOf w.b).d * 8 / wt) &&
      s.streamSlot (pdst w) == s.streamSlot (psrcOf w.a).d * 8 / wi * (wt / 8))
    (fun _ => true) false
    (fun _ a b =>
      let tb := slotElems wt b
      pdata (elemsBytes wt ((slotElems wi a).map (fun i => if i < len then tb.getD i 0 else 0)))) s

end Sys2Proof.Machine
end

