-- ==== Sys2Proof/Machine/Control.lean ====
section
/-!
DEFINITION. Control transfer, hardware loops, the commit signature, phases, TRAP and ERET (R195 to R203, R211, R212, R217,
R219). A transfer or loop action is collected in the bundle and applied as it ends; the next bundle sees it.
-/
namespace Sys2Proof.Machine

/-- The segment part of a code address: bits [63:9] (R26). -/
def segOf (pc : Word) : Nat := pc.toNat / 512

/-- The bundle index of a code address: bits [8:0] (R26). -/
def idxOf (pc : Word) : Nat := pc.toNat % 512

/-- A code address from its segment and index (R26). -/
def codeAddr (seg idx : Nat) : Word := BitVec.ofNat 64 (seg * 512 + idx)

/-- The segment that a loop-buffer half holds (R29). -/
def Ctx.segment (x : Ctx) (seg : Nat) : Option Segment := x.buf.find? (fun h => h.addr == seg)

/-- The segment `disp` units of 64 bytes from segment `seg` (R26). -/
def segPlus (seg : Nat) (disp : Int) : Nat := (((seg : Int) + disp) % 2 ^ 55).toNat

/-- The code address that follows `pc` without a transfer: the next index, or bundle 0 of the successor after bundle LASTB; with
no successor, or behind an index above LASTB, the next index, which traps when control reaches it (R29, R30, R195, R198). -/
def Ctx.follow (x : Ctx) (pc : Word) : Word :=
  match x.segment (segOf pc) with
  | some g => if idxOf pc + 1 = g.bundles.length ∧ g.next ≠ 0 then codeAddr (segPlus g.addr g.next) 0 else pc + 1
  | none => pc + 1

/-- Control that goes on behind `pc` passes the last index a segment can have (R30): the nine index bits of a code address do not hold
the index 512 (R26). -/
def Ctx.passes (x : Ctx) (pc : Word) : Bool := decide (idxOf pc = 511) && x.follow pc == pc + 1

/-- The bundle at the issuing context's program counter, where its segment is expanded and holds it (R29). -/
def State.nextBun (s : State) (done : Nat) : Bun :=
  match s.me.segment (segOf s.me.pc) with
  | some g => match g.bundles[idxOf s.me.pc]? with
    | some b => if g.left = 0 ∧ !s.me.past then { bundle := b, done := done, start := s.seq } else { void := true, done := done, start := s.seq }
    | none => { void := true, done := done, start := s.seq }
  | none => { void := true, done := done, start := s.seq }

/-- The bundle in progress before any of its slots performs: the one that the replay buffer holds, else the one at the issuing
context's program counter (R29, R210). -/
def State.loadBun (s : State) : State :=
  let held := match s.core.replay with | some r => some r | none => s.me.replay
  s.modBun (fun _ =>
    if s.inService then s.nextBun 0
    else match held with
    | some r =>
      if r.void then s.nextBun r.done
      else { bundle := r.bundle, latch := r.latch, done := r.done, pre := r.apps, issued := r.issued, ctl := r.ctl,
             acts := r.acts, start := s.seq, fixed := r.pops }
    | none => s.nextBun 0)

/-- The bundle of the issuing context's program counter is the END of its innermost loop (R200). -/
def State.atLoopEnd (s : State) : Bool :=
  match s.me.loops with
  | l :: _ => segOf l.start == segOf s.me.pc && l.endIdx == idxOf s.me.pc
  | [] => false

/-- A transfer or loop instruction must not stand in the END bundle of the top level (R200). -/
def notLoopEnd (s : State) : Except Stop State := require (!s.atLoopEnd) .illegal s

/-- The bundle takes control action `c` as it ends. -/
def State.setCtl (c : Ctl) (s : State) : State := s.modBun (fun b => { b with ctl := some c })

/-- The state of a context in its gang, where it is a member (R316). -/
def State.memberState (s : State) (x : Ctx) : Option GState :=
  match s.gangOf x with
  | some g => g.states[x.bind.member]?
  | none => none

/-- The issuing task context is in state BROADCAST (R320). -/
def State.inBroadcast (s : State) : Bool := !s.inService && s.memberState s.me == some .broadcast

/-- An instruction that traps GANG in BROADCAST (R320). -/
def notBroadcast (s : State) : Except Stop State := require (!s.inBroadcast) .gang s

/-- A transfer to a register or a call: never the END of the top level (R200), never in BROADCAST (R320). -/
def notEndNorBroadcast (s : State) : Except Stop State := do
  let s ← notLoopEnd s
  notBroadcast s

/-- The target of forms B and BP (R195). -/
def State.target (s : State) (disp : Int) (idx : BitVec 9) : Word :=
  codeAddr (segPlus (segOf s.me.pc) disp) idx.toNat

/-- The displacement of form B, extended by LIT (R37). -/
def State.dispB (s : State) (w : BForm) : Int :=
  match s.litFor with
  | some l => (l ++ w.disp).toInt
  | none => w.disp.toInt

/-- The displacement of form BP, extended by LIT (R37). -/
def State.dispBP (s : State) (w : BPForm) : Int :=
  match s.litFor with
  | some l => (l ++ w.disp).toInt
  | none => w.disp.toInt

def execBr (w : BForm) (s : State) : Out :=
  runSlot w.g notLoopEnd (fun s => .ok (s.setCtl (.go (s.target (s.dispB w) w.idx)))) s

def execBrp (w : BPForm) (s : State) : Out :=
  runSlot w.g notLoopEnd
    (fun s => .ok (if s.rd.preg w.p.toNat then s.setCtl (.go (s.target (s.dispBP w) w.idx)) else s)) s

def execBrnp (w : BPForm) (s : State) : Out :=
  runSlot w.g notLoopEnd
    (fun s => .ok (if s.rd.preg w.p.toNat then s else s.setCtl (.go (s.target (s.dispBP w) w.idx)))) s

/-- CALL (R195): S31 receives the return address after one cycle; the return stack, a hint, receives it too (R196). -/
def execCall (w : BForm) (s : State) : Out :=
  runSlot w.g notEndNorBroadcast
    (fun s => .ok (((s.put (.s 31 (s.me.follow s.me.pc)) 1).setCtl (.go (s.target (s.dispB w) w.idx))).modMe
      (fun x => { x with rstack := (x.follow x.pc :: x.rstack).take 4 }))) s

/-- RET and JMPS (R195). -/
def jumpReg (w : RForm) (s : State) : Out :=
  runSlot w.g notEndNorBroadcast
    (fun s => match readRegs [w.a.toNat] s with
      | .error e => .error e
      | .ok s => .ok ((s.setCtl (.go (s.sreg w.a))).modMe (fun x => { x with rstack := x.rstack.drop 1 }))) s

def execRet (w : RForm) (s : State) : Out := jumpReg w s
def execJmps (w : RForm) (s : State) : Out := jumpReg w s

/-- What a loop instruction computes: its iteration count, first index and step, and stage count; none is LOOP_STEP (R199). -/
structure LoopPlan where
  n : Nat
  x0 : Word
  step : BitVec 32
  stg : Nat

/-- The count of LOOPX in exact arithmetic (R199); none where the step is zero. -/
def loopxCount (start bound step : Int) : Option Nat :=
  if step = 0 then none
  else
    let d := bound - start
    if step > 0 then some (if d ≤ 0 then 0 else ((d + step - 1) / step).toNat)
    else some (if d ≥ 0 then 0 else ((-d - step - 1) / (-step)).toNat)

/-- The checks and the effect of a loop instruction (R198). -/
def loopRun (w : JForm) (plan : State → Option LoopPlan) (rs : List Nat) (s : State) : Out :=
  runSlot w.g
    (fun s => do
      let s ← notLoopEnd s
      let s ← require (s.me.loops.length < 6) .illegal s
      let s ← require (!s.me.loops.any (fun l => l.xn == w.x.toNat)) .illegal s
      let s ← require (!s.me.loops.any (fun l => segOf l.start == segOf s.me.pc && decide (l.endIdx < w.e.toNat))) .illegal s
      require (plan s).isSome .loopStep s)
    (fun s => match readRegs rs s with
      | .error e => .error e
      | .ok s =>
        match plan s with
        | none => .ok s
        | some p =>
          if p.n = 0 then .ok (s.setCtl (.skip w.e.toNat))
          else .ok (s.setCtl (.push { rem := p.n - 1, start := s.me.pc + 1, endIdx := w.e.toNat, xn := w.x.toNat, stg := p.stg,
                                      step := p.step, after := some (s.me.follow (codeAddr (segOf s.me.pc) w.e.toNat)) } p.x0))) s

/-- LOOP (R199). -/
def execLoop (w : JForm) (s : State) : Out :=
  let c := fld w.c.toNat 0 5
  loopRun w (fun s =>
    let v := (s.rd.sreg c).toNat
    if v < 4294967296 then some ⟨v, 0, 1, 0⟩ else none) [c] s

/-- LOOPI (R199). -/
def execLoopi (w : JForm) (s : State) : Out := loopRun w (fun _ => some ⟨w.c.toNat, 0, 1, 0⟩) [] s

/-- LOOPX (R199). -/
def execLoopx (w : JForm) (s : State) : Out :=
  let c := fld w.c.toNat 0 5
  loopRun w (fun s =>
    let v (i : Nat) : BitVec 32 := (s.rd.sreg (c + i)).setWidth 32
    match loopxCount (v 0).toInt (v 1).toInt (v 2).toInt with
    | some n => some ⟨n, (v 0).signExtend 64, v 2, 0⟩
    | none => none) [c, c + 1, c + 2] s

/-- MLOOP (R199, R203). -/
def execMloop (w : JForm) (s : State) : Out :=
  let c := fld w.c.toNat 0 5
  let st := fld w.c.toNat 5 4
  loopRun w (fun s =>
    let v := (s.rd.sreg c).toNat
    if v = 0 then some ⟨0, 0, 1, st⟩
    else if v < 4294967296 then some ⟨v + st - 1, 0, 1, st⟩ else none) [c] s

/-- LBRK (R201). -/
def execLbrk (w : RForm) (s : State) : Out :=
  runSlot w.g (fun s => require (!s.me.loops.isEmpty) .illegal s) (fun s => .ok (s.setCtl .brk)) s

/-- GETX (R202). -/
def execGetx (w : RForm) (s : State) : Out :=
  runPure w.g (fun s => s.put (.s w.d.toNat (s.rd.xreg w.a.toNat)) 1) s

/-- One byte of CRC-32C, reflected (R25, R217): eight steps. -/
def crcBits : Nat → Nat → Nat
  | 0, c => c
  | n + 1, c => crcBits n (if c % 2 = 1 then (c / 2) ^^^ 0x82F63B78 else c / 2)

/-- CRC-32C over bytes from a running value, without the initial value and final inversion. -/
def crcBytes (c : Nat) : List Byte → Nat
  | [] => c
  | b :: r => crcBytes (crcBits 8 (c ^^^ b.toNat)) r

/-- The signature after the bundle at a code address (R217). -/
def sigStep (sg : BitVec 32) (addr : Word) : BitVec 32 := BitVec.ofNat 32 (crcBytes sg.toNat (leBytes addr.toNat 8))

/-- CHKSIG (R217): a mismatch traps SIG at issue; on a match the signature restarts, and its own bundle updates it as it ends. -/
def execChksig (w : RForm) (s : State) : Out :=
  runSlot w.g
    (fun s => require ((s.sreg w.a).setWidth 32 == s.me.sig ^^^ 0xFFFFFFFF) .sig s)
    (fun s => match readRegs [w.a.toNat] s with
      | .error e => .error e
      | .ok s => .ok (s.modMe (fun x => { x with sig := 0xFFFFFFFF }))) s

/-- The bundle is a stop point (R57): its STOP is set and, inside the body of a loop, at whatever depth, it is that loop's end
bundle. -/
def State.isStopPoint (s : State) : Bool :=
  s.bun.bundle.stop &&
    s.me.loops.all (fun l => !(segOf l.start == segOf s.me.pc && decide (idxOf l.start ≤ idxOf s.me.pc) &&
                   decide (idxOf s.me.pc < l.endIdx)))

/-- PHASE (R219): commits the ending phase; the snapshot follows in PHASE_SNAPSHOT. A length from a register that is 0 or above 3,072 traps
ILLEGAL (assumption 93). -/
def execPhase (w : RForm) (s : State) : Out :=
  runSlot w.g
    (fun s => do
      let b := s.me.bind
      let o := (s.sreg w.a).toNat
      let n := (s.opB w).toNat
      let s ← require b.phaseBound .illegal s
      let s ← require (b.gang.isNone || s.inBroadcast) .gang s
      let s ← require (decide (1 ≤ n) && decide (n ≤ 3072)) .illegal s
      let s ← require (decide (o + 512 * n ≤ b.spanBytes) &&
        (decide (o + 512 * n ≤ b.snap) || decide (b.snap + 37888 ≤ o))) .illegal s
      let s ← require s.isStopPoint .illegal s
      require (o % 512 == 0) .align s)
    (fun s => match readRegs (rReads w) s with
      | .error e => .error e
      | .ok s => .ok (s.setCtl (.phase (s.sreg w.a).toNat (s.opB w).toNat))) s

/-- TRAP (R211): the other slots perform; the cause is taken with CAUSE 31, SLOT 0 and the code as DETAIL. -/
def execTrap (w : RForm) (s : State) : Out :=
  runPure w.g (fun s =>
    let code := if w.i = 0 then (s.sreg (w.b.extractLsb' 0 5)).toNat % 1024 else w.b.toNat
    s.raise .trap 0 code false) s

/-- YIELD (R15, R345). -/
def execYield (w : RForm) (s : State) : Out :=
  runSlot w.g
    (fun s => do
      let s ← require (!s.inService && s.isStopPoint) .illegal s
      notBroadcast s)
    (fun s => .ok (s.setCtl .yield)) s

/-- The appends of the slots that a SKIP leaves unperformed, consumed in place: their slots become present, zero, tagged as QZAP
tags (R212). -/
def skipWrites (done : Nat) (x : Ctx) (apps : List (Nat × Nat × Nat)) : List Write :=
  (apps.filter (fun e => !done.testBit e.1)).map (fun e =>
    let d := x.queue e.2.1
    let z := List.replicate d.slotBytes (0 : Byte)
    match d.mode with
    | .spliceOut => .remote d.partner e.2.1 e.2.2 tagAny z
    | _ => .slot e.2.1 e.2.2 tagAny z)

/-- The kinds of ERET (R212). -/
inductive Eret where
  | resume | skip | esc
  deriving DecidableEq, Repr

/-- The writes that an interrupt drained into the shadow result buffer are replayed at their offsets (R60). -/
def Ctx.unshadow (x : Ctx) : Ctx := { x with pend := x.shadow ++ x.pend, shadow := [] }

/-- Every performed bit of a core's replay buffer set for context `k`, with the appends of its unperformed slots consumed in place
(R212). -/
def Core.skipHeld (c : Core) (k : Nat) : Core :=
  match c.replay with
  | some r =>
    { (c.modCtx k (fun x => { x with atStop := false, pend := x.pend ++ (skipWrites r.done x r.apps).map (fun w => ({ due := 1, slot := 9, w := w } : Pend)) })) with
      replay := some { r with done := 1023 } }
  | none => c

/-- ERET on the core of the held context (R212). RESUME makes it RUNNING with its replay buffer to be reissued. SKIP sets every
performed bit, so that the replay buffer's bundle ends without performing anything more. ESC starts the escalation of R213. -/
def eretRun (e : Eret) (c : Core) : Core :=
  match c.held with
  | none => c
  | some k =>
    let c := { (c.modCtx k Ctx.unshadow) with held := none, freeze := c.freeze.filter (fun f => !(f == Freeze.fault)) }
    match e with
    | .resume => { c.modCtx k (fun x => { x with status := .running }) with running := some k }
    | .skip => { (c.skipHeld k).modCtx k (fun x => { x with status := .running }) with running := some k }
    | .esc => c.escalate k

/-- ERET on the core of another member of the gang, whose context is `k` (R325): RESUME leaves it as it is, with a cause of its own
still to be serviced; SKIP and ESC act on it too. -/
def eretOther (e : Eret) (k : Nat) (c : Core) : Core :=
  match e with
  | .resume => c
  | .skip =>
    let d := if c.svcTimer.isSome then
        { (c.modCtx k (fun x => { x with status := .running })) with svcTimer := none, freeze := c.freeze.filter (fun f => !(f == Freeze.fault)) }
      else c
    d.skipHeld k
  | .esc => c.escalateWith k

/-- ERET as the held context's cause allows it: RESUME and SKIP after a residue SIG act as ESC (R212). -/
def State.eretAll (e : Eret) (s : State) : State :=
  match s.core.held with
  | none => s
  | some k =>
    let x := s.ctxAt s.cur k
    let e := if x.cause.res then Eret.esc else e
    let others : List (Nat × Nat) := match s.gangOf x with
      | some g => if g.started then g.members.filter (fun m => m.1 != s.cur) else []
      | none => []
    others.foldl (fun (t : State) (m : Nat × Nat) => t.modCore m.1 (eretOther e m.2)) (s.modMyCore (eretRun e))

/-- ERET outside the service context traps PRIV (R212). -/
def eret (e : Eret) (w : RForm) (s : State) : Out :=
  runSlot w.g (fun s => require s.inService .priv s) (fun s => .ok (s.eretAll e)) s

def execEretResume (w : RForm) (s : State) : Out := eret .resume w s
def execEretSkip (w : RForm) (s : State) : Out := eret .skip w s
def execEretEsc (w : RForm) (s : State) : Out := eret .esc w s

end Sys2Proof.Machine
end

