-- ==== Sys2Proof/Machine/Access.lean ====
section
/-!
DEFINITION. How an access is checked and issued: effective addresses and their classes (R120, R121), translation (R122 to R126),
rights (R125, R165), the phase rules (R220), the outstanding-request limit (R8), and the landing buffer (R129, R130).
-/
namespace Sys2Proof.Machine

/-- The effective address of a memory word (R120). -/
def State.ea (s : State) (m : MForm) : Nat := (s.sreg m.base + s.sreg m.idx + m.disp.signExtend 64).toNat

/-- The address of a word whose index field takes no part (R167, R181). -/
def State.eaNoIdx (s : State) (m : MForm) : Nat := (s.sreg m.base + m.disp.signExtend 64).toNat

/-- What a physical address names (R121). Addresses of another package carry its number in bits [51:42]. -/
inductive Target where
  | hbm (die : Nat)
  | chip (die : Nat)
  | scratch (core : Nat)
  | hub
  | other (pkg : Nat)
  | nothing
  deriving DecidableEq, Repr

/-- The target of a physical address (R121), in the form under which memory holds it: `State.key`. -/
def State.targetOf (_ : State) (pa : Nat) : Target :=
  let a := pa % 0x40000000000
  if 0x40000000000 ≤ pa then (if a < 0x8000000000 then .other (pa / 0x40000000000 % 1024) else .nothing)
  else if a < 0x8000000000 then .hbm (fld a 37 2)
  else if 0x10000000000 ≤ a ∧ a < 0x10400000000 then
    (if a % 0x100000000 < 0x3000000 then .chip ((a - 0x10000000000) / 0x100000000) else .nothing)
  else if 0x20000000000 ≤ a ∧ a < scratchPA 384 then
    (if a % 0x200000 < 0x180000 then .scratch ((a - 0x20000000000) / 0x200000) else .nothing)
  else if 0x30000000000 ≤ a then .hub
  else .nothing

/-- The key under which memory holds a physical address: addresses of this package without their package number. -/
def State.key (s : State) (pa : Nat) : Nat :=
  if pa / 0x40000000000 % 1024 = s.pkgid then pa % 0x40000000000 else 0x10000000000000 + pa % 0x10000000000000

/-- The package and die of a home: 0 to 3 compute dies, 4 the hub, 5 another package (R128). -/
def State.homeDie (s : State) (pa : Nat) : Nat :=
  match s.targetOf pa with
  | .hbm d => d
  | .chip d => d
  | .scratch c => c / 96
  | .hub => 4
  | _ => 5

/-- One translated piece of an access: its physical key, its length, its page's W and NC, whether it lies in the local window, and its
effective address. -/
structure Piece where
  pa : Nat
  len : Nat
  w : Bool
  nc : Bool
  win : Bool
  va : Nat
  deriving DecidableEq, Repr

/-- The outcome of translating an address range. -/
inductive Resolved where
  | pieces (l : List Piece)
  | trap (c : Cause)
  | miss (va : Nat)
  deriving DecidableEq, Repr

/-- The translation entry of a virtual address in a core's cache, or among those that the held bundle has already found (R126). -/
def Core.tlbFind (c : Core) (asn : BitVec 16) (va : Nat) : Option TlbEntry :=
  (c.tlb ++ c.kept).find? (fun e => e.asn == asn && decide (e.va ≤ va) && decide (va < e.va + e.bytes))

/-- A walk of this page has failed (R124). -/
def Core.walkFailed (c : Core) (asn : BitVec 16) (va : Nat) : Bool :=
  c.walks.any (fun w => w.failed && w.asn == asn && w.va / 4096 == va / 4096)

/-- A physical address names a target that core `c` may reach through a page (R121, R124, R399). -/
def State.reaches (s : State) (c pa : Nat) : Bool :=
  match s.targetOf (s.key pa) with
  | .hbm _ => true
  | .chip _ => true
  | .scratch k => k != c && k / 4 == c / 4
  | .hub => s.key pa / 4096 == 0x30000130000 / 4096
  | .other _ => true
  | .nothing => false

/-- Translation of a virtual range, page by page; `fuel` bounds the pages (R120, R122, R124). -/
def State.resolveVA (s : State) (write : Bool) : Nat → Nat → Nat → List Piece → Resolved
  | 0, _, _, acc => .pieces acc
  | f + 1, va, n, acc =>
    if n = 0 then .pieces acc
    else
      let asn := s.data.bind.asn
      match s.core.tlbFind asn va with
      | none => if s.core.walkFailed asn va then .trap .xlate else .miss va
      | some e =>
        if write && !e.w then .trap .xlate
        else if !s.reaches s.cur (e.pa + (va - e.va)) then .trap .xlate
        else
          let len := min n (4096 - va % 4096)
          s.resolveVA write f (va + len) (n - len)
            (acc ++ [⟨s.key (e.pa + (va - e.va)), len, e.w, e.nc, false, va⟩])

/-- Translation of an access of `n` bytes at effective address `a` (R120). -/
def State.resolve (s : State) (write : Bool) (a n : Nat) : Resolved :=
  if a < 0x200000 then
    (if a + n ≤ s.data.bind.spanBytes ∧ a + n ≤ 0x180000 then .pieces [⟨spanPA s.cur s.data a, n, true, true, true, a⟩]
     else .trap .xlate)
  else if a + n > 0x1000000000000 then .trap .xlate
  else s.resolveVA write (n / 4096 + 2) a n []

/-- The kinds of access that R165 tells apart. -/
inductive RKind where
  | load | bypass | store | atom
  deriving DecidableEq, Repr

/-- The package number of a party word (R160). -/
def partyPkg (p : Word) : Nat := fld p.toNat 24 10

/-- The bytes of a region. -/
def Region.bytes (r : Region) : Nat := 2 ^ (12 + r.sz)

/-- The region that covers a physical address (R162). -/
def Ownership.regionAt (o : Ownership) (pa : Nat) : Option Region :=
  (o.regions.find? (fun e => decide (e.2.base ≤ pa) && decide (pa < e.2.base + e.2.bytes))).map (fun e => e.2)

/-- The party holds a share of the region at `base` (R162). -/
def Ownership.sharer (o : Ownership) (base : Nat) (p : Word) : Bool := o.shares.contains (base, p)

/-- The cause that an access by party `p` to a region meets, or none where it has the right (R125, R165). -/
def State.rightsOn (s : State) (k : RKind) (p : Word) (pa : Nat) (r : Region) : Option Cause :=
  let own := r.owner == p
  let shr := s.own.sharer r.base p
  match r.st with
  | .poison => some .poison
  | .orphan => some .ownNone
  | .held =>
    if r.atomic then
      if partyPkg p ≠ (if pa < 0x10000000000000 then s.pkgid else pa / 0x40000000000 % 1024) then some .ownNone
      else match k with
        | .load => some .ownMode
        | .store => some .ownMode
        | _ => none
    else if r.shares = 0 then (if own then none else some .ownNone)
    else match k with
      | .store => some (if own || shr then .ownShared else .ownNone)
      | .atom => some (if own || shr then .ownShared else .ownNone)
      | _ => if own || shr then none else some .ownNone

/-- The cause of an access to a physical address of a writable page (R161, R165). -/
def State.rights (s : State) (k : RKind) (p : Word) (pa : Nat) : Option Cause :=
  match s.own.regionAt pa with
  | none => some .ownNone
  | some r => s.rightsOn k p pa r

/-- The first cause among the pieces of an access, ownership before POISON (R134). -/
def State.pieceCause (s : State) (k : RKind) (ps : List Piece) : Option Cause :=
  let cs := ps.filterMap (fun p => if p.win || !p.w then none else s.rights k s.data.bind.party p.pa)
  match cs.find? (fun c => !(c == Cause.poison)) with
  | some c => some c
  | none => cs.head?

/-- Two lists of ranges overlap. -/
def overlap (a b : List (Nat × Nat)) : Bool :=
  a.any (fun x => b.any (fun y => decide (x.1 < y.1 + y.2) && decide (y.1 < x.1 + x.2)))

/-- A host command is withdrawing rights to part of a list of ranges (R164, R402). -/
def State.hostWithdraws (s : State) (ps : List (Nat × Nat)) : Bool := s.hosts.any (fun h => overlap ps h.2.taken)

/-- A token request of the issuing party on a region of the access has not been answered, or rights to it are being withdrawn:
the lookup is behind that request, so the bundle waits for it (R162, R164, R170). -/
def State.tokenPending (s : State) (ps : List Piece) : Bool :=
  s.flight.any (fun e => decide (e.1 < s.bun.start) && match e.2.msg with
    | .token t => !t.answered && !t.op.reads && (t.self == s.data.bind.party || t.invSent) &&
        ps.any (fun p => !p.win && decide (t.base ≤ p.pa) && decide (p.pa < t.base + 2 ^ (12 + t.sz)))
    | _ => false) || s.hostWithdraws ((ps.filter (fun p => !p.win)).map (fun p => (p.pa, 1)))

/-- Cores forget that they reported a first write to a region: its DIRTY is clear again (R163). -/
def State.clearReports (s : State) (bases : List Nat) : State :=
  { s with cores := s.cores.map (fun e => (e.1, { e.2 with reported := e.2.reported.filter (fun b => !bases.contains b) })) }

/-- A region that the launch record creates is lent on demand to the task of the launch that accesses it (R333). -/
def State.lendOnDemand (s : State) (ps : List Piece) : State :=
  let b := s.data.bind
  ps.foldl (fun (t : State) p => match t.own.regionAt p.pa with
    | some r =>
      if !p.win && p.w && b.launch != 0 && r.owner == b.launch && r.st == .held && !r.atomic && r.chain.isEmpty && decide (r.shares = 0) then
        ({ t with own := { t.own with regions := t.own.regions.put r.base { r with owner := b.party, chain := [b.launch], dirty := false } } } :
          State).clearReports [r.base]
      else t
    | none => t) s

/-- The checks of R134 from ALIGN on, for `n` bytes at `a`; a missing translation holds the bundle (R126). -/
def checkAccess (k : RKind) (a n align : Nat) (s : State) : Except Stop State :=
  if a % align ≠ 0 then .error (.trap .align 0)
  else match s.resolve (k == .store || k == .atom) a n with
    | .trap c => .error (.trap c 0)
    | .miss va => .ok (s.hold (.walk va))
    | .pieces ps =>
      if s.tokenPending ps then .ok (s.hold (.freeze .late))
      else
        let s := s.lendOnDemand ps
        match s.pieceCause k ps with
        | some c => .error (.trap c 0)
        | none => .ok s

/-- The pieces of an access whose check has passed. -/
def State.piecesOf (s : State) (k : RKind) (a n : Nat) : List Piece :=
  match s.resolve (k == .store || k == .atom) a n with
  | .pieces ps => ps
  | _ => []

/-- The physical address of offset `o` of an access. -/
def paAt : List Piece → Nat → Nat
  | [], _ => 0
  | p :: r, o => if o < p.len then p.pa + o else paAt r (o - p.len)

/-- The piece that holds offset `o` of an access. -/
def pieceAt : List Piece → Nat → List Piece
  | [], _ => []
  | p :: r, o => if o < p.len then [p] else pieceAt r (o - p.len)

/-- The physical ranges of an access. -/
def ranges (ps : List Piece) : List (Nat × Nat) := ps.map (fun p => (p.pa, p.len))

/-- A write of some bytes in a piece of a store, at a physical address. -/
abbrev PWrite := Piece × Nat × List Byte

/-- The bytes of an access cut along its pieces. -/
def cutBytes : List Piece → List Byte → List PWrite
  | [], _ => []
  | p :: r, bs => (p, p.pa, bs.take p.len) :: cutBytes r (bs.drop p.len)

/-- A list cut into runs of elements that agree under a key. -/
def runsBy {α β : Type} [DecidableEq β] (k : α → β) : List α → List (List α)
  | [] => []
  | a :: r =>
    match runsBy k r with
    | (b :: t) :: g => if k a = k b then (a :: b :: t) :: g else [a] :: (b :: t) :: g
    | g => [a] :: g

/-- Memory with a list of (address, bytes) stored in order. -/
def storeAll (m : Memory) : List (Nat × List Byte) → Memory
  | [] => m
  | w :: r => storeAll (m.writeBytes w.1 w.2) r

/-- A load whose scope is DIE, PKG or POD bypasses L1 (R125); codes 1 to 5 are CORE to POD. -/
def bypasses (sc : BitVec 3) : Bool := decide (3 ≤ sc.toNat)

def loadKind (sc : BitVec 3) : RKind := if bypasses sc then .bypass else .load

/-- A piece of an access that may use L1 (R127): scope CORE or QUAD, on an HBM page of this package with NC = 0. -/
def State.caches (s : State) (sc : BitVec 3) (p : Piece) : Bool :=
  !bypasses sc && !p.nc && !p.win && (match s.targetOf p.pa with | .hbm _ => decide (p.pa < 0x8000000000) | _ => false)

/-- The ranges of an access that use L1. -/
def State.cachedOf (s : State) (sc : BitVec 3) (ps : List Piece) : List Cached :=
  ((ps.filter (s.caches sc)).map (fun p => (⟨p.pa, p.len, p.va⟩ : Cached))).eraseDups

/-- The ranges of an access whose pages have NC = 1 (R367). -/
def ncOf (ps : List Piece) : List (Nat × Nat) := (ranges (ps.filter (fun p => p.nc && !p.win))).eraseDups

/-- The range of an access that holds a physical address, where it uses L1. -/
def Acc.cachedAt (a : Acc) (pa : Nat) : Option Cached := a.cached.find? (fun k => decide (k.pa ≤ pa) && decide (pa < k.pa + k.len))

/-- A physical address of an access lies on a page with NC = 1. -/
def Acc.ncAt (a : Acc) (pa : Nat) : Bool := a.nc.any (fun k => decide (k.1 ≤ pa) && decide (pa < k.1 + k.2))

/-- The regions whose first write is still to be reported (R163). A store through the local window makes no ownership check and reports none
(assumption 88). -/
def State.toReport (s : State) (ps : List Piece) : List Nat :=
  (ps.filterMap (fun p => if p.win then none else (s.own.regionAt p.pa).map (fun r => r.base))).eraseDups.filter
    (fun b => !s.core.reported.contains b)

/-- The core records its reports, so that later writes to the regions are not held (R163). -/
def State.reporting (s : State) (bs : List Nat) : State :=
  if bs.isEmpty then s else s.modMyCore (fun c => { c with reported := bs ++ c.reported })

/-- The requests of a core that are outstanding (R8). -/
def State.outstanding (s : State) (c : Nat) : Nat :=
  (s.flight.filter (fun e => e.2.core == c && e.2.admitted &&
    (match e.2.msg with | .access _ => true | .token _ => true | _ => false))).length

/-- The bytes of a class (R182). -/
def atomBytes (cls : Nat) : Nat :=
  match cls with
  | 2 => 8 | 3 => 8 | 7 => 16 | _ => 4

/-- The byte ranges that an access touches. -/
def Acc.touched (a : Acc) : List (Nat × Nat) :=
  a.reads ++ a.writes.map (fun w => (w.1, w.2.length)) ++
    (match a.atom with | some t => t.elems.map (fun e => (e.1, atomBytes t.cls)) | none => [])

/-- The lines that a list of ranges touches. -/
def linesOf (rs : List (Nat × Nat)) : List Nat :=
  rs.flatMap (fun r => (List.range ((r.1 + r.2 + 127) / 128 - r.1 / 128)).map (fun i => r.1 / 128 + i))

/-- The share class of a context's requests; the service context has that of the context it serves (R394). -/
def State.shareClass (s : State) (c k : Nat) : Nat :=
  (s.ctxAt c (if k = 4 then (s.coreAt c).held.getD 4 else k)).bind.share

/-- The charge of some ranges at a core's port: their bytes outside the core's own scratchpad, rounded up to 64 (R395). -/
def State.chargeOf (s : State) (c : Nat) (rs : List (Nat × Nat)) : Nat :=
  ((rs.filter (fun r => s.targetOf r.1 != .scratch c)).foldl (fun n r => n + r.2) 0 + 63) / 64 * 64

/-- The charge of a message as it leaves its core (R395). A range whose lines are all in L1 does not leave it (DEDUCED). -/
def State.charge (s : State) (c : Nat) (m : Msg) : Nat :=
  match m with
  | .access a =>
    if a.lock.isSome then 64
    else s.chargeOf c (a.touched.filter (fun r => !((a.cachedAt r.1).isSome && (linesOf [r]).all (fun l => (Tab.find (s.coreAt c).l1 l).isSome))))
  | .token _ => 64
  | .append _ _ _ _ data _ => (data.length + 63) / 64 * 64
  | _ => 0

/-- A class of a core's port. -/
def State.portCls (s : State) (c cls : Nat) : PortCls := Tab.get {} (s.coreAt c).port cls

def State.setPortCls (s : State) (c cls : Nat) (p : PortCls) : State := s.modCore c (fun y => { y with port := y.port.put cls p })

/-- A class after it has admitted a request of `n` bytes, where its bucket admits it: the bucket holds the charge, or it is full and
the charge exceeds the allotment (R396). -/
def PortCls.take (p : PortCls) (n : Nat) : Option PortCls :=
  let q := { p with spent := p.spent + n, total := (p.total + n) % 2 ^ 64, active := true }
  if p.alloc = 0 then none
  else if n ≤ p.bucket then some { q with bucket := p.bucket - n }
  else if p.alloc < n ∧ p.alloc ≤ p.bucket then some { q with bucket := 0, debt := p.debt + (n - p.bucket) }
  else none

/-- The port of core `c` admits `n` bytes of a class, where it can. -/
def State.takePort (s : State) (c cls n : Nat) : Option State := ((s.portCls c cls).take n).map (fun p => s.setPortCls c cls p)

/-- The requests of a class that wait at a core's port (R396). -/
def State.portWaiting (s : State) (c cls : Nat) : Nat :=
  (s.flight.filter (fun e => e.2.core == c && e.2.cls == cls && !e.2.admitted)).length

/-- A request beyond the 1,024 outstanding requests, or beyond the 256 that wait at the port for its class, holds its memory slot
(R8, R20, R396). -/
def roomFor (s : State) : Except Stop State :=
  .ok (if s.outstanding s.cur < 1024 ∧ s.portWaiting s.cur (s.shareClass s.cur s.core.issuing) < 256 then s else s.hold (.freeze .requests))

/-- A register load needs `n` landing-buffer entries; without them its bundle takes an interlock hold (R130). -/
def landRoom (n : Nat) (s : State) : Except Stop State :=
  .ok (if s.me.land.length + n ≤ 32 then s else s.hold .interlock)

/-- An entry put in flight; its key is the next in program order. What the port charges waits there to be admitted (R395, R396). -/
def State.launchFlight (f : Flight) (s : State) : State :=
  let f := { f with cls := s.shareClass f.core f.ctx, admitted := s.charge f.core f.msg == 0, since := s.cycle }
  { s with flight := s.flight.put s.seq f, seq := s.seq + 1 }

/-- A message or access of the issuing context put in flight. -/
def State.send (m : Msg) (s : State) : State :=
  s.launchFlight { core := s.cur, ctx := s.core.issuing, addr := s.me.pc, msg := m }

/-- A message of the port domain of core `c` put in flight (R18). -/
def State.post (c k : Nat) (m : Msg) (s : State) : State :=
  s.launchFlight { core := c, ctx := k, msg := m }

/-- A message whose place in program order is that of number `o` (R54). -/
def State.postAt (c k o : Nat) (m : Msg) (s : State) : State :=
  s.launchFlight { core := c, ctx := k, ord := some o, msg := m }

/-- A landing-buffer entry taken at issue for the next flight, due after the stated arrival (R129, R130). -/
def State.awaitLanding (at16 : BitVec 5) (ws : List Write) (s : State) : State :=
  let n := s.seq
  s.modMe (fun x => { x with land := x.land ++ ws.map (fun w =>
    { due := 16 * at16.toNat, slot := s.slot, flight := n, w := w, addr := x.pc, sel := s.maskSel }) })

/-- The phase rule for a plain store (R220): within a phase a local store stays in the output half, and no store is translated. -/
def phaseStore (a n : Nat) (s : State) : Except Stop State :=
  let b := s.data.bind
  let ph := s.data.phase
  if !b.phaseBound then .ok s
  else if a < 0x200000 then
    require (decide (ph.out ≤ a) && decide (a + n ≤ ph.out + 512 * ph.blocks)) .xlate s
  else .error (.trap .illegal 0)

/-- The phase rule for atomics, reductions, token instructions, LOCK, UNLOCK and LNCH (R220). -/
def phaseNone (s : State) : Except Stop State := require (!s.data.bind.phaseBound) .illegal s

/-- The scope field as a number: LANE 0, CORE 1, QUAD 2, DIE 3, PKG 4, POD 5. -/
def scopeOf (m : MForm) : Nat := m.sc.toNat

/-- The bytes of a size code (R133). -/
def sizeBytes (cls : Nat) : Nat :=
  match cls with
  | 0 => 1 | 1 => 2 | 2 => 4 | 3 => 8 | 4 => 1 | 5 => 2 | 6 => 4 | _ => 16

/-- A loaded value extended by its size code (R133). -/
def extend (cls v : Nat) : Word :=
  if cls = 4 ∨ cls = 5 ∨ cls = 6 then BitVec.ofInt 64 (signed v (8 * sizeBytes cls)) else BitVec.ofNat 64 v

/-- The tag format of a queue format code (R133). -/
def queueFmt (cls : Nat) : Nat :=
  match cls with
  | 0 => 0 | 1 => 1 | 2 => 2 | 3 => 3 | 4 => 4 | 5 => 9 | 6 => 11 | _ => 12

end Sys2Proof.Machine
end

