-- ==== Sys2Proof/Machine/Paths.lean ====
section
/-!
DEFINITION. The paths between the dies of the package (R379, R384, R386, R392): which links a message may use, and what is beyond
reach. Dies 0 to 3 are the compute dies, 4 the hub die, 5 another package, which is reached by the hub die's ports.
-/
namespace Sys2Proof.Machine

/-- A Phogil link (R383). -/
def State.link (s : State) (k : Nat) : Link := Tab.get {} s.links k

def State.linkUp (s : State) (k : Nat) : Bool := (s.link k).up

/-- The ring links from die `a` upwards to die `b`. -/
def hops (a b : Nat) : List Nat := (List.range ((b + 4 - a) % 4)).map (fun i => (a + i) % 4)

/-- The routes of sprayed traffic from die `a` to die `b`, as links (R384, R386, R392): the direct link of neighbours while it is up, else the
other way round; both ways between non-neighbours; the hub link to the hub die. -/
def State.sprayed (s : State) (a b : Nat) : List (List Nat) :=
  if a = b then [[]]
  else if 4 ≤ a ∧ 4 ≤ b then [[]]
  else if 4 ≤ b then [[4 + a]].filter (fun r => r.all s.linkUp)
  else if 4 ≤ a then [[4 + b]].filter (fun r => r.all s.linkUp)
  else
    let ok := [hops a b, hops b a].filter (fun r => r.all s.linkUp)
    match ok.find? (fun r => r.length == 1) with
    | some r => [r]
    | none => ok

/-- Die `b` is within reach of die `a` (R392). -/
def State.canReach (s : State) (a b : Nat) : Bool := !(s.sprayed a b).isEmpty

/-- The one route of a fixed path between two dies (R384): between non-neighbours through die n + 1 from the lower-numbered die n. -/
def fixedRoute (a b : Nat) : List Nat :=
  if a = b then []
  else if 4 ≤ a ∧ 4 ≤ b then []
  else if 4 ≤ b then [4 + a]
  else if 4 ≤ a then [4 + b]
  else if (b + 4 - a) % 4 = 1 then [a]
  else if (a + 4 - b) % 4 = 1 then [b]
  else [min a b, min a b + 1]

/-- The key of the fixed path from one tile to another: core tiles by their package number, die `d` as a whole as 1,000 + `d`. -/
def pathKey (src dst : Nat) : Nat := src * 2048 + dst

/-- The die of a tile. -/
def tileDie (t : Nat) : Nat := if t < 1000 then t / 96 else t - 1000

/-- The links of the fixed path between two tiles: the route that it took when it was first used, or the one that a first use takes now:
the route of R384, or the other way round the ring where a link of that route is down (DEDUCED). -/
def State.pathLinks (s : State) (src dst : Nat) : Option (List Nat) :=
  match Tab.find s.paths (pathKey src dst) with
  | some r => some r
  | none =>
    let a := tileDie src
    let b := tileDie dst
    ((fixedRoute a b) :: (if a < 4 ∧ b < 4 then [hops a b, hops b a] else [])).find? (fun r => r.all s.linkUp)

/-- The fixed path between two tiles is up (R392). -/
def State.fixedUp (s : State) (src dst : Nat) : Bool := match s.pathLinks src dst with | some r => r.all s.linkUp | none => false

/-- The fixed path between two tiles is used: its route stays (R384). -/
def State.usePath (s : State) (src dst : Nat) : State :=
  match s.pathLinks src dst with
  | some [] => s
  | some r => { s with paths := s.paths.put (pathKey src dst) r }
  | none => s

/-- The fixed path between two tiles uses a link. -/
def State.pathHas (s : State) (src dst k : Nat) : Bool := match s.pathLinks src dst with | some r => r.contains k | none => false

/-- A physical address is within reach of die `a` (R392, R393): its die over the links, and another package only while it is in the
pod. -/
def State.inReach (s : State) (a pa : Nat) : Bool :=
  s.canReach a (s.homeDie pa) && (match s.targetOf pa with | .other p => s.pod.contains p | _ => true)

/-- An address homed in another package: what is there answers through PACKET_RECEIVE. -/
def State.remote (s : State) (pa : Nat) : Bool := match s.targetOf pa with | .other _ => true | _ => false

end Sys2Proof.Machine
end

