-- ==== Sys2Proof/Machine/Lines.lean ====
section
/-!
DEFINITION. What an access does beside its bytes at the home of its lines (R8, R365 to R368, R375, R377): the line kept in L2 or
the request queued at its bank, and the correction of words with flipped bits. Flipped bits are counted by word, those of
an L2 copy of an HBM word under `l2Word` of the word.
-/
namespace Sys2Proof.Machine

/-- The home slice of an address (R366). -/
def sliceOf (pa : Nat) : Nat := (fld pa 7 30 + 7 * (fld pa 7 30 / 4096)) % 96

/-- The stack of an HBM address (R365). -/
def stackOf (pa : Nat) : Nat := 2 * fld pa 37 2 + fld pa 8 1

/-- The bank of an HBM address, numbered stack × 1,024 + channel × 32 + pseudo-channel × 16 + bank (R365). -/
def dbankOf (pa : Nat) : Nat := stackOf pa * 1024 + fld pa 9 5 * 32 + fld pa 14 1 * 16 + (fld pa 17 4 ^^^ fld pa 21 4)

/-- The row of an HBM address (R365). -/
def rowOfPA (pa : Nat) : Nat := fld pa 21 16

/-- An address in HBM of this package. -/
def inHbm (pa : Nat) : Bool := decide (pa < 0x8000000000)

/-- The key of flipped bits in the L2 copy of a word. -/
def l2Word (w : Nat) : Nat := 0x1000000000000000 + w

/-- The key under which the stored form of a word keeps its flipped bits: of L2 where the line is there (DEDUCED). -/
def State.softKey (s : State) (w : Nat) : Nat :=
  if inHbm (w * 32) && (Tab.get {} s.dies (fld w 32 2)).l2.any (fun e => e / 2 == w / 4) then l2Word w else w

/-- A bank. -/
def State.bankAt (s : State) (n : Nat) : DBank := Tab.get {} s.banks n

def State.setBankAt (s : State) (n : Nat) (b : DBank) : State := { s with banks := s.banks.put n b }

/-- A die. -/
def State.dieAt (s : State) (d : Nat) : Die := Tab.get {} s.dies d

def State.setDie (s : State) (d : Nat) (x : Die) : State := { s with dies := s.dies.put d x }

/-- A request put behind those that reach the controller no later than it does (R368). -/
def insertReq (e : BReq) : List BReq → List BReq
  | [] => [e]
  | q :: r => if e.from_ < q.from_ then e :: q :: r else q :: insertReq e r

/-- A request for a line joins the queue of its bank (R368), which it reaches in cycle `at_` or now. -/
def State.request (s : State) (k : BKind) (line at_ : Nat) : State :=
  let n := dbankOf (line * 128)
  let b := s.bankAt n
  s.setBankAt n { b with queue := insertReq ⟨rowOfPA (line * 128), line, k, max at_ s.cycle⟩ b.queue }

/-- What a write of some ranges to a line of a page with NC = 1 asks of its bank (R367, R416). -/
def writeKind (rs : List (Nat × Nat)) (line : Nat) : BKind :=
  let bytes (w : Nat) : Nat := rs.foldl (fun n r => n + (min (r.1 + r.2) (32 * w + 32) - max r.1 (32 * w))) 0
  if (List.range 4).all (fun i => bytes (4 * line + i) == 0 || decide (32 ≤ bytes (4 * line + i))) then .write else .merge

/-- A slice at SEC-DED that has corrected 64 words within a sweeper pass becomes DEC-TED (R377). -/
def Die.correct (d : Die) (slice : Nat) : Die :=
  let n := Tab.get 0 d.corrected slice + 1
  let d := { d with corrected := d.corrected.put slice n }
  if decide (64 ≤ n) && !d.strong.contains slice then
    { d with strong := slice :: d.strong, done := d.done.erase slice, sweep := d.sweep.put slice 0 }
  else d

/-- A word of L2 or chip scratchpad is corrected by its slice (R377). -/
def State.correctWord (s : State) (key w : Nat) : State :=
  let die := s.homeDie (w * 32)
  ({ s with soft := s.soft.drop key } : State).setDie die ((s.dieAt die).correct (sliceOf (w * 32)))

/-- The words of a line that carry flipped bits where the slice keeps them are corrected as they are read (R377). -/
def State.correctLine (s : State) (line : Nat) : State :=
  if s.soft.isEmpty then s
  else (List.range 4).foldl (fun (t : State) i =>
    let w := 4 * line + i
    let k := if inHbm (w * 32) then l2Word w else w
    let chip := match t.targetOf (w * 32) with | .hbm _ => true | .chip _ => true | _ => false
    if chip && (Tab.find t.soft k).isSome && !t.bad.contains w then t.correctWord k w else t) s

/-- The set of a line among the 32,768 sets of 16 ways of its die's L2 (R8, R143), by its low number bits (assumption 87). -/
def l2Set (line : Nat) : Nat := line % 32768

/-- Where the set of a line has more than its 16 ways, the least recently used line of it that no context has locked leaves L2 (R8, R143): where it is
dirty it is written to its bank, and the sizes of atomics recorded for it are forgotten (R186). -/
def State.evict (s : State) (die line : Nat) : State :=
  let d := s.dieAt die
  let ways := d.l2.filter (fun e => l2Set (e / 2) == l2Set line)
  if ways.length ≤ 16 then s
  else match ways.reverse.find? (fun e => !s.l2locks.contains (e / 2)) with
  | some e =>
    let s := s.setDie die { d with l2 := d.l2.erase e }
    let s : State :=
      { s with
        soft := s.soft.filter (fun f => !(decide (l2Word (e / 2 * 4) ≤ f.1) && decide (f.1 < l2Word (e / 2 * 4 + 4))))
        granules := s.granules.filter (fun g => g.1 / 8 != e / 2) }
    if e % 2 = 1 then s.request .write (e / 2) 0 else s
  | none => s

/-- A line used at its home: bypassing L2 for a page with NC = 1 (R367), where `k` is what that asks of the bank, else kept in the L2 of its die, most
recent first. What it asks of a bank gets there in cycle `at_`, or now. -/
def State.useLine (s : State) (k : BKind) (nc write : Bool) (line : Nat) (at_ : Nat := 0) : State :=
  if !inHbm (line * 128) then s.correctLine line
  else if nc then s.request k line at_
  else
    let die := fld line 30 2
    let d := s.dieAt die
    match d.l2.find? (fun e => e / 2 == line) with
    | some e => (s.setDie die { d with l2 := (2 * line + if write then 1 else e % 2) :: d.l2.erase e }).correctLine line
    | none => ((s.request .read line at_).setDie die { d with l2 := (2 * line + if write then 1 else 0) :: d.l2 }).evict die line

/-- The lines of some ranges used at their homes. -/
def State.useHome (s : State) (nc write : Bool) (rs : List (Nat × Nat)) (at_ : Nat := 0) : State :=
  (linesOf rs).eraseDups.foldl (fun (t : State) l => t.useLine (if write then writeKind rs l else .read) nc write l at_) s

/-- Some line of the ranges is still asked of its bank: a request queued there has not been served (R368, R372). -/
def State.atBank (s : State) (rs : List (Nat × Nat)) : Bool :=
  (linesOf rs).any (fun l => inHbm (l * 128) && (s.bankAt (dbankOf (l * 128))).queue.any (fun e => e.line == l))

/-- The data of some line of the ranges has left its controller fewer than the 180 cycles ago that it takes to the landing buffer, in the cycle that
is about to begin (R369). -/
def State.returning (s : State) (rs : List (Nat × Nat)) : Bool :=
  (linesOf rs).any (fun l => inHbm (l * 128) && (match Tab.find (s.bankAt (dbankOf (l * 128))).left l with
    | some t => decide (s.cycle + 1 < t + 180)
    | none => false))

/-- The cores whose record has a state (R354); a core without a record is NOMINAL. -/
def State.coresIn (s : State) (st : Nat) : Nat :=
  let n := (s.sage.filter (fun e => decide (e.1 < 384) && e.2.st == st)).length
  if st = 0 then n + (384 - (s.sage.filter (fun e => decide (e.1 < 384))).length) else n

/-- Bits from a test. -/
def bitsFrom (n : Nat) (f : Nat → Bool) : Nat := (List.range n).foldl (fun v i => if f i then v + 2 ^ i else v) 0

/-- The capability list (R409). Die `i` counts as at DEC-TED where all its slices are (DEDUCED). -/
def State.capList (s : State) : List Byte :=
  leBytes 1 4 ++ leBytes 0x0960 2 ++ leBytes (Tab.get 0 s.mgmt.svn 4 % 65536) 2 ++
  leBytes (s.coresIn 0) 2 ++ leBytes (s.coresIn 1) 2 ++ leBytes (s.coresIn 2) 2 ++ leBytes (s.coresIn 4) 2 ++
  leBytes s.pkgid 4 ++ leBytes s.pod.length 4 ++
  leBytes (bitsFrom 8 (fun k => s.linkUp k) + 256 * bitsFrom 16 (fun p => (Tab.get {} s.ports p).up)) 8 ++
  leBytes 0x8000000000 8 ++ leBytes (bitsFrom 4 (fun d => decide (96 ≤ (s.dieAt d).strong.length))) 8 ++
  (List.range 4).flatMap (fun d => leBytes ((s.dieAt d).portbud / 512) 2) ++
  leBytes s.mgmt.pcap 4 ++ leBytes s.mgmt.thr 4 ++ leBytes (s.coresIn 3) 2 ++ List.replicate 4030 0

/-- The page of the capability list (R399, R409). -/
def capBase : Nat := 0x30000130000

/-- The bytes of a range at its home: of memory, or of the capability list. -/
def State.homeBytes (s : State) (pa n : Nat) : List Byte :=
  if pa / 4096 = capBase / 4096 then (s.capList.drop (pa % 4096)).take n else s.mem.readBytes pa n

end Sys2Proof.Machine
end

