-- ==== Sys2Proof/Machine/Memory.lean ====
section
/-!
DEFINITION. The load-store instructions (R132 to R144). Each makes its checks at issue and puts an access in flight; the access
performs in HOME_ACCESS.
-/
namespace Sys2Proof.Machine

/-- The kind of the data specifier: 0 scalar, 1 lane, 2 queue, 3 stream (R42). -/
def dkind (m : MForm) : Nat := fld m.data.toNat 6 2

/-- The register, queue or stream number of the data specifier (R42). -/
def dreg (m : MForm) : Nat := if dkind m < 2 then fld m.data.toNat 0 5 else fld m.data.toNat 0 4

/-- The pop bit of a queue data specifier (R42). -/
def dpop (m : MForm) : Bool := m.data.getLsbD 4

/-- The registers that form an address (R120). -/
def addrRegs (m : MForm) : List Nat := [m.base.toNat, m.idx.toNat]

/-- The address of a slot access (R135): ABASE is added for a stream of KIND 01. -/
def slotAddr (m : MForm) (s : State) : Nat :=
  let st := s.stream (dreg m)
  if dkind m = 3 ∧ st.kind = 1 then (st.abase + s.ea m) % 2 ^ 64 else s.ea m

/-- The bound of a KIND 01 stream access (R135): the whole slot lies within LEN bytes. -/
def streamBound (m : MForm) (n : Nat) (s : State) : Except Stop State :=
  let st := s.stream (dreg m)
  require (!(dkind m == 3 && st.kind == 1) || decide (s.ea m + n ≤ st.len)) .xlate s

/-- The load of some pieces (R129, R135, R139). -/
def State.loadAcc (s : State) (m : MForm) (ps : List Piece) (dst : ADst) : Acc :=
  { cls := .ld, scope := scopeOf m, cached := s.cachedOf m.sc ps, nc := ncOf ps, asn := s.data.bind.asn, reads := ranges ps, dst := dst }

/-- The load of `n` bytes into registers (R129, R135): checks, a landing entry for each register, and the access. -/
def loadRegs (m : MForm) (n align : Nat) (ws : List Write) (dst : ADst) (s : State) : Out :=
  runSlot m.g
    (fun s => do
      let s ← checkAccess (loadKind m.sc) (s.ea m) n align s
      let s ← roomFor s
      landRoom ws.length s)
    (fun s => match readAddr (addrRegs m) s with
      | .error e => .error e
      | .ok s =>
        let ps := s.piecesOf (loadKind m.sc) (s.ea m) n
        .ok ((s.awaitLanding m.at16 ws).send (.access (s.loadAcc m ps dst)))) s

/-- The load of one slot into queue `q` (R135). -/
def loadSlot (m : MForm) (pre : State → Except Stop State) (q : State → Nat) (tag : State → Byte) (s : State) : Out :=
  runSlot m.g
    (fun s => do
      let s ← pre s
      let s ← appendSlot (q s) s
      let n := (s.queue (q s)).slotBytes
      let a := slotAddr m s
      let s ← require (a % 64 == 0) .align s
      let s ← streamBound m n s
      let s ← checkAccess (loadKind m.sc) a n 64 s
      roomFor s)
    (fun s => match readAddr (addrRegs m) s with
      | .error e => .error e
      | .ok s =>
        let ps := s.piecesOf (loadKind m.sc) (slotAddr m s) (s.queue (q s)).slotBytes
        .ok (s.send (.access (s.loadAcc m ps (s.slotDst (q s) (tag s)))))) s

/-- A stream that a memory slot accepts: enabled, KIND 00 or 01 (R95, R135). -/
def memStream (d : Nat) (s : State) : Except Stop State :=
  require ((s.stream d).en && decide ((s.stream d).kind < 2)) .format s

/-- LD (R135). -/
def execLd (m : MForm) (s : State) : Out :=
  match dkind m with
  | 0 =>
    let n := sizeBytes m.sz.toNat
    if n = 16 then loadRegs m 16 16 [.s (dreg m) 0, .s (dreg m + 1) 0] (.pair (dreg m)) s
    else loadRegs m n n [.s (dreg m) 0] (.scalar (dreg m) m.sz.toNat) s
  | 2 => loadSlot m .ok (fun _ => dreg m) (fun _ => tagByte (queueFmt m.sz.toNat) 0) s
  | _ => loadSlot m (memStream (dreg m)) (fun s => (s.stream (dreg m)).qn) (fun s => tagByte (s.stream (dreg m)).fmt 0) s

/-- The first checks of a plain store, those of the phase and of alignment (R134, R220). -/
def storeFirst (a align : Nat) (s : State) : Except Stop State :=
  if s.data.bind.phaseBound && decide (0x200000 ≤ a) then .error (.trap .illegal 0)
  else if a % align ≠ 0 then .error (.trap .align 0)
  else .ok s

/-- The checks of a plain store (R134, R220). -/
def checkStore (a n align : Nat) (s : State) : Except Stop State :=
  match storeFirst a align s with
  | .error e => .error e
  | .ok s => match phaseStore a n s with
    | .error e => .error e
    | .ok s => checkAccess .store a n align s

/-- How a piece of a store travels: through L1 or to the home on one die, in L2 or past it (R127, R148, R367). -/
def State.route (s : State) (sc : BitVec 3) (p : Piece) : Bool × Bool × Nat := (s.caches sc p, p.nc && !p.win, s.homeDie p.pa)

/-- The writes of a store that travel together, in flight; the first write to a region is reported (R136, R163). -/
def State.sendRun (s : State) (sc : BitVec 3) (ws : List PWrite) : State :=
  let ps := ws.map (fun w => w.1)
  (s.send (.access
    { cls := .st, scope := sc.toNat, cached := s.cachedOf sc ps, nc := ncOf ps, asn := s.data.bind.asn, writes := ws.map (fun w => w.2),
      report := s.toReport ps })).reporting (s.toReport ps)

/-- A store in flight, one flight for each run of its writes that travel together (R136, R148; DEDUCED). -/
def State.sendStore (s : State) (sc : BitVec 3) (ws : List PWrite) : State :=
  (runsBy (fun w => s.route sc w.1) ws).foldl (fun (t : State) r => t.sendRun sc r) s

/-- The store of a queue's head slot (R136). -/
def storeSlot (m : MForm) (pre : State → Except Stop State) (q : State → Nat) (pop : Bool) (s : State) : Out :=
  runSlot m.g
    (fun s => do
      let s ← pre s
      let s ← if pop then popSlots (q s) 1 s else needSlot (q s) 0 s
      let n := (s.queue (q s)).slotBytes
      let a := slotAddr m s
      let s ← storeFirst a 64 s
      let s ← streamBound m n s
      let s ← checkStore a n 64 s
      roomFor s)
    (fun s => do
      let s ← readAddr (addrRegs m) s
      let s ← readSlot (q s) 0 s
      let bs := s.slotBytes (q s) 0
      .ok (s.sendStore m.sc (cutBytes (s.piecesOf .store (slotAddr m s) bs.length) bs))) s

/-- The bytes that a scalar store writes (R136). -/
def State.storeBytes (s : State) (m : MForm) : List Byte :=
  let n := sizeBytes m.sz.toNat
  if n = 16 then leBytes (s.rd.sreg (dreg m)).toNat 8 ++ leBytes (s.rd.sreg (dreg m + 1)).toNat 8
  else leBytes (s.rd.sreg (dreg m)).toNat n

/-- ST (R136). -/
def execSt (m : MForm) (s : State) : Out :=
  match dkind m with
  | 0 =>
    let n := sizeBytes m.sz.toNat
    runSlot m.g
      (fun s => do
        let s ← checkStore (s.ea m) n n s
        roomFor s)
      (fun s => match readAddr (dreg m :: (if n = 16 then [dreg m + 1] else []) ++ addrRegs m) s with
        | .error e => .error e
        | .ok s =>
          .ok (s.sendStore m.sc (cutBytes (s.piecesOf .store (s.ea m) n) (s.storeBytes m)))) s
  | 2 => storeSlot m .ok (fun _ => dreg m) (dpop m) s
  | _ => storeSlot m (memStream (dreg m)) (fun s => (s.stream (dreg m)).qn) false s

/-- The lane mask and the per-lane index flag of LDL and STL (R132). -/
def laneMaskSel (m : MForm) : BitVec 2 := BitVec.ofNat 2 (m.sz.toNat / 2)
def laneIdx (m : MForm) : Bool := m.sz.getLsbD 0

/-- The offset of lane `j` in its private slice (R137). -/
def laneOff (m : MForm) (s : State) (j : Nat) : Nat :=
  let x : Word := if laneIdx m then BitVec.ofNat 64 (laneAt (s.rd.lreg m.idx.toNat).toNat j) else s.sreg m.idx
  (s.sreg m.base + x + m.disp.signExtend 64).toNat

/-- The checks of a lane-private access, over every enabled lane (R137). -/
def checkLanes (m : MForm) (s : State) : Except Stop State :=
  let en := s.laneSel (laneMaskSel m)
  let offs := ((List.range 128).filter (fun j => en.getLsbD j)).map (laneOff m s)
  if offs.any (fun o => o % 4 ≠ 0) then .error (.trap .align 0)
  else require (offs.all (fun o => decide (o < s.data.bind.privBytes))) .xlate s

/-- The place of a byte of a lane's slice in the core's lane-private memory (R7). -/
def lanePA (x : Ctx) (j o : Nat) : Nat := j * 2048 + x.bind.privBase + o

/-- LDL (R137). -/
def execLdl (m : MForm) (s : State) : Out :=
  runSlot m.g (checkLanes m)
    (fun s => match readAddr (if laneIdx m then [m.base.toNat] else addrRegs m) s with
      | .error e => .error e
      | .ok s =>
        let en := s.laneSel (laneMaskSel m)
        let v := lanesOf (fun j =>
          if en.getLsbD j then leNat (s.core.lanes.readBytes (lanePA s.data j (laneOff m s j)) 4) else 0)
        .ok (s.put (.l (dreg m) en v) 3)) s

/-- STL (R137). -/
def execStl (m : MForm) (s : State) : Out :=
  runSlot m.g (checkLanes m)
    (fun s => match readAddr (if laneIdx m then [m.base.toNat] else addrRegs m) s with
      | .error e => .error e
      | .ok s =>
        let en := s.laneSel (laneMaskSel m)
        let v := (s.rd.lreg (dreg m)).toNat
        let x := s.data
        let offs := (List.range 128).filter (fun j => en.getLsbD j)
        .ok (s.modMyCore (fun c => { c with
          lanes := offs.foldl (fun mm j => mm.writeBytes (lanePA x j (laneOff m s j)) (leBytes (laneAt v j) 4)) c.lanes }))) s

/-- LDV (R138). -/
def execLdv (m : MForm) (s : State) : Out :=
  let en := s.laneSel (BitVec.ofNat 2 (m.sz.toNat % 4))
  loadRegs m 512 64 [.l (dreg m) en 0] (.lanes (dreg m) en) s

/-- STV (R138): only the bytes of the enabled lanes. -/
def execStv (m : MForm) (s : State) : Out :=
  runSlot m.g
    (fun s => do
      let s ← checkStore (s.ea m) 512 64 s
      roomFor s)
    (fun s => match readAddr (addrRegs m) s with
      | .error e => .error e
      | .ok s =>
        if s.me.badL.contains (dreg m) then .error (.fail .eccUe 0 false)
        else
          let en := s.laneSel (BitVec.ofNat 2 (m.sz.toNat % 4))
          let v := (s.rd.lreg (dreg m)).toNat
          let ps := s.piecesOf .store (s.ea m) 512
          .ok (s.sendStore m.sc (((List.range 128).filter (fun j => en.getLsbD j)).flatMap
            (fun j => (pieceAt ps (4 * j)).map (fun p => (p, paAt ps (4 * j), leBytes (laneAt v j) 4)))))) s

/-- The bytes of an element of a type code. -/
def elemBytes (ty : Nat) : Nat := (ekind ty).width / 8

/-- The bytes of one gathered row (R139). -/
def Stream.rowBytes (st : Stream) : Nat := st.k * elemBytes st.fmt

/-- The indices of a gather: the first R elements of slot IQ.0 (R139). -/
def State.rowIdx (s : State) (st : Stream) : List Nat :=
  let w := if st.iw then 4 else 2
  let v := leNat (s.mem.readBytes (s.slotPA st.iq 0) (st.rows * w))
  (List.range st.rows).map (fun i => fld v (8 * w * i) (8 * w))

/-- The address of a row (R139). -/
def rowAddr (m : MForm) (st : Stream) (s : State) (i : Nat) : Nat := (st.abase + s.ea m + i * st.pitch) % 2 ^ 64

/-- A gather stream and the size rules that do not depend on the indices (R139). -/
def gatherCheck (m : MForm) (s : State) : Except Stop State :=
  let st := s.stream (dreg m)
  let w := if st.iw then 4 else 2
  require (st.en && st.kind == 2 && decide (st.rows * w ≤ (s.queue st.iq).slotBytes)) .format s

/-- The checks of every row (R134, R139). -/
def checkRows (k : RKind) (m : MForm) (st : Stream) : List Nat → State → Except Stop State
  | [], s => .ok s
  | i :: r, s =>
    let a := rowAddr m st s i
    let c := if k == .store then checkStore a st.rowBytes 64 s else checkAccess k a st.rowBytes 64 s
    match c with
    | .error e => .error e
    | .ok t => checkRows k m st r t

/-- The slot at the head of a queue is present: until then the row addresses of a gather are not known, and no check of them is made (R49, R80). -/
def State.hasSlot (s : State) (q : Nat) : Bool := (s.queue q).pmap.getLsbD ((s.queue q).at 0)

/-- LDG's target: 0 a queue, 1 and 2 the latches (R139). -/
def ldgTarget (m : MForm) : Nat := m.sz.toNat % 4

def Core.latch (c : Core) (i : Nat) : GLatch := if i = 0 then c.latch0 else c.latch1
def Core.setLatch (c : Core) (i : Nat) (l : GLatch) : Core :=
  if i = 0 then { c with latch0 := l } else { c with latch1 := l }

/-- LDG (R139). A row size that is no multiple of 64 traps ALIGN, after the FORMAT checks (assumption 91). -/
def execLdg (m : MForm) (s : State) : Out :=
  runSlot m.g
    (fun s => do
      let st := s.stream (dreg m)
      let s ← gatherCheck m s
      let s ← if m.sz.getLsbD 2 then popSlots st.iq 1 s else needSlot st.iq 0 s
      let s ← if ldgTarget m = 0 then
          (do
            let s ← require (st.rows * st.rowBytes == (s.queue st.qn).slotBytes) .format s
            appendSlot st.qn s)
        else
          (do
            let s ← require (decide (st.rows * st.rowBytes ≤ 16384)) .format s
            .ok (if (s.core.latch (ldgTarget m - 1)).readers = 0 then s else s.hold .interlock))
      let s ← require (st.rowBytes % 64 == 0) .align s
      let s ← if s.hasSlot st.iq then checkRows (loadKind m.sc) m st (s.rowIdx st) s else .ok s
      roomFor s)
    (fun s => do
      let st := s.stream (dreg m)
      let s ← readAddr (addrRegs m) s
      let s ← readSlot st.iq 0 s
      let ps := (s.rowIdx st).flatMap (fun i => s.piecesOf (loadKind m.sc) (rowAddr m st s i) st.rowBytes)
      let t := ldgTarget m
      let dst : ADst := if t = 0 then s.slotDst st.qn (tagByte st.fmt 0) else .latch (t - 1)
      let s := if t = 0 then s
        else s.modMyCore (fun c => c.setLatch (t - 1)
          { c.latch (t - 1) with ready := false, filled := some (c.dataIdx, dreg m) })
      .ok (s.send (.access (s.loadAcc m ps dst)))) s

/-- STS (R140): the rows perform in row order. -/
def execSts (m : MForm) (s : State) : Out :=
  runSlot m.g
    (fun s => do
      let st := s.stream (dreg m)
      let s ← gatherCheck m s
      let s ← if m.sz.getLsbD 0 then popSlots st.qn 1 s else needSlot st.qn 0 s
      let s ← if m.sz.getLsbD 1 then popSlots st.iq 1 s else needSlot st.iq 0 s
      let s ← require (st.rows * st.rowBytes == (s.queue st.qn).slotBytes) .format s
      let s ← require (st.rowBytes % 64 == 0) .align s
      let s ← if s.hasSlot st.iq then checkRows .store m st (s.rowIdx st) s else .ok s
      roomFor s)
    (fun s => do
      let st := s.stream (dreg m)
      let s ← readAddr (addrRegs m) s
      let s ← readSlot st.qn 0 s
      let s ← readSlot st.iq 0 s
      let ps := (s.rowIdx st).flatMap (fun i => s.piecesOf .store (rowAddr m st s i) st.rowBytes)
      .ok (s.sendStore m.sc (cutBytes ps (s.slotBytes st.qn 0)))) s

/-- The lines that PREF names: 1, 4, 16 or 64 (R132). -/
def prefLines (m : MForm) : Nat := 4 ^ (m.sz.toNat % 4)

/-- The dirty bytes of a line as writes at their physical addresses (R127). -/
def Line.writes (pa : Nat) (l : Line) : List (Nat × List Byte) :=
  ((List.range 128).filter (fun i => l.dirty.getLsbD i)).map (fun i => (pa + i, [l.data.getD i 0]))

/-- A write-back of dirty bytes in flight from a core, in the place in program order of its FLUSH (R127, R142). -/
def State.sendBack (s : State) (c k o : Nat) (ws : List (Nat × List Byte)) : State :=
  if ws.isEmpty then s else s.postAt c k o (.access { cls := .st, scope := 1, writes := ws })

/-- The dirty bytes of an L1 line written to its home as it leaves L1 (R127). -/
def State.writeBack (s : State) (line : Nat) (l : Line) : State :=
  let s : State := { s with mem := storeAll s.mem (l.writes (line * 128)) }
  if l.dirty = 0 then s else s.useHome false true [(line * 128, 128)]

/-- A line put into L1, as its home gives it; with 512 lines present one of them, at an open place, is evicted first (R127). -/
def State.fillLine (s : State) (c line : Nat) (l : Line) (at_ : Nat := 0) : State :=
  let k := s.coreAt c
  let s := s.useHome false false [(line * 128, 128)] at_
  let s := if k.l1.length < 512 then s
    else
      match k.l1[Config.freeNat s.fresh 0 % 512]? with
      | some e =>
        let s : State := { s with fresh := s.fresh + 1 }
        let s := s.writeBack e.1 e.2
        s.modCore c (fun x => { x with l1 := x.l1.drop e.1 })
      | none => s
  s.modCore c (fun x => { x with l1 := x.l1.put line l })

/-- One line brought into L2, and into L1 too unless `l2`, for PREF (R141): dropped where its translation or rights fail, where it is not
cacheable HBM, and where the port has no tokens for it (R396). -/
def prefLine (l2 : Bool) (a : Nat) (s : State) : State :=
  match s.resolve false a 1 with
  | .pieces [p] =>
    if (s.pieceCause .load [p]).isSome || !s.caches 1 p || (Tab.find s.core.l1 (p.pa / 128)).isSome then s
    else match s.takePort s.cur (s.shareClass s.cur s.core.issuing) 128 with
    | none => s
    | some s =>
      if l2 then s.useHome false false [(p.pa / 128 * 128, 128)]
      else s.fillLine s.cur (p.pa / 128)
        { asn := s.data.bind.asn, va := a / 128 * 128, data := s.mem.readBytes (p.pa / 128 * 128) 128, dirty := 0 }
  | _ => s

/-- The addresses of the lines that PREF names. -/
def prefAddrs (m : MForm) (s : State) : List Nat := (List.range (prefLines m)).map (fun i => s.ea m / 128 * 128 + 128 * i)

/-- PREF (R141): the lines whose translations miss are walked first; what would fault is dropped. -/
def execPref (m : MForm) (s : State) : Out :=
  runSlot m.g
    (fun s => .ok (match (prefAddrs m s).findSome? (fun a => match s.resolve false a 1 with | .miss va => some va | _ => none) with
      | some va => s.hold (.walk va)
      | none => s))
    (fun s => match readAddr (addrRegs m) s with
      | .error e => .error e
      | .ok s =>
        let s := if s.outstanding s.cur ≥ 1024 then s else (prefAddrs m s).foldl (fun t a => prefLine (m.sz.getLsbD 2) a t) s
        .ok (s.modMyCore (fun c => { c with walks := c.walks.filter (fun w => !w.failed) }))) s

/-- An address by which an access has used an L1 line lies in a range of an address space (R142). -/
def Line.usedIn (l : Line) (asn : BitVec 16) (lo n : Nat) : Bool :=
  ((l.asn, l.va) :: l.users).any (fun u => u.1 == asn && decide (u.2 < lo + n) && decide (lo < u.2 + 128))

/-- An access of an address space has used an L1 line. -/
def Line.of (l : Line) (asn : BitVec 16) : Bool := l.asn == asn || l.users.any (fun u => u.1 == asn)

/-- FLUSH acts on a core's L1 lines, for context `k` and in place `o` of its program order: the dirty bytes of the lines go to their homes, and with
`inv` the lines leave L1 (R142). -/
def State.flushL1 (s : State) (c k o : Nat) (asn : BitVec 16) (lo n : Nat) (all inv : Bool) : State :=
  let ls := (s.coreAt c).l1.filter (fun e => if all then e.2.of asn else e.2.usedIn asn lo n)
  let s := ls.foldl (fun (t : State) e => t.sendBack c k o (e.2.writes (e.1 * 128))) s
  s.modCore c (fun y => { y with l1 := ls.foldl (fun t e => if inv then t.drop e.1 else t.put e.1 { e.2 with dirty := 0 }) y.l1 })

/-- FLUSH over a range (R142): a length of 0 is one line, and one above 2^30 is 2^30. It acts once the context's older stores have reached L1. -/
def flushRange (m : MForm) (inv : Bool) (s : State) : Out :=
  runSlot m.g .ok
    (fun s => match readAddr (dreg m :: addrRegs m) s with
      | .error e => .error e
      | .ok s => .ok (s.send (.flush s.data.bind.asn (s.ea m) (min (max (s.rd.sreg (dreg m)).toNat 1) (2 ^ 30)) false inv))) s

def execFlush (m : MForm) (s : State) : Out := flushRange m false s
def execFlushInv (m : MForm) (s : State) : Out := flushRange m true s
def execFlushAll (m : MForm) (s : State) : Out := runPure m.g (fun s => s.send (.flush s.data.bind.asn 0 0 true true)) s

/-- The predecessor and successor sets of FENCE (R42): bits [46:42] and [41:37]. -/
def fencePred (m : MForm) : BitVec 5 := BitVec.ofNat 5 (m.data.toNat / 8)
def fenceSucc (m : MForm) : BitVec 5 := BitVec.ofNat 5 (m.data.toNat % 8 * 4 + m.base.toNat / 8)

/-- The head that a splice-in queue reports: within a phase, that of the last PHASE (R86, R220), and no slot that an engine still reads is behind it
(R262). -/
def QDesc.headOut (d : QDesc) : QPtr :=
  let n := d.behind 0 false []
  if n ≤ d.head.idx then { d.head with idx := d.head.idx - n }
  else { idx := d.head.idx + d.cap - n, wrap := !d.head.wrap }

/-- A head message that is due is cut off from the pops that follow: a FENCE orders what follows it behind the message (R144, R151). -/
def QDesc.cutHead (d : QDesc) : QDesc :=
  if d.headDue && d.mode == .spliceIn then { d with headDue := false, cuts := d.cuts ++ [(d.headNo, d.headOut)] } else d

/-- FENCE (R144): it never holds issue, and with an empty set it orders nothing. -/
def execFence (m : MForm) (s : State) : Out :=
  runPure m.g (fun s => if fencePred m = 0 ∨ fenceSucc m = 0 then s
    else
      let s := s.send (.fence (fencePred m) (fenceSucc m) (scopeOf m) false)
      if (fenceSucc m).getLsbD 4 then s.modData (fun x => { x with q := x.q.map (fun e => (e.1, e.2.cutHead)) }) else s) s

/-- LOCK and UNLOCK (R143): the rights of a load, and a status landed in S[d]. -/
def lockRun (unlock : Bool) (m : MForm) (s : State) : Out :=
  runSlot m.g
    (fun s => do
      let s ← phaseNone s
      let s ← checkAccess .load (s.ea m) 1 1 s
      let s ← roomFor s
      landRoom 1 s)
    (fun s => match readAddr (addrRegs m) s with
      | .error e => .error e
      | .ok s =>
        let ps := s.piecesOf .load (s.ea m) 1
        .ok ((s.awaitLanding m.at16 [.s (dreg m) 0]).send (.access
          { cls := .ld, scope := 1, dst := .word (dreg m) 0,
            lock := some (unlock, paAt ps 0 / 128, ps.all (s.caches 1)) }))) s

def execLock (m : MForm) (s : State) : Out := lockRun false m s
def execUnlock (m : MForm) (s : State) : Out := lockRun true m s

end Sys2Proof.Machine
end

