-- ==== Sys2Proof/Machine/Atomic.lean ====
section
/-!
DEFINITION. Home-slice atomics and reductions (R181 to R186): the checks at issue, and the update that HOME_ATOMIC makes.
-/
namespace Sys2Proof.Machine

/-- The elementwise floating sum of AFADD (R183). -/
def faddElems (f : FFmt) (n a b : Nat) : Nat :=
  (List.range n).foldr (fun i acc =>
    f.round .rne ((f.value (fld a (i * f.width) f.width)).add (f.value (fld b (i * f.width) f.width))) + 2 ^ f.width * acc) 0

/-- `a` is less than `b` by the order of an atomic's class (R183). -/
def atomLt (cls a b : Nat) : Bool :=
  match cls with
  | 1 => decide (signed a 32 < signed b 32)
  | 3 => decide (signed a 64 < signed b 64)
  | _ => decide (a < b)

/-- The new value at the home (R183). -/
def atomNew (op : AtomOp) (cls old v cmp : Nat) : Nat :=
  let n := 8 * atomBytes cls
  let v := v % 2 ^ n
  match op with
  | .add => (old + v) % 2 ^ n
  | .min => if cls = 4 then fp32.round .rne ((fp32.value old).min (fp32.value v)) else if atomLt cls v old then v else old
  | .max => if cls = 4 then fp32.round .rne ((fp32.value old).max (fp32.value v)) else if atomLt cls old v then v else old
  | .band => old &&& v
  | .bor => old ||| v
  | .bxor => old ^^^ v
  | .swap => v
  | .cas => if old = cmp % 2 ^ n then v else old
  | .fadd =>
    match cls with
    | 5 => faddElems bf16 2 old v
    | 6 => faddElems fp16 2 old v
    | _ => faddElems fp32 1 old v

/-- The target of an atomic lies in a core scratchpad (R181). -/
def inScratch (s : State) (ps : List Piece) : Bool :=
  ps.any (fun p => p.win || (match s.targetOf p.pa with | .scratch _ => true | _ => false))

/-- The checks of an atomic or reduction (R134, R181, R182, R220). -/
def checkAtom (a n align : Nat) (s : State) : Except Stop State := do
  let s ← phaseNone s
  let s ← if a % align ≠ 0 then .error (.trap .align 0) else .ok s
  let s ← if a < 0x200000 ∨ inScratch s (s.piecesOf .atom a n) then .error (.trap .xlate 0) else .ok s
  let s ← checkAccess .atom a n align s
  roomFor s

/-- A pair of registers as one value, or one register (R182). -/
def State.wide (s : State) (cls d : Nat) : Nat :=
  if cls = 7 then (s.rd.sreg d).toNat + 2 ^ 64 * (s.rd.sreg (d + 1)).toNat else (s.rd.sreg d).toNat

/-- The registers of an operand of a class (R182). -/
def pairOf (cls d : Nat) : List Nat := if cls = 7 then [d, d + 1] else [d]

/-- An atomic (R183): Sd receives the old value, and holds the compare value of ACAS; Sv is the operand. -/
def atomic (op : AtomOp) (m : MForm) (s : State) : Out :=
  let cls := m.sz.toNat
  let n := atomBytes cls
  let d := dreg m
  let ws : List Write := if cls = 7 then [.s d 0, .s (d + 1) 0] else [.s d 0]
  runSlot m.g
    (fun s => do
      let s ← checkAtom (s.eaNoIdx m) n n s
      landRoom ws.length s)
    (fun s => match readAddr (m.base.toNat :: pairOf cls m.idx.toNat ++ (if op == .cas then pairOf cls d else [])) s with
      | .error e => .error e
      | .ok s =>
        let ps := s.piecesOf .atom (s.eaNoIdx m) n
        .ok (((s.awaitLanding m.at16 ws).send (.access
          { cls := .at, scope := scopeOf m, nc := ncOf ps, dst := if cls = 7 then .pair d else .old d cls, report := s.toReport ps,
            atom := some { op := op, cls := cls, elems := [(paAt ps 0, s.wide cls m.idx.toNat)], cmp := s.wide cls d,
                           mac := s.data.hdbg.getLsbD 0 } })).reporting (s.toReport ps))) s

def execAadd (m : MForm) (s : State) : Out := atomic .add m s
def execAmin (m : MForm) (s : State) : Out := atomic .min m s
def execAmax (m : MForm) (s : State) : Out := atomic .max m s
def execAand (m : MForm) (s : State) : Out := atomic .band m s
def execAor (m : MForm) (s : State) : Out := atomic .bor m s
def execAxor (m : MForm) (s : State) : Out := atomic .bxor m s
def execAswp (m : MForm) (s : State) : Out := atomic .swap m s
def execAcas (m : MForm) (s : State) : Out := atomic .cas m s
def execAfadd (m : MForm) (s : State) : Out := atomic .fadd m s

/-- The bytes that a reduction covers (R184). -/
def redBytes (m : MForm) (s : State) : Nat :=
  match dkind m with
  | 0 => atomBytes m.sz.toNat
  | 1 => 512
  | _ => (s.queue (dreg m)).slotBytes

/-- The elements of a reduction as (offset, operand) (R184). -/
def redElems (m : MForm) (s : State) : List (Nat × Nat) :=
  match dkind m with
  | 0 => [(0, (s.rd.sreg (dreg m)).toNat)]
  | 1 =>
    let en := s.laneSel (BitVec.ofNat 2 (m.at16.toNat % 4))
    let v := (s.rd.lreg (dreg m)).toNat
    ((List.range 128).filter (fun j => en.getLsbD j)).map (fun j => (4 * j, laneAt v j))
  | _ =>
    let bs := s.slotBytes (dreg m) 0
    (List.range (bs.length / 4)).map (fun j => (4 * j, leNat ((bs.drop (4 * j)).take 4)))

/-- A reduction (R184). -/
def reduction (op : AtomOp) (m : MForm) (s : State) : Out :=
  let cls := m.sz.toNat
  runSlot m.g
    (fun s => do
      let s ← if dkind m = 2 then (if dpop m then popSlots (dreg m) 1 s else needSlot (dreg m) 0 s) else .ok s
      checkAtom (s.eaNoIdx m) (redBytes m s) (if dkind m = 0 then atomBytes cls else 64) s)
    (fun s => do
      let s ← readAddr (m.base.toNat :: (if dkind m = 0 then [dreg m] else [])) s
      let s ← if dkind m = 2 then readSlot (dreg m) 0 s else .ok s
      let s ← if dkind m = 1 && s.me.badL.contains (dreg m) then .error (.fail .eccUe 0 false) else .ok s
      let ps := s.piecesOf .atom (s.eaNoIdx m) (redBytes m s)
      .ok ((s.send (.access
        { cls := .at, scope := scopeOf m, nc := ncOf ps, report := s.toReport ps,
          atom := some { op := op, cls := cls, elems := (redElems m s).map (fun e => (paAt ps e.1, e.2)),
                         mac := s.data.hdbg.getLsbD 0 } })).reporting (s.toReport ps))) s

def execRedadd (m : MForm) (s : State) : Out := reduction .add m s
def execRedmin (m : MForm) (s : State) : Out := reduction .min m s
def execRedmax (m : MForm) (s : State) : Out := reduction .max m s
def execRedfadd (m : MForm) (s : State) : Out := reduction .fadd m s

end Sys2Proof.Machine
end

