-- ==== Sys2Proof/Machine/Home.lean ====
section
/-!
DEFINITION. The events of the memory system and of landing (R55, R56, R126 to R131, R144 to R157, R163, R185, R186): accesses
performing at their homes in the orders of R146 to R151, data arriving and landing, table walks, L1 evictions, fences.
-/
namespace Sys2Proof.Machine

/-- An event that is not enabled changes nothing (assumption 12). -/
def idle (s : State) : Out := .next s

/-- Some home of an access lies on a die (R148); the ranges of a plain store all lie on one. -/
def Acc.homed (s : State) (a : Acc) (die : Nat) : Bool := a.touched.any (fun r => s.homeDie r.1 == die)

/-- An older access `a` that has not performed holds back a younger one `b` of the same context (R146 to R149). -/
def holdsBack (s : State) (die : Nat) (a b : Acc) : Bool :=
  !a.performed &&
    (match a.cls, b.cls with
     | .ld, .ld => true
     | .ld, _ => overlap a.touched b.touched
     | .st, .ld => false
     | _, .ld => overlap a.touched b.touched
     | _, _ => overlap a.touched b.touched || (a.homed s die && b.homed s die))

/-- An older message that is not done holds back a younger one of its context (R146 to R149): accesses, the loads that TKQRY counts as (R175), and
a FLUSH among the accesses that use L1 (R142). -/
def holdsBackMsg (s : State) (die : Nat) (a b : Msg) : Bool :=
  match a, b with
  | .access x, .access y => holdsBack s die x y
  | .access x, .token t => !x.performed && x.cls == .ld && t.op.reads
  | .token t, .access y => t.op.reads && !t.answered && y.cls == .ld
  | .token t, .token u => t.op.reads && !t.answered && u.op.reads
  | .access x, .flush .. => !x.performed && x.cls == .st && !x.cached.isEmpty
  | .flush .., .access y => !y.cached.isEmpty
  | .flush .., .flush .. => true
  | _, _ => false

/-- The bit of a class in a FENCE set (R42). -/
def AClass.bit : AClass → Nat
  | .ld => 0 | .st => 1 | .at => 2 | .en => 3 | .qa => 4

/-- A home lies within a scope of a core (R151). -/
def State.withinScope (s : State) (scope core pa : Nat) : Bool :=
  match scope with
  | 5 => true
  | 4 => s.homeDie pa != 5
  | 3 => s.homeDie pa == core / 96
  | 2 => (match s.targetOf pa with | .scratch c => c / 4 == core / 4 | _ => false)
  | _ => (match s.targetOf pa with | .scratch c => c == core | _ => false)

/-- The ordering class of a message of a context, where it has one (R144). -/
def Msg.cls : Msg → Option AClass
  | .access a => some a.cls
  | .flush .. => some .st
  | .token t => if t.op.reads then some .ld else none
  | .append .. => some .qa
  | .head .. => some .qa
  | .sxstop .. => some .en
  | .launch .. => some .en
  | _ => none

/-- A message has performed, as far as a fence asks. -/
def Msg.done : Msg → Bool
  | .access a => a.performed
  | .token t => t.answered
  | .launch _ _ _ _ st => st.isSome
  | .sxstop _ _ told => told
  | _ => false

/-- The scratchpad in which an end of a splice lies; that of a saved context counts as in the package. -/
def QEnd.home (e : QEnd) : Nat := if 1000 ≤ e.core then 0x30000000000 else scratchPA e.core

/-- The homes of a message. -/
def Msg.homes (m : Msg) : List Nat :=
  match m with
  | .access a => a.touched.map (fun r => r.1)
  | .token t => [t.base]
  | .launch _ rs _ _ _ => rs.map (fun r => r.1)
  | .append _ b _ _ _ _ => [b.home]
  | .head _ a _ _ => [a.home]
  | _ => []

/-- A flight older than a place in the program order of a context. -/
def Flight.before (n : Nat) (f : Flight) (p core ctx : Nat) : Bool := decide (f.place n < p) && f.core == core && f.ctx == ctx

/-- Some home of a message lies within a scope, or it names none; SXSTOP counts as homed on the issuing die (R153). -/
def State.scoped (s : State) (scope core : Nat) (m : Msg) : Bool :=
  match m with
  | .sxstop .. => decide (3 ≤ scope)
  | _ => m.homes.isEmpty || m.homes.any (fun h => s.withinScope scope core h)

/-- An append, or the head message of a pop, older than a place in the program order of a context, has not left the context towards an end of
its splice within a scope (R144, R151). -/
def State.appendsDue (s : State) (p core ctx scope : Nat) : Bool :=
  let y := s.coreAt core
  let x := y.ctx ctx
  let near (e : QEnd) : Bool := s.withinScope scope core e.home
  (x.pend ++ x.shadow).any (fun w => decide (2 * w.no < p) && (match w.w with | .remote e .. => near e | _ => false)) ||
  (x.bind.array && [0, 1].any (fun b => match (y.arr.bank b).drain with
    | some o => decide (2 * o.no < p) && (match o.rem with | some e => near e | none => false)
    | none => false)) ||
  s.flight.any (fun e => e.2.before e.1 p core ctx && (match e.2.msg with
    | .access a => (match a.dst with | .slot _ _ _ (some e) => near e | _ => false)
    | _ => false)) ||
  s.ops.any (fun e => decide (2 * e.1 + 1 < p) && e.2.core == core && e.2.ctx == ctx && (match e.2.body with
    | .copy c => !c.slotSent && (match c.slot with | some (_, _, some e) => near e | _ => false)
    | _ => false)) ||
  x.q.any (fun e => e.2.mode == .spliceIn && near e.2.partner &&
    ((e.2.headDue && decide (2 * e.2.headNo < p)) || e.2.cuts.any (fun c => decide (2 * c.1 < p))))

/-- The fork edge of the engine issue with number `n` of a context (R153): it joins the store order as a store homed on the issuing die, and a FENCE
with EN after it holds it back (R151). -/
def State.forkFree (s : State) (n core ctx : Nat) : Bool :=
  s.flight.all (fun e => !e.2.before e.1 (2 * n + 1) core ctx ||
    (match e.2.msg with
     | .fence _ sc _ _ => !sc.getLsbD 3
     | .access a => a.performed || (a.cls != .ld && !a.homed s (core / 96))
     | .token t => t.answered || !t.op.reads
     | .flush .. => false
     | _ => true))

/-- The issue of an older engine operation of the context, which counts as a store homed on the issuing die, has not performed (R151, R153). -/
def State.issuesDue (s : State) (p core ctx scope : Nat) : Bool :=
  decide (3 ≤ scope) && s.ops.any (fun e => decide (2 * e.1 + 1 < p) && e.2.core == core && e.2.ctx == ctx && !e.2.started &&
    !s.forkFree e.1 core ctx)

/-- Every predecessor that is homed within a scope, of a fence with number `n`, has performed (R151). -/
def State.fencePredsDone (s : State) (n : Nat) (f : Flight) (pred : BitVec 5) (scope : Nat) : Bool :=
  !(pred.getLsbD 3 && s.issuesDue (f.place n) f.core f.ctx scope) &&
  !(pred.getLsbD 4 && s.appendsDue (f.place n) f.core f.ctx scope) &&
  s.flight.all (fun e => !(e.2.before e.1 (f.place n) f.core f.ctx &&
    (match e.2.msg.cls with | some c => pred.getLsbD c.bit | none => false) && !e.2.msg.done && s.scoped scope f.core e.2.msg))

/-- No marker or acknowledgement of a fence is in flight (R152). -/
def State.markersDone (s : State) (n : Nat) : Bool :=
  s.flight.all (fun e => match e.2.msg with
    | .marker k _ => k != n
    | .ack k _ => k != n
    | _ => true)

/-- The message with number `n` may perform (R146 to R151): no older access of its context holds it back, and no FENCE that is not yet complete has
its class after it. -/
def State.mayPerform (s : State) (n : Nat) (f : Flight) : Bool :=
  s.flight.all (fun e => !e.2.before e.1 (f.place n) f.core f.ctx ||
    (match e.2.msg with
     | .fence _ sc _ _ => (match f.msg.cls with | some c => !sc.getLsbD c.bit | none => true)
     | m => !holdsBackMsg s (f.core / 96) m f.msg))

/-- A FENCE with EN after it is not yet complete: the context does not observe a completion object (R144, R151). -/
def State.enFenced (s : State) (c k : Nat) : Bool :=
  s.flight.any (fun e => e.2.core == c && e.2.ctx == k && (match e.2.msg with | .fence _ sc _ _ => sc.getLsbD 3 | _ => false))

/-- Bytes `b` of range (pa, n) with the bytes of `ws` that fall into it laid over (R146). -/
def overlay (pa : Nat) (bs : List Byte) (ws : List (Nat × List Byte)) : List Byte :=
  (List.zip (List.range bs.length) bs).map (fun p =>
    ws.foldl (fun b w => if w.1 ≤ pa + p.1 ∧ pa + p.1 < w.1 + w.2.length then w.2.getD (pa + p.1 - w.1) b else b) p.2)

/-- The older plain stores of the same context that have not performed, oldest first (R146). -/
def State.olderStores (s : State) (n : Nat) (f : Flight) : List (Nat × List Byte) :=
  s.flight.flatMap (fun e =>
    if e.2.before e.1 (f.place n) f.core f.ctx then
      (match e.2.msg with | .access a => if !a.performed && a.cls == .st then a.writes else [] | _ => [])
    else [])

/-- An access through L1 uses a line by virtual address `va` (R127): it is brought in where it is missing. -/
def State.touchL1 (s : State) (c : Nat) (asn : BitVec 16) (va line : Nat) (at_ : Nat := 0) : State :=
  match Tab.find (s.coreAt c).l1 line with
  | some l =>
    if (l.asn == asn && l.va == va) || l.users.contains (asn, va) then s
    else s.modCore c (fun k => { k with l1 := k.l1.put line { l with users := (asn, va) :: l.users } })
  | none => s.fillLine c line { asn := asn, va := va, data := s.mem.readBytes (line * 128) 128, dirty := 0 } at_

/-- A byte as a core sees it through L1, where the line is present (R127). -/
def State.l1Byte (s : State) (c : Nat) (pa : Nat) : Byte :=
  match Tab.find (s.coreAt c).l1 (pa / 128) with
  | some l => l.data.getD (pa % 128) 0
  | none => s.mem.read pa

/-- A range cut at the bounds of lines. -/
def cutLines (r : Nat × Nat) : List (Nat × Nat) :=
  (linesOf [r]).map (fun l => (max r.1 (128 * l), min (r.1 + r.2) (128 * l + 128) - max r.1 (128 * l)))

/-- The virtual address of the line that holds a physical address, by the range of the access. -/
def Cached.lineVa (k : Cached) (pa : Nat) : Nat := (k.va + (pa - k.pa)) / 128 * 128

/-- A range of an access read (R127, R128): line by line through L1, or at its home. What it asks of a bank gets there in cycle `at_`, or now. -/
def State.readRange (s : State) (c : Nat) (a : Acc) (r : Nat × Nat) (at_ : Nat) : State × List Byte :=
  match a.cachedAt r.1 with
  | some k =>
    (cutLines r).foldl (fun (t : State × List Byte) (p : Nat × Nat) =>
      let u := t.1.touchL1 c a.asn (k.lineVa p.1) (p.1 / 128) at_
      (u, t.2 ++ (List.range p.2).map (fun i => u.l1Byte c (p.1 + i)))) (s, [])
  | none => (s.useHome (a.ncAt r.1) false [r] at_, s.homeBytes r.1 r.2)

/-- The destination is a register, so that the access is a register load (R129). -/
def ADst.isReg : ADst → Bool
  | .none => false
  | .slot .. => false
  | .latch _ => false
  | _ => true

/-- A byte written into an L1 line; `dirty` marks it dirty. -/
def Line.set (l : Line) (i : Nat) (b : Byte) (dirty : Bool) : Line :=
  { l with data := l.data.set i b, dirty := if dirty then l.dirty ||| (1#128 <<< i) else l.dirty }

/-- Bytes written into the lines of a core that are present (R127). -/
def State.l1Write (s : State) (c : Nat) (dirty : Bool) : Nat → List Byte → State
  | _, [] => s
  | pa, b :: r =>
    let s := match Tab.find (s.coreAt c).l1 (pa / 128) with
      | some l => s.modCore c (fun k => { k with l1 := k.l1.put (pa / 128) (l.set (pa % 128) b dirty) })
      | none => s
    s.l1Write c dirty (pa + 1) r

/-- The marks of uncorrectable words that a write covers whole are cleared, and the mixed-atomic records of granules that it
covers (R186, R375); flipped bits of such a word are gone. -/
def State.covered (s : State) (w : Nat × List Byte) : State :=
  { s with
    soft := s.soft.filter (fun e => !(decide (w.1 ≤ e.1 % 0x1000000000000000 * 32) &&
      decide (e.1 % 0x1000000000000000 * 32 + 32 ≤ w.1 + w.2.length)))
    bad := s.bad.filter (fun x => !(decide (w.1 ≤ x * 32) && decide (x * 32 + 32 ≤ w.1 + w.2.length)))
    granules := s.granules.filter (fun g => !(decide (w.1 ≤ g.1 * 16) && decide (g.1 * 16 + 16 ≤ w.1 + w.2.length))) }

/-- One write of a store performing, in L1 line by line or at its home (R127, R136). -/
def State.storeOne (s : State) (c : Nat) (a : Acc) (w : Nat × List Byte) : State :=
  match a.cachedAt w.1 with
  | some k =>
    (cutLines (w.1, w.2.length)).foldl (fun (t : State) p =>
      (t.touchL1 c a.asn (k.lineVa p.1) (p.1 / 128)).l1Write c true p.1 ((w.2.drop (p.1 - w.1)).take p.2)) s
  | none => (({ s with mem := s.mem.writeBytes w.1 w.2 } : State).covered w).l1Write c false w.1 w.2

/-- The lines that the writes of a store use at their homes, by the NC of their pages (R367). -/
def State.storeHome (s : State) (a : Acc) : State :=
  let rs := (a.writes.map (fun w => (w.1, w.2.length))).filter (fun r => (a.cachedAt r.1).isNone)
  (s.useHome false true (rs.filter (fun r => !a.ncAt r.1))).useHome true true (rs.filter (fun r => a.ncAt r.1))

/-- A flight replaced. -/
def State.setFlight (s : State) (n : Nat) (f : Flight) : State := { s with flight := s.flight.put n f }

def State.dropFlight (s : State) (n : Nat) : State := { s with flight := s.flight.drop n }

/-- The locked lines in the set of a line of one die (R143; assumption 87). -/
def State.setLocks (s : State) (line : Nat) : Nat :=
  (s.l2locks.filter (fun l => l2Set l == l2Set line && fld l 30 2 == fld line 30 2)).length

/-- The status of LOCK or UNLOCK (R143) and its effect: the context's locks, the locked lines, and the line brought into L2. -/
def lockStatus (s : State) (f : Flight) (unlock : Bool) (line : Nat) (cacheable : Bool) : State × Nat :=
  let x := s.ctxAt f.core f.ctx
  let mine := x.locks.contains line
  if !cacheable then (s, 5)
  else if unlock then
    (if mine then
      (({ s with l2locks := s.l2locks.erase line } : State).modCtx f.core f.ctx (fun x => { x with locks := x.locks.erase line }), 0)
     else (s, 4))
  else if mine then (s, 3)
  else if x.locks.length ≥ x.bind.lockq then (s, 1)
  else if s.setLocks line ≥ 12 then (s, 2)
  else ((({ s with l2locks := line :: s.l2locks } : State).modCtx f.core f.ctx (fun x => { x with locks := line :: x.locks })).useLine
    .read false false line, 0)

/-- A load or store performs (R145): its data is bound or its bytes are written. -/
def State.perform (s : State) (n : Nat) (f : Flight) (a : Acc) : State :=
  match a.lock with
  | some (u, line, ok) =>
    let r := lockStatus s f u line ok
    r.1.setFlight n { f with msg := .access { a with performed := true, data := leBytes r.2 8 } }
  | none =>
    let older := s.olderStores n f
    let flaw := a.reads.any (fun r => s.badRange r.1 r.2)
    let r := a.reads.foldl (fun (t : State × List Byte) e =>
      let u := t.1.readRange f.core a e (if a.dst.isReg then f.since + 180 else 0)
      (u.1, t.2 ++ overlay e.1 u.2 older)) (s, [])
    let s := a.writes.foldl (fun t w => t.storeOne f.core a w) (r.1.storeHome a)
    if a.cls == .st && !a.cached.isEmpty then s.dropFlight n
    else
      let b : Acc := { a with performed := true, data := r.2, fault := if flaw then some .eccUe else none }
      s.setFlight n { f with msg := .access b }

/-- Blocks tagged (R91, R92). -/
def State.tagBlocks (s : State) (pa blocks : Nat) (t : Byte) : State :=
  { s with tags := (List.range blocks).foldl (fun ts b => ts.put (pa / 512 + b) t) s.tags }

/-- The bits of a queue's presence map set at one slot. -/
def QDesc.setPresent (d : QDesc) (idx : Nat) : QDesc := { d with pmap := d.pmap ||| (1#256 <<< idx) }

/-- A physical range of a core scratchpad meets a present queue slot (R82). -/
def State.presentAt (s : State) (pa n : Nat) : Bool :=
  match s.targetOf pa with
  | .scratch c => (s.coreAt c).ctxs.any (fun e => e.2.status != .free && e.2.q.any (fun q =>
      (q.2.mode == .localQ || q.2.mode == .spliceIn) &&
      (List.range q.2.cap).any (fun i => q.2.pmap.getLsbD i &&
        overlap [(spanPA c e.2 (q.2.slotOff i), q.2.slotBytes)] [(pa, n)])))
  | _ => false

/-- A write at the home marks its region as dirty (R163). -/
def State.dirtyAt (s : State) (pa : Nat) : State :=
  match s.own.regionAt pa with
  | some r => { s with own := { s.own with regions := s.own.regions.put r.base { r with dirty := true } } }
  | none => s

/-- An asynchronous cause queued for a context (R208). -/
def State.queueCause (s : State) (c k : Nat) (a : AsyncCause) : State :=
  s.modCtx c k (fun x => { x with async := x.async ++ [a] })

/-- A wait of context `k` of core `c` is on a completion object, or on a slot of a list (R271). -/
def State.waitsOn (s : State) (c k : Nat) (comp : Option Nat) (slots : List (Nat × Nat)) : Bool :=
  let x := s.ctxAt c k
  let hits (w : Wait) : Bool := match w with
    | .object pa _ => comp == some pa
    | .slot q i => slots.contains (q, (x.queue q).at i)
    | _ => false
  (match x.wait with | some w => hits w | none => false) ||
    ((s.coreAt c).running == some k && (s.coreAt c).freeze.any (fun f => match f with
      | .wait w => hits w
      | .absent q i => slots.contains (q, i)
      | _ => false))

/-- A cause queued for a context, taken at once where its core or the context waits for what the cause is about (R208, R271). -/
def State.causeNow (s : State) (c k : Nat) (a : AsyncCause) (now : Bool) : State :=
  if now then
    s.modCtx c k (fun x => { x with async := a :: x.async, now := true, wait := none,
                                    status := if x.status = .waiting then .ready else x.status })
  else s.queueCause c k a

/-- A wait that has come to the object of an operation that has already stopped takes the cause at once (R271). -/
def State.lateWait (s : State) (c k : Nat) : State :=
  match (s.ctxAt c k).async.find? (fun a => a.comp.isSome && s.waitsOn c k a.comp []) with
  | some a => (s.modCtx c k (fun x => { x with async := x.async.erase a })).causeNow c k a true
  | none => s

/-- The task context of a flight: the held context for the service context (R210). -/
def State.flightCtx (s : State) (f : Flight) : Nat := if f.ctx = 4 then (s.coreAt f.core).held.getD 4 else f.ctx

/-- The latch that a core is frozen on. -/
def Core.latchFrozen (c : Core) (i : Nat) : Bool := c.freeze.contains (.latch i)

/-- A destination page of an operation has NC = 1. -/
def EngOp.ncAt (o : EngOp) (pa : Nat) : Bool :=
  match o.body with
  | .copy c => c.dst.any (fun r => r.any (fun p => p.nc && decide (p.pa ≤ pa) && decide (pa < p.pa + p.len)))
  | .sparse _ => false

/-- A write of an operation under a token marks its region as dirty (R163). -/
def State.dirtyFor (s : State) (o : EngOp) (pa : Nat) : State :=
  if (match s.own.regionAt pa with | some r => o.engaged.contains r.base | none => false) then s.dirtyAt pa else s

/-- One engine write at the home (R82, R163, R270): by address into a present slot it is dropped, with SLOT_FULL to the issuer. -/
def State.engineWrite (s : State) (o : EngOp) (slot : Bool) (w : Nat × List Byte) : State :=
  if !slot && s.presentAt w.1 w.2.length then s.queueCause o.core o.ctx { cause := .slotFull, ent := o.ent }
  else (((({ s with mem := s.mem.writeBytes w.1 w.2 } : State).covered w).useHome (o.ncAt w.1) true [(w.1, w.2.length)]).dirtyFor o w.1)

/-- A copy after one of its writes has performed. -/
def EngOp.wrote (o : EngOp) : EngOp :=
  match o.body with
  | .copy c => { o with body := .copy { c with left := c.left - 1 } }
  | _ => o

/-- A copy has read everything and all its writes have performed. -/
def CopyOp.quiet (c : CopyOp) : Bool := c.todo.isEmpty && c.left == 0

/-- The destination slot of a CPY becomes present and tagged when its last byte lands (R263). -/
def State.slotDone (s : State) (o : EngOp) : State :=
  match o.body with
  | .copy c =>
    match c.slot with
    | some (q, idx, none) =>
      if c.quiet then
        let x := s.ctxAt o.core o.ctx
        let d := x.queue q
        (s.tagBlocks (spanPA o.core x (d.slotOff idx)) (d.ssz + 1) (tagByte c.d.tfmt c.d.tswz)).modCtx o.core o.ctx
          (fun x => x.modQ q (fun d => d.setPresent idx))
      else s
    | _ => s
  | _ => s

/-- The writes of one piece of operation `k` perform (R270). -/
def State.enginePerform (s : State) (n k : Nat) (ws : List (Nat × List Byte)) (slot : Bool) : State :=
  let s := s.dropFlight n
  match Tab.find s.ops k with
  | some o =>
    let s := ws.foldl (fun t w => t.engineWrite o slot w) s
    let o := o.wrote
    ({ s with ops := s.ops.put k o } : State).slotDone o
  | none => s

/-- The fields of a launch record keep their ranges (R331). -/
def recordOk (b : Nat) : Bool :=
  fld b 0 5 == 0 && fld b 87 9 == 0 && fld b 412 100 == 0 && (fld b 96 32 != 0 || fld b 128 32 == 0) &&
    fld b 160 16 != 0 && fld b 192 3 == 0 && fld b 256 5 == 0 && fld b 320 4 == 0

/-- Launch queue `q`, as 64 × die + queue (R329). -/
def State.lq (s : State) (q : Nat) : LQueue := Tab.get {} s.thyme.queues q

def State.modLq (s : State) (q : Nat) (f : LQueue → LQueue) : State :=
  { s with thyme := { s.thyme with queues := s.thyme.queues.put q (f (s.lq q)) } }

/-- A record enqueued (R329). -/
def State.enqueue (s : State) (r : LRec) : State := s.modLq r.q (fun l => { l with recs := l.recs ++ [r] })

/-- A queue takes another record (R329). -/
def LQueue.takes (l : LQueue) : Bool := l.en && decide (l.recs.length < 64)

/-- Thyme's judgement of a record that LNCH submits (R341): the status, tested in the order of its codes, and the state after. -/
def State.submit (s : State) (r : LRec) (asn : BitVec 16) : State × Nat :=
  let l := s.lq r.q
  if !l.takes then (s, 1) else if l.asn != asn then (s, 2) else if !recordOk r.bits then (s, 3) else (s.enqueue r, 0)

/-- The register writes that an answer makes, in the order of its landing entries (R133, R135, R138, R183). -/
def ADst.writes (d : ADst) (bs : List Byte) : List Write :=
  match d with
  | .scalar r cls => [.s r (extend cls (leNat bs))]
  | .pair r => [.s r (BitVec.ofNat 64 (leNat (bs.take 8))), .s (r + 1) (BitVec.ofNat 64 (leNat (bs.drop 8)))]
  | .lanes r m => [.l r m (BitVec.ofNat 4096 (leNat bs))]
  | .old r cls => [.s r (if cls = 1 then BitVec.ofInt 64 (signed (leNat bs) 32) else BitVec.ofNat 64 (leNat bs))]
  | .word r _ => [.s r (BitVec.ofNat 64 (leNat bs))]
  | _ => []

/-- Landing entries of flight `n` filled in order with the writes that have arrived (R129). -/
def fillLandings (n : Nat) (fault : Option Cause) : List Write → List Landing → List Landing
  | _, [] => []
  | [], l => l
  | w :: ws, e :: r =>
    if e.flight = n then { e with arrived := true, w := w, fault := fault } :: fillLandings n fault ws r
    else e :: fillLandings n fault (w :: ws) r

/-- A request that a failed link has lost, or whose home is beyond reach (R392, R393): LINK_DOWN is raised where a register load's data
would land, and for any other request at the issuer's next stop point, or at once where the issuer waits for it. A fence stays, so
that its successors never perform. -/
def State.loseRequest (s : State) (n : Nat) (f : Flight) : State :=
  let k := s.flightCtx f
  let land (ws : List Write) : State := (s.dropFlight n).modCtx f.core f.ctx (fun x => { x with land := fillLandings n (some .linkDown) ws x.land })
  match f.msg with
  | .access a =>
    (match a.dst with
     | .none => (s.dropFlight n).causeNow f.core k { cause := .linkDown } false
     | .slot q i _ _ => (s.dropFlight n).causeNow f.core k { cause := .linkDown } (s.waitsOn f.core k none [(q, i)])
     | .latch i => (s.dropFlight n).causeNow f.core k { cause := .linkDown } ((s.coreAt f.core).latchFrozen i)
     | d => land (d.writes []))
  | .token t => land [.s t.d 0, .s (t.d + 1) 0]
  | .launch .. => land [.s 0 0]
  | .fence .. => s.causeNow f.core k { cause := .linkDown } false
  | _ => s.dropFlight n

/-- Some home of a message is beyond the reach of its core (R392). -/
def State.cutOff (s : State) (f : Flight) : Bool := f.msg.homes.any (fun h => !s.inReach (f.core / 96) h)

/-- Some home of a message lies in another package. -/
def State.afar (s : State) (m : Msg) : Bool := m.homes.any s.remote

/-- The destinations to which a context has requests in flight, older than fence `n`: each receives a marker (R390). -/
def State.markerDests (s : State) (n : Nat) (f : Flight) (scope : Nat) : List Nat :=
  (List.range (if scope = 4 then 5 else 6)).filter (fun d => s.flight.any (fun e =>
    e.2.before e.1 (f.place n) f.core f.ctx && e.2.msg.cls.isSome && e.2.msg.homes.any (fun h => s.homeDie h == d)))

/-- The markers of a fence, or of an arrival, go out to every destination (R152, R310). -/
def State.sendMarkers (s : State) (n : Nat) (f : Flight) (scope : Nat) (m : Msg) : State :=
  (s.markerDests n f scope).foldl (fun (t : State) d => t.launchFlight { core := f.core, ctx := f.ctx, msg := .marker n d })
    (s.setFlight n { f with msg := m })

/-- An operation told to end early (R280). -/
def EngOp.sxStopped (o : EngOp) : EngOp :=
  match o.body with | .sparse x => { o with body := .sparse { x with stop := true } } | _ => o

/-- HOME_ACCESS: a load, store, LOCK or FENCE in flight performs when the orders of its context allow (R145 to R152). A fence
whose predecessors have performed sends its markers (R152) or ends. The write of a copy's piece performs (R270), a FLUSH acts on L1 (R142), and an
SXSTOP reaches the engine (R280). Thyme reads and judges the record of LNCH (R341). -/
def execHomeAccess (n : Nat) (s : State) : Out :=
  match Tab.find s.flight n with
  | some f =>
    match f.msg with
    | .access a =>
      if !a.performed && f.admitted && a.atom.isNone && a.report.isEmpty && s.mayPerform n f then
        (if s.cutOff f then .next (s.loseRequest n f) else if s.afar f.msg then idle s else .next (s.perform n f a))
      else idle s
    | .fence p sc scope sent =>
      if s.fencePredsDone n f p scope then
        (if scope < 4 then .next (s.dropFlight n)
         else if !sent then .next (s.sendMarkers n f scope (.fence p sc scope true))
         else if s.markersDone n then .next (s.dropFlight n)
         else idle s)
      else idle s
    | .piece k ws sl rep =>
      if !rep.isEmpty || ws.any (fun w => s.remote w.1) then idle s else .next (s.enginePerform n k ws sl)
    | .flush asn lo k all inv =>
      if s.mayPerform n f then .next ((s.dropFlight n).flushL1 f.core f.ctx (f.ord.getD n) asn lo k all inv) else idle s
    | .sxstop ops st false =>
      if s.mayPerform n f && s.forkFree (f.ord.getD n) f.core f.ctx then
        .next (({ s with ops := s.ops.map (fun e => if ops.contains e.1 then (e.1, e.2.sxStopped) else e) } : State).setFlight n { f with msg := .sxstop ops st true })
      else idle s
    | .launch a rs asn p none =>
      if s.mayPerform n f && s.forkFree n f.core f.ctx && s.cutOff f then .next (s.loseRequest n f)
      else if s.mayPerform n f && s.forkFree n f.core f.ctx then
        let b := leNat (rs.flatMap (fun r => s.mem.readBytes r.1 r.2))
        let t := s.submit { bits := b, party := p, q := 64 * fld b 82 2 + fld b 76 6, addr := a } asn
        .next (t.1.setFlight n { f with msg := .launch a rs asn p (some t.2) })
      else idle s
    | _ => idle s
  | none => idle s

/-- The bytes of some addresses become undefined (R158). -/
def State.undefine (s : State) : List Nat → State
  | [] => s
  | a :: r => ({ s with mem := s.mem.write a (Config.freeByte s.fresh a) } : State).undefine r

/-- The atomics recorded for the granule of an address, as (address, bytes), the latest first (R158, R186). -/
def State.granule (s : State) (pa : Nat) : List (Nat × Nat) := Tab.get [] s.granules (pa / 16)

/-- The latest atomic recorded for a granule had another size, so that the mixed-atomic check refuses one of `n` bytes (R186). -/
def State.mixed (s : State) (pa n : Nat) : Bool := match s.granule pa with | g :: _ => g.2 != n | [] => false

/-- The offsets of `n` bytes at an address that atomics of other sizes have touched (R158). -/
def State.mixedBytes (s : State) (pa n : Nat) : List Nat :=
  ((List.range n).map (fun i => pa + i)).filter (fun b => (s.granule pa).any (fun g => g.2 != n && decide (g.1 ≤ b) && decide (b < g.1 + g.2)))

/-- One element of an atomic or reduction at the home (R183, R186): the L1 line of the issuing core is written back and dropped
first; bytes that atomics of other sizes have touched are undefined after it (R158). Answers the state and the old value. -/
def State.atomOne (s : State) (c : Nat) (t : Atom) (e : Nat × Nat) : State × Nat :=
  let n := atomBytes t.cls
  let s := match Tab.find (s.coreAt c).l1 (e.1 / 128) with
    | some l => (s.writeBack (e.1 / 128) l).modCore c (fun k => { k with l1 := k.l1.drop (e.1 / 128) })
    | none => s
  let old := leNat (s.mem.readBytes e.1 n)
  let bs := s.mixedBytes e.1 n
  let s : State := { s with mem := s.mem.writeBytes e.1 (leBytes (atomNew t.op t.cls old e.2 t.cmp) n),
                            granules := s.granules.put (e.1 / 16) ((e.1, n) :: (s.granule e.1).filter (fun g => g != (e.1, n))) }
  (if bs.isEmpty then s else { s.undefine bs with fresh := s.fresh + 1 }, old)

/-- The elements of an atomic in turn; the old value is that of the first. -/
def State.atomEach (s : State) (c : Nat) (t : Atom) : List (Nat × Nat) → State × Nat
  | [] => (s, 0)
  | e :: r =>
    let x := s.atomOne c t e
    ((x.1.atomEach c t r).1, x.2)

/-- An atomic or reduction at the home: with the mixed-atomic check set, one that meets a granule of another size does not perform (R186).
Answers the state, the old value and whether it was refused. -/
def State.atomAll (s : State) (c : Nat) (t : Atom) : State × Nat × Bool :=
  if t.mac && t.elems.any (fun e => s.mixed e.1 (atomBytes t.cls)) then (s, 0, true)
  else
    let r := s.atomEach c t t.elems
    (r.1, r.2, false)

/-- HOME_ATOMIC: an atomic or reduction reads and writes at its home in one step (R183 to R186). -/
def execHomeAtomic (n : Nat) (s : State) : Out :=
  match Tab.find s.flight n with
  | some f =>
    match f.msg with
    | .access a =>
      match a.atom with
      | some t =>
        if !a.performed && f.admitted && a.report.isEmpty && s.mayPerform n f then
          if s.cutOff f then .next (s.loseRequest n f)
          else if s.afar f.msg then idle s
          else
          let es := t.elems.map (fun e => (e.1, atomBytes t.cls))
          let r := ((s.useHome false true (es.filter (fun e => !a.ncAt e.1))).useHome true true (es.filter (fun e => a.ncAt e.1))).atomAll f.core t
          let b : Acc := { a with performed := true, data := leBytes r.2.1 (atomBytes t.cls),
                                  fault := if r.2.2 then some .mixedAtomic else none }
          .next (r.1.setFlight n { f with msg := .access b })
        else idle s
      | none => idle s
    | _ => idle s
  | none => idle s

/-- A landing entry answered with a status in the register that it names. -/
def answerLanding (n : Nat) (v : Word) (l : List Landing) : List Landing :=
  l.map (fun e => if e.flight = n then
    { e with arrived := true, w := match e.w with | .s d _ => .s d v | w => w } else e)

/-- The data of an access are not yet read from their bank (R368). -/
def State.dataAway (s : State) (a : Acc) : Bool :=
  s.atBank (a.reads ++ match a.atom with | some t => t.elems.map (fun e => (e.1, atomBytes t.cls)) | none => [])

/-- LOAD_DATA_ARRIVAL: the answer of a register load, atomic or token instruction reaches the landing buffer (R129). A refused
reduction raises MIXED_ATOMIC at the first bundle that issues after the answer (R186). -/
def execLoadDataArrival (n : Nat) (s : State) : Out :=
  match Tab.find s.flight n with
  | some f =>
    match f.msg with
    | .access a =>
      if a.performed && !s.dataAway a then
        match a.dst with
        | .slot .. => idle s
        | .latch _ => idle s
        | .none => if a.cls == .at then
            (match a.fault with
             | some c => .next ((s.dropFlight n).modCtx f.core (s.flightCtx f)
                 (fun x => { x with async := x.async ++ [{ cause := c, addr := some f.addr }] }))
             | none => .next (s.dropFlight n))
          else idle s
        | d => if s.returning a.reads then idle s
          else .next ((s.dropFlight n).modCtx f.core f.ctx
            (fun x => { x with land := fillLandings n a.fault (d.writes a.data) x.land }))
      else idle s
    | .token t =>
      if t.answered then
        .next ((s.dropFlight n).modCtx f.core f.ctx
          (fun x => { x with land := fillLandings n t.fault [.s t.d t.status, .s (t.d + 1) t.status2] x.land }))
      else idle s
    | .sxstop ops st told =>
      if !told || ops.any (fun k => (Tab.find s.ops k).isSome) then idle s
      else .next ((s.dropFlight n).modCtx f.core f.ctx (fun x => { x with land := answerLanding n (BitVec.ofNat 64 st) x.land }))
    | .launch _ _ _ _ (some st) =>
      .next ((s.dropFlight n).modCtx f.core f.ctx (fun x => { x with land := answerLanding n (BitVec.ofNat 64 st) x.land }))
    | _ => idle s
  | none => idle s

/-- A write to the registers of a context; S0, P0 and LP0 discard (R56). The mark of an uncorrectable lane register covers the whole register and goes
with a write of all its lanes (R255; assumption 96). -/
def Ctx.write (x : Ctx) (w : Write) : Ctx :=
  match w with
  | .s n v => if n = 0 then x else { x with regs := { x.regs with s := x.regs.s.put n v }, badS := x.badS.filter (fun b => b != n) }
  | .p n v => if n = 0 then x else
      { x with regs := { x.regs with p := if v then x.regs.p ||| (1#8 <<< n) else x.regs.p &&& ~~~(1#8 <<< n) } }
  | .x n v => { x with regs := { x.regs with x := x.regs.x.put n v } }
  | .l n m v =>
    let keep := lanesOf (fun j => if m.getLsbD j then 4294967295 else 0)
    let old := x.regs.lreg n
    { x with regs := { x.regs with l := x.regs.l.put n ((v &&& keep) ||| (old &&& ~~~keep)) },
             badL := if m = BitVec.allOnes 128 then x.badL.filter (fun b => b != n) else x.badL }
  | .lp n m v => if n = 0 then x else
      { x with regs := { x.regs with lp := x.regs.lp.put n ((v &&& m) ||| (Tab.get 0 x.regs.lp n &&& ~~~m)) } }
  | .d n v => { x with regs := { x.regs with d := x.regs.d.put n v } }
  | .slot .. => x
  | .remote .. => x

/-- A slot of a local or splice-in queue filled: its bytes, its tag, its presence bit (R78, R92). -/
def State.fillSlot (s : State) (c k q idx : Nat) (tag : Byte) (data : List Byte) : State :=
  let x := s.ctxAt c k
  let d := x.queue q
  let pa := spanPA c x (d.slotOff idx)
  let s := ({ s with mem := s.mem.writeBytes pa data } : State).covered (pa, data)
  let s := s.tagBlocks pa (d.ssz + 1) tag
  s.modCtx c k (fun x => x.modQ q (fun d => d.setPresent idx))

/-- A write that lands for context `k` of core `c` (R55): a register, a local slot, or an append sent along the splice, in place `o` of program
order (R54). -/
def State.landWrite (s : State) (c k o : Nat) (w : Write) : State :=
  match w with
  | .slot q idx tag data => s.fillSlot c k q idx tag data
  | .remote dst q idx tag data => s.postAt c k o (.append ⟨c, k, q⟩ dst idx tag data [])
  | w => s.modCtx c k (fun x => x.write w)

/-- Writes applied in the order of R56: by canonical slot, and within a slot by issue. -/
def State.landAll (s : State) (c k : Nat) (ws : List Pend) : State :=
  (List.range 10).foldl (fun t sl => (ws.filter (fun w => w.slot == sl)).foldl (fun t w => t.landWrite c k w.no w.w) t) s

/-- A write that lands now: the slot that issued it, its place in the order of issue, and the write. -/
abbrev DueWrite := Nat × Nat × Write

/-- A write put into its place among those that land with it: by canonical slot, and within a slot by issue (R56). -/
def insertDue (e : DueWrite) : List DueWrite → List DueWrite
  | [] => [e]
  | h :: r => if e.1 < h.1 ∨ (e.1 = h.1 ∧ e.2.1 < h.2.1) then e :: h :: r else h :: insertDue e r

/-- A cause that landings raise (R208): the slot, the cause, whether it is a SIG of the residue check, and TRAPADDR. -/
abbrev LandCause := Nat × Cause × Bool × Word

/-- The earliest in canonical order (R208). -/
def firstCause : List LandCause → Option LandCause
  | [] => none
  | e :: r => match firstCause r with
    | some f => if f.1 < e.1 then some f else some e
    | none => some e

/-- Some register load of the context is due and has not arrived (R129). -/
def Ctx.late (x : Ctx) : Bool := x.land.any (fun l => l.due == 0 && !l.arrived)

/-- An exposed write lands now: a slot's write as it is due, a register's once every load that is due with it has arrived (R19, R56). -/
def Ctx.lands (x : Ctx) (p : Pend) : Bool := p.due == 0 && (p.w.toSlot || !x.late)

/-- A landing entry leaves the buffer now. `mine` says that its context issues, so that it may take a cause. -/
def Ctx.settles (x : Ctx) (mine : Bool) (l : Landing) : Bool := l.due == 0 && l.arrived && (if l.fault.isSome then mine else !x.late)

/-- An exposed write after its due cycle (R216): gone, or, where its residue disagrees for the first time, due again after its latency. -/
def Pend.after (p : Pend) : Option Pend :=
  if p.flaw ≠ 0 ∧ p.again = false then some { p with due := p.lat, flaw := p.flaw - 1, again := true } else none

/-- The due writes of one context land in the order of R56: exposed writes and arrived landing entries (R55, R129). Those that meet an
error are not made, and the earliest in canonical order is taken where the context issues (R131, R208, R216). -/
def State.landCtx (s : State) (c k : Nat) (pends lands : Bool) : State :=
  let x := s.ctxAt c k
  let mine := k == (s.coreAt c).issuing
  let ps := if pends then x.pend.filter (fun p => x.lands p && (p.flaw == 0 || mine)) else []
  let ls := if lands then x.land.filter (x.settles mine) else []
  let s := s.modCtx c k (fun y => { y with
    pend := y.pend.filterMap (fun p => if ps.contains p then p.after else some p)
    land := y.land.filter (fun l => !ls.contains l) })
  let qk := if k = 4 then (s.coreAt c).held.getD 4 else k
  let ws : List DueWrite := (ps.filter (fun p => p.flaw == 0)).map (fun p => (p.slot, 2 * p.no, p.w)) ++
    (ls.filter (fun l => l.fault.isNone)).map (fun l => (l.slot, 2 * l.flight + 1, l.w))
  let s := (ws.foldl (fun l e => insertDue e l) []).foldl (fun (t : State) e => t.landWrite c (if e.2.2.toSlot then qk else k) (e.2.1 / 2) e.2.2) s
  let es : List LandCause := (ps.filter (fun p => p.flaw != 0 && p.again)).map (fun p => (p.slot, .sig, true, p.addr)) ++
    ls.filterMap (fun l => l.fault.map (fun e => (l.slot, e, false, l.addr)))
  match firstCause es with
  | some e =>
    let cur := s.cur
    let s := ({ s with cur := c } : State).loadBun.takeCause e.2.1 e.1 0 e.2.2.1 e.2.2.2
    { s with cur := cur }
  | none => s

/-- What is due of the task contexts of core `c` that do not issue lands (R19). -/
def State.landOthers (s : State) (c : Nat) : State :=
  ((s.coreAt c).ctxs.filter (fun e => decide (e.1 < 4) && e.2.status != .held && !(e.2.pend.isEmpty && e.2.land.isEmpty) &&
    e.1 != (s.coreAt c).running.getD 4)).foldl (fun (t : State) e => t.landCtx c e.1 true true) s

/-- EXPOSED_WRITE_LANDING: the due writes of the core's exposed pipelines land (R55, R56). -/
def execExposedWriteLanding (c : Nat) (s : State) : Out :=
  .next ((List.range 5).foldl (fun t k => t.landCtx c k true false) s)

/-- REGISTER_LANDING: the due entries of a context's landing buffer whose data has arrived are written (R129); an uncorrectable
error or a token or mixed-atomic refusal is raised here, its destination unwritten (R131, R208). -/
def execRegisterLanding (c k : Nat) (s : State) : Out := .next (s.landCtx c k false true)

/-- The 32-byte words, counted through a list of ranges, that carry an uncorrectable error (R131). -/
def State.badOffsets (s : State) (rs : List (Nat × Nat)) : List Nat :=
  let offs : List (Nat × Nat × Nat) :=
    (rs.foldl (fun (r : List (Nat × Nat × Nat) × Nat) e => (r.1 ++ [(e.1, e.2, r.2)], r.2 + e.2)) ([], 0)).1
  offs.flatMap (fun e => (List.range (e.2.1 / 32)).filterMap (fun i =>
    if s.badRange (e.1 + 32 * i) 32 then some (e.2.2 / 32 + i) else none))

/-- The write of a performed access into the queue slot it was issued for (R78, R131): words with an uncorrectable error are
marked in the slot. -/
def State.landSlot (s : State) (n : Nat) (f : Flight) (a : Acc) (q idx : Nat) (tag : Byte) (rem : Option QEnd) : State :=
  let qk := if f.ctx = 4 then (s.coreAt f.core).held.getD 4 else f.ctx
  let d := (s.ctxAt f.core qk).queue q
  let s := s.dropFlight n
  match rem with
  | some e => s.postAt f.core qk n (.append ⟨f.core, qk, q⟩ e idx tag a.data (if a.fault.isSome then s.badOffsets a.reads else []))
  | none =>
    let s := s.fillSlot f.core qk q idx tag a.data
    if a.fault.isSome then
      let pa := spanPA f.core (s.ctxAt f.core qk) (d.slotOff idx)
      { s with bad := (s.badOffsets a.reads).map (fun i => pa / 32 + i) ++ s.bad }
    else s

/-- SLOT_LANDING: the last byte of a slot's load lands and its presence bit is set (R78, R135). -/
def execSlotLanding (n : Nat) (s : State) : Out :=
  match Tab.find s.flight n with
  | some f =>
    match f.msg with
    | .access a =>
      match a.dst with
      | .slot q idx tag rem => if a.performed && !s.dataAway a then .next (s.landSlot n f a q idx tag rem) else idle s
      | _ => idle s
    | _ => idle s
  | none => idle s

/-- LATCH_READY: the last gathered row lands and the latch's ready bit is set (R139). -/
def execLatchReady (n : Nat) (s : State) : Out :=
  match Tab.find s.flight n with
  | some f =>
    match f.msg with
    | .access a =>
      match a.dst with
      | .latch i => if a.performed && !s.dataAway a then
          .next ((s.dropFlight n).modCore f.core (fun c => c.setLatch i
            { c.latch i with ready := true, data := a.data ++ (c.latch i).data.drop a.data.length,
                             bad := s.badOffsets a.reads }))
        else idle s
      | _ => idle s
    | _ => idle s
  | none => idle s

/-- WRITE_ACKNOWLEDGEMENT: a performed store's acknowledgement returns, and the request is no longer outstanding; one to a page
with NC = 1 has been written at its bank (R416). -/
def execWriteAcknowledgement (n : Nat) (s : State) : Out :=
  match Tab.find s.flight n with
  | some f =>
    match f.msg with
    | .access a => if a.performed && a.cls == .st && !s.atBank a.nc then .next (s.dropFlight n) else idle s
    | _ => idle s
  | none => idle s

/-- The tile of the token slice of a base (R162, R379). -/
def State.tokenTile (s : State) (pa : Nat) : Nat :=
  match s.targetOf pa with
  | .scratch c => c
  | _ => if s.homeDie pa < 4 then 96 * s.homeDie pa + sliceOf pa else 1000 + s.homeDie pa

/-- The token slices of some regions set DIRTY on a report from a core's tile (R163). -/
def State.reportDirty (s : State) (c : Nat) (bs : List Nat) : State :=
  let s := bs.foldl (fun (t : State) b => t.usePath c (t.tokenTile b)) s
  { s with own := { s.own with regions := s.own.regions.map (fun e => if bs.contains e.2.base then (e.1, { e.2 with dirty := true }) else e) } }

/-- DIRTY_REPORT: the first-write report of an access, or of an engine's piece, reaches the token slice, which sets DIRTY and acknowledges, and the
held write may perform (R163). -/
def execDirtyReport (n : Nat) (s : State) : Out :=
  match Tab.find s.flight n with
  | some f =>
    match f.msg with
    | .access a =>
      if a.report.any (fun b => !s.fixedUp f.core (s.tokenTile b)) then .next (s.loseRequest n f)
      else .next ((s.reportDirty f.core a.report).setFlight n { f with msg := .access { a with report := [] } })
    | .piece k ws sl rep => .next ((s.reportDirty f.core rep).setFlight n { f with msg := .piece k ws sl [] })
    | _ => idle s
  | none => idle s

/-- The fields of a table entry (R122). -/
structure Pte where
  v : Bool
  leaf : Bool
  w : Bool
  x : Bool
  sz64 : Bool
  nc : Bool
  zero : Bool
  pa : Nat
  deriving DecidableEq, Repr

def pteOf (e : Nat) : Pte :=
  { v := e.testBit 0, leaf := e.testBit 1, w := e.testBit 2, x := e.testBit 3, sz64 := e.testBit 4, nc := e.testBit 5,
    zero := fld e 6 6 == 0 && fld e 52 12 == 0, pa := fld e 12 40 * 4096 }

/-- The outcome of reading one entry of a walk (R123, R124). -/
inductive WalkStep where
  | descend (table : Nat)
  | group
  | leaf (bytes : Nat) (p : Pte)
  | bad
  deriving DecidableEq, Repr

/-- What a walk at a level makes of the entry it reads (R123, R124): of a level-3 entry with SZ64 set nothing else is read. -/
def walkStep (level : Nat) (group : Bool) (p : Pte) : WalkStep :=
  if level = 3 ∧ !group ∧ p.sz64 then .group
  else if !p.v || !p.zero then .bad
  else if group then (if p.leaf && p.pa % 65536 == 0 then .leaf 65536 p else .bad)
  else if level = 3 then (if p.leaf then .leaf 4096 p else .bad)
  else if p.sz64 then .bad
  else if p.leaf then
    (match level with
     | 1 => if p.pa % 1073741824 == 0 then .leaf 1073741824 p else .bad
     | 2 => if p.pa % 2097152 == 0 then .leaf 2097152 p else .bad
     | _ => .bad)
  else .descend p.pa

/-- A leaf may be used by core `c` (R121, R124): it names a target that the core may reach. -/
def State.leafOk (s : State) (c pa bytes : Nat) (w : Bool) : Bool :=
  match s.targetOf (s.key pa) with
  | .hbm _ => true
  | .chip _ => true
  | .scratch k => k != c && k / 4 == c / 4
  | .hub => decide (s.key pa = 0x30000130000) && decide (bytes = 4096) && !w
  | .other _ => true
  | .nothing => false

/-- A walk whose table is beyond reach ends, with LINK_DOWN for the contexts of its address space (R392). -/
def State.walkLost (s : State) (c i : Nat) (w : Walk) : State :=
  ((s.coreAt c).ctxs.filter (fun e => decide (e.1 < 4) && e.2.status != .free && e.2.bind.asn == w.asn)).foldl
    (fun (t : State) e => t.causeNow c e.1 { cause := .linkDown } ((t.coreAt c).running == some e.1))
    (s.modCore c (fun k => { k with walks := k.walks.eraseIdx i }))

/-- The walks of a die that have one of its 512 walkers (R126). -/
def State.walkers (s : State) (die : Nat) : Nat :=
  (s.cores.filter (fun e => e.1 / 96 == die)).foldl (fun n e => n + (e.2.walks.filter (fun w => w.busy && !w.failed)).length) 0

/-- A translation entry whose region has engine operations of a party outstanding stays in the cache (R164, R177). -/
def State.keepsEntry (s : State) (c : Nat) (e : TlbEntry) : Bool :=
  s.own.engaged.any (fun g => (match Tab.find s.own.regions g.1 with
      | some r => overlap [(r.base, r.bytes)] [(s.key e.pa, e.bytes)]
      | none => false) &&
    (s.coreAt c).ctxs.any (fun x => x.2.bind.party == g.2 && x.2.bind.asn == e.asn))

/-- A translation entry put into a core's cache; the oldest of 256 that may leave makes room, and stays known to the bundle that is held (R126). -/
def State.putTlb (s : State) (c : Nat) (e : TlbEntry) : State :=
  s.modCore c (fun k =>
    let l := e :: k.tlb
    if l.length ≤ 256 then { k with tlb := l }
    else { k with tlb := (l.reverse.eraseP (fun x => !s.keepsEntry c x)).reverse,
                  kept := (l.reverse.find? (fun x => !s.keepsEntry c x)).toList ++ k.kept })

/-- TABLE_WALK_READ: the read of a table entry returns and walk `i` of core `c` descends, fills a translation entry or fails (R122 to R126). A
walk waits for one of its die's walkers, and for its read at the bank (R368). -/
def execTableWalkRead (c i : Nat) (s : State) : Out :=
  let k := s.coreAt c
  match k.walks[i]? with
  | none => idle s
  | some w =>
    if w.failed || (!w.busy && decide (512 ≤ s.walkers (c / 96))) then idle s
    else
      let idx := if w.group then fld w.va 12 9 / 16 * 16 else fld w.va (39 - 9 * w.level) 9
      let p := pteOf (leNat (s.mem.readBytes (w.table + 8 * idx) 8))
      if !s.inReach (c / 96) w.table then .next (s.walkLost c i w)
      else
      let s := if w.asked then s else s.useHome false false [(w.table + 8 * idx, 8)]
      let put (w : Walk) : State := s.modCore c (fun k => { k with walks := k.walks.set i w })
      if s.atBank [(w.table + 8 * idx, 8)] then (if w.asked then idle s else .next (put { w with busy := true, asked := true }))
      else
      let w := { w with busy := true, asked := false }
      match walkStep w.level w.group p with
      | .bad => .next (put { w with failed := true })
      | .group => .next (put { w with group := true })
      | .descend t =>
        if s.targetOf (s.key t) == .hbm (fld t 37 2) then
          .next (put { w with level := w.level + 1, table := s.key t })
        else .next (put { w with failed := true })
      | .leaf bytes p =>
        if s.leafOk c p.pa bytes p.w then
          let e : TlbEntry := { asn := w.asn, va := w.va / bytes * bytes, bytes := bytes, pa := p.pa, w := p.w, x := p.x, nc := p.nc }
          .next ((s.modCore c (fun k => { k with walks := k.walks.eraseIdx i })).putTlb c e)
        else .next (put { w with failed := true })

/-- L1_EVICTION: a line leaves L1, and its dirty bytes are written back (R127). -/
def execL1Eviction (c line : Nat) (s : State) : Out :=
  match Tab.find (s.coreAt c).l1 line with
  | some l => .next ((s.writeBack line l).modCore c (fun k => { k with l1 := k.l1.drop line }))
  | none => idle s

/-- A marker, or its acknowledgement, that a failed link has lost (R391, R392): its fence raises LINK_DOWN and is never complete. -/
def State.loseMarker (s : State) (n : Nat) (f : Flight) (k d : Nat) : State :=
  (s.setFlight n { f with msg := .marker k (8 + d) }).causeNow f.core (s.flightCtx f) { cause := .linkDown } false

/-- FLUSH_MARKER: a marker reaches a destination; once every request ahead of it has performed there, and every earlier marker of the
context has been acknowledged, the destination acknowledges (R152, R390). -/
def execFlushMarker (n : Nat) (s : State) : Out :=
  match Tab.find s.flight n with
  | some f =>
    match f.msg with
    | .marker k d =>
      if 8 ≤ d then idle s
      else if !s.canReach (f.core / 96) d || !s.fixedUp (1000 + d) f.core then .next (s.loseMarker n f k d)
      else if s.flight.all (fun e =>
          !(e.2.before e.1 (2 * k + 1) f.core f.ctx && e.2.msg.cls.isSome && !e.2.msg.done &&
            e.2.msg.homes.any (fun h => s.homeDie h == d)) &&
          !(decide (e.1 < n) && e.2.core == f.core && e.2.ctx == f.ctx && (match e.2.msg with | .marker _ b => b == d | _ => false))) then
        .next ((s.usePath (1000 + d) f.core).setFlight n { f with msg := .ack k d })
      else idle s
    | _ => idle s
  | none => idle s

/-- FLUSH_ACKNOWLEDGEMENT: a destination's acknowledgement returns to the sender (R390). -/
def execFlushAcknowledgement (n : Nat) (s : State) : Out :=
  match Tab.find s.flight n with
  | some f =>
    match f.msg with
    | .ack .. => .next (s.dropFlight n)
    | _ => idle s
  | none => idle s

end Sys2Proof.Machine
end

