-- ==== Sys2Proof/Machine/Queue.lean ====
section
/-!
DEFINITION. The queue and stream instructions (R97), splicing (R84 to R90), and their messages. A change of a queue's state is
collected in the bundle and made as it ends, after its pops and appends (R83).
-/
namespace Sys2Proof.Machine

/-- The queue number of a destination field. -/
def qOf (n : BitVec 5) : Nat := n.toNat % 16

/-- A change of queue `q` collected for the end of the bundle; any other use of the queue in the bundle traps (R83). -/
def State.act (q : Nat) (a : QAct) (s : State) : State :=
  s.modBun (fun b => { b with acts := b.acts ++ [a], cfgs := b.cfgs ++ [(s.slot, q)] })

/-- The immediate or register count of QPOP (R97). -/
def popCount (w : RForm) (s : State) : Nat :=
  if w.i = 1 then w.b.toNat else (s.sreg (w.b.extractLsb' 0 5)).toNat

/-- An immediate of a queue wait, LIT included, in its range (R97). It is judged as the slot issues with a true guard, after the decode checks
(R35; assumption 85). -/
def waitImm (w : RForm) (lo hi : Nat) (s : State) : Except Stop State :=
  require (decide (lo ≤ (s.opB w).toNat) && decide ((s.opB w).toNat ≤ hi)) .illegal s

/-- A wait whose condition is not met holds the bundle (R15, R20). -/
def State.wait (s : State) (w : Wait) : State := s.hold (.freeze (.wait w))

/-- QWAIT (R97). -/
def execQwait (w : RForm) (s : State) : Out :=
  runSlot w.g
    (fun s => do
      let q := qOf w.d
      let s ← waitImm w 0 255 s
      let k := (s.opB w).toNat
      let d := s.queue q
      let lim := match d.mode with | .localQ => d.used | .spliceIn => d.adv | _ => 0
      let s ← require (decide (k < lim)) (match d.mode with | .localQ => d.beyond | _ => .queue) s
      .ok (if d.pmap.getLsbD (d.at k) then s else s.wait (.slot q k)))
    .ok s

/-- The use of a splice-out queue by QFREE or an append (R84, R87, R90): a trap, or nothing. -/
def QDesc.outTrap (d : QDesc) : Option Cause :=
  if d.down then some .linkDown
  else if d.refused then some (if d.ownf then .ownNone else .queue)
  else if d.pend then none
  else if d.failing || !d.mirrorOk then some .queueSync
  else none

/-- QFREE (R97). -/
def execQfree (w : RForm) (s : State) : Out :=
  runSlot w.g
    (fun s => do
      let q := qOf w.d
      let s ← waitImm w 1 256 s
      let n := (s.opB w).toNat
      let d := s.queue q
      match d.mode with
      | .localQ => require (decide (d.used + n ≤ d.cap)) .queue s
      | .spliceOut =>
        match d.outTrap with
        | some c => .error (.trap c 0)
        | none =>
          if d.pend then .ok (s.wait (.room q n))
          else
            let s ← require (decide (n ≤ d.rcapm1 + 1)) .queue s
            .ok (if n ≤ d.freeOut then s else s.wait (.room q n))
      | _ => .error (.trap .queue 0))
    .ok s

/-- The value of QCFG is legal for a span (R97). -/
def cfgOk (span : Nat) (v : Nat) : Bool :=
  v < 2 ^ 32 && fld v 16 8 != 0 && decide (fld v 24 8 ≤ fld v 16 8) &&
    decide ((fld v 0 12 + (fld v 16 8 + 1) * (fld v 12 4 + 1)) * 512 ≤ span)

/-- QCFG (R97). -/
def execQcfg (w : RForm) (s : State) : Out :=
  runSlot w.g
    (fun s => do
      let d := s.queue (qOf w.d)
      let v := (s.sreg w.a).toNat
      let s ← require (match d.mode with | .localQ => d.used == 0 | .disabled => true | _ => false) .queue s
      require (v == 0 || cfgOk s.data.bind.spanBytes v) .queue s)
    (fun s => match readRegs [w.a.toNat] s with
      | .error e => .error e
      | .ok s => .ok (s.act (qOf w.d) (.cfg (qOf w.d) (s.sreg w.a)))) s

/-- QPOP (R97). -/
def execQpop (w : RForm) (s : State) : Out :=
  runSlot w.g
    (fun s => do
      let n := popCount w s
      if n = 0 then .ok s
      else
        let t ← needSlot (qOf w.d) (n - 1) s
        let _ := t
        popSlots (qOf w.d) n s)
    (fun s => readRegs (if w.i = 1 then [] else [(w.b.extractLsb' 0 5).toNat]) s) s

/-- The target that QSPLC names (R97). -/
def spliceDst (v : Nat) : QEnd := ⟨96 * fld v 7 2 + fld v 0 7, fld v 9 2, fld v 11 4⟩

/-- QSPLC (R84, R97). -/
def execQsplc (w : RForm) (s : State) : Out :=
  runSlot w.g
    (fun s => do
      let q := qOf w.d
      let d := s.queue q
      let v := (s.sreg w.a).toNat
      let s ← require (decide (v < 32768) && decide (fld v 0 7 < 96)) .queue s
      let s ← require (spliceDst v != ⟨s.cur, s.core.dataIdx, q⟩) .queue s
      require (d.mode == .localQ && d.used == 0) .queue s)
    (fun s => match readRegs [w.a.toNat] s with
      | .error e => .error e
      | .ok s => .ok (s.act (qOf w.d) (.splice (qOf w.d) (spliceDst (s.sreg w.a).toNat)))) s

/-- QUNSP (R88, R97): while the splice request is pending, the core freezes. -/
def execQunsp (w : RForm) (s : State) : Out :=
  runSlot w.g
    (fun s => do
      let d := s.queue (qOf w.d)
      let s ← require (d.mode == .spliceOut) .queue s
      .ok (if d.pend && !d.refused && !d.down then s.hold (.freeze (.unsplice (qOf w.d))) else s))
    (fun s => .ok (s.act (qOf w.d) (.unsplice (qOf w.d)))) s

/-- QSYNC (R97). -/
def execQsync (w : RForm) (s : State) : Out :=
  runSlot w.g
    (fun s => require ((s.queue (qOf w.d)).mode == .spliceOut) .queue s)
    (fun s => .ok (s.modBun (fun b => { b with acts := b.acts ++ [.sync (qOf w.d)] }))) s

/-- QCLR (R97): every consumed slot must be present (R80). -/
def execQclr (w : RForm) (s : State) : Out :=
  runSlot w.g
    (fun s => do
      let q := qOf w.d
      let d := s.queue q
      let s ← require (d.mode == .localQ || d.mode == .spliceIn) .queue s
      .ok ((List.range d.used).foldl (fun (t : State) k =>
        if d.pmap.getLsbD (d.at k) then t else t.hold (.slot q (d.at k))) s))
    (fun s => .ok (s.act (qOf w.d) (.clear (qOf w.d) (s.queue (qOf w.d)).used))) s

/-- The present slots among the first `n` (R97). -/
def QDesc.present (d : QDesc) (n : Nat) : Nat := ((List.range n).filter (fun k => d.pmap.getLsbD (d.at k))).length

/-- The status word of QSTAT (R97). -/
def QDesc.status (d : QDesc) : Word :=
  let own := d.mode == .localQ || d.mode == .spliceIn
  let used := if d.mode == .disabled then qcount d.head d.tail d.cap else d.used
  let free := match d.mode with | .localQ => d.cap - d.used | .spliceOut => d.freeOut | _ => 0
  let used := if d.mode == .disabled then 0 else used
  let err := d.mode == .spliceOut && (d.failing || !d.mirrorOk)
  let bit (b : Bool) (n : Nat) : Nat := if b then 2 ^ n else 0
  BitVec.ofNat 64 (d.head.bits + d.tail.bits * 2 ^ 9 + used * 2 ^ 18 + free * 2 ^ 27 +
    (if own then d.present used else 0) * 2 ^ 36 + d.mode.code * 2 ^ 45 + bit d.pend 47 + bit d.refused 48 +
    bit d.ownf 49 + bit err 50 + d.hwm * 2 ^ 51)

/-- QSTAT (R97). -/
def execQstat (w : RForm) (s : State) : Out :=
  runPure w.g (fun s => s.put (.s w.d.toNat (s.queue (qOf w.a)).status) 1) s

/-- DSET accepts a value (R97). -/
def streamOk (v : BitVec 256) : Bool :=
  let n := v.toNat
  let st := streamOf v
  !n.testBit 39 && fld n 61 3 == 0 && fld n 192 64 == 0 && st.kind != 3 && decide (st.fmt < 13) &&
    !(st.scen && st.kind == 1) && (st.en || n == 0)

/-- The four words that DSET reads (R97). -/
def streamWords (s : State) (a : Nat) : BitVec 256 :=
  (s.rd.sreg (a + 3)) ++ (s.rd.sreg (a + 2)) ++ (s.rd.sreg (a + 1)) ++ (s.rd.sreg a)

/-- DSET (R96, R97): the service context writes the held context's stream register (R210). -/
def execDset (w : RForm) (s : State) : Out :=
  let a := w.a.toNat
  runSlot w.g
    (fun s => require (streamOk (streamWords s a)) .format s)
    (fun s => match readRegs [a, a + 1, a + 2, a + 3] s with
      | .error e => .error e
      | .ok s => .ok (if s.inService then s.modBun (fun b => { b with acts := b.acts ++ [.dset (qOf w.d) (streamWords s a)] })
                      else s.put (.d (qOf w.d) (streamWords s a)) 1)) s

/-- DGET (R97). -/
def execDget (w : RForm) (s : State) : Out :=
  runPure w.g (fun s =>
    let v := if s.inService then s.data.regs.dreg (qOf w.a) else s.rd.dreg (qOf w.a)
    (List.range 4).foldl (fun t i => t.put (.s (w.d.toNat + i) (v.extractLsb' (64 * i) 64)) 1) s) s

/-- QZAP (R97): the slot is present SSZ + 1 cycles later. -/
def execQzap (w : RForm) (s : State) : Out :=
  runSlot w.g
    (fun s => appendSlot (qOf w.d) s)
    (fun s =>
      let d := s.queue (qOf w.d)
      .ok (s.put (s.slotWrite (qOf w.d) tagAny (List.replicate d.slotBytes 0)) (d.ssz + 1))) s

/-- A configured queue (R97). -/
def QDesc.configured (d : QDesc) (v : Nat) : QDesc :=
  let d := { d with head := {}, tail := {}, pmap := 0, hwm := 0, pend := false, refused := false, ownf := false }
  if v = 0 then { d with mode := .disabled }
  else { d with base := fld v 0 12, ssz := fld v 12 4, capm1 := fld v 16 8, occm1 := fld v 24 8, mode := .localQ, down := false }

/-- The presence bits of the first `n` slots from the head. -/
def QDesc.popMask (d : QDesc) (n : Nat) : BitVec 256 := (List.range n).foldl (fun (m : BitVec 256) k => m ||| (1#256 <<< d.at k)) 0

/-- Slots consumed at the head (R52, R80, R86, R220): their presence bits clear, and a splice-in queue owes a head message. -/
def QDesc.consume (d : QDesc) (n : Nat) (bound : Bool) : QDesc :=
  { d with head := qadvance d.head n d.cap, pmap := d.pmap &&& ~~~d.popMask n, popped := if bound then d.popped + n else d.popped,
           headDue := d.headDue || (d.mode == .spliceIn && decide (0 < n)) }

/-- Slots consumed by a bundle, in place `o` of program order (R52, R144). -/
def QDesc.consumeAt (d : QDesc) (o n : Nat) (bound : Bool) : QDesc :=
  let d := d.consume n bound
  if d.mode = .spliceIn ∧ 0 < n then { d with headNo := o } else d

/-- The mirror written with its parity (R77, R86). -/
def QDesc.setMirror (d : QDesc) (p : QPtr) (failing : Bool) : QDesc :=
  let d := { d with mirror := p, failing := failing }
  { d with mpar := d.parity }

/-- The producer's end of a splice ends (R88): the queue is local and empty at once. -/
def QDesc.ended (d : QDesc) : QDesc :=
  { d with mode := .localQ, head := {}, tail := {}, pmap := 0, pend := false, refused := false, ownf := false, failing := false,
           down := false }

/-- The type code with which a drain format tags its slot (R92, R297). -/
def drainTag (fmt : Nat) : Nat := match fmt with | 3 => 5 | 4 => 11 | f => f

/-- The write that a closed drain slot makes (R297): bytes that no MDRN wrote are zero. -/
def OpenDrain.write (o : OpenDrain) (bytes : Nat) : Write :=
  match o.rem with
  | some e => .remote e o.q o.idx (tagByte (drainTag o.fmt) 0) (o.data.readBytes 0 bytes)
  | none => .slot o.q o.idx (tagByte (drainTag o.fmt) 0) (o.data.readBytes 0 bytes)

/-- The bytes of an open drain slot (R297). -/
def OpenDrain.bytes (o : OpenDrain) : Nat := o.groups * (if o.fmt = 1 ∨ o.fmt = 2 then 256 else 512)

/-- The open drain slots of a core's array on queue `q`, or on any, close as by CLOSE for context `k` (R88, R304). -/
def State.closeDrains (s : State) (c k : Nat) (q : Option Nat) : State :=
  [0, 1].foldl (fun (t : State) b =>
    match ((t.coreAt c).arr.bank b).drain with
    | some o =>
      if q = none ∨ q = some o.q then
        let t := t.modCore c (fun y => { y with arr := y.arr.setBank b { y.arr.bank b with drain := none } })
        t.modCtx c k (fun x => { x with pend := x.pend ++ [{ due := 4, slot := 9, w := o.write o.bytes, no := t.seq, lat := 4 }] })
      else t
    | none => t) s

/-- A queue change made as the bundle ends, for context `k` of core `c` (R83, R84, R88, R97). -/
def State.applyAct (c k : Nat) (a : QAct) (s : State) : State :=
  match a with
  | .cfg q v => s.modCtx c k (fun x => x.modQ q (fun d => d.configured v.toNat))
  | .clear q n => s.modCtx c k (fun x => x.modQ q (fun d => d.consumeAt s.seq n x.bind.phaseBound))
  | .splice q e =>
    let x := s.ctxAt c k
    let s := s.modCtx c k (fun x => x.modQ q (fun d =>
      { d with mode := .spliceOut, pend := true, refused := false, ownf := false, failing := false, down := false,
               pcore := e.core % 96, pdie := e.core / 96, pctx := e.ctx, pq := e.q }))
    s.post c k (.spliceReq ⟨c, k, q⟩ e (x.queue q).ssz x.bind.party)
  | .unsplice q =>
    let d := (s.ctxAt c k).queue q
    let s := if (s.ctxAt c k).bind.array then s.closeDrains c k (some q) else s
    let s := s.modCtx c k (fun x => x.modQ q QDesc.ended)
    if d.refused || d.down then s else s.post c k (.unsplice ⟨c, k, q⟩ d.partner d.tail.bits)
  | .sync q =>
    let d := (s.ctxAt c k).queue q
    let s := s.modCtx c k (fun x => x.modQ q (fun d => { d with pend := true }))
    s.post c k (.headReq ⟨c, k, q⟩ d.partner)
  | .dset d v => s.modCtx c k (fun x => { x with regs := { x.regs with d := x.regs.d.put d v } })
  | .hdbg v => s.modCtx c k (fun x => { x with hdbg := v })

/-- The ends between which a splice message travels, sender first. -/
def Msg.ends : Msg → Option (QEnd × QEnd)
  | .spliceReq a b _ _ => some (a, b)
  | .spliceAns a b _ _ _ _ _ _ => some (a, b)
  | .head a b _ _ => some (a, b)
  | .unsplice a b _ => some (a, b)
  | .headReq a b => some (a, b)
  | .headAns a b _ _ => some (a, b)
  | _ => none

/-- No older message of the same fixed path is still under way (R84, R155). -/
def State.pathFirst (s : State) (n : Nat) (m : Msg) : Bool :=
  s.flight.all (fun e => !(decide (e.1 < n) && e.2.msg.ends.isSome && e.2.msg.ends == m.ends))

/-- The end of a splice whose context is saved: messages to it wait for its restore (R89). Such an end has a core number from 1,000 on. -/
def QEnd.away (e : QEnd) : Bool := decide (1000 ≤ e.core)

/-- A message in flight with its number, where it is first on its path and its destination is there. -/
def State.arriving (s : State) (n : Nat) : Option Msg :=
  match Tab.find s.flight n with
  | some f =>
    if s.pathFirst n f.msg && !(match f.msg.ends with | some e => e.2.away | none => false) then some f.msg else none
  | none => none

/-- Context `k` of a saved task, by the number it had. -/
def Saved.ctxOf (v : Saved) (k : Nat) : Ctx :=
  if k = v.place.ctx then v.ctx else (((List.zip v.place.nots v.nots).find? (fun e => e.1 == k)).map (fun e => e.2)).getD {}

/-- A saved task with one of its queues changed. -/
def Saved.modQ (v : Saved) (k q : Nat) (f : QDesc → QDesc) : Saved :=
  if k = v.place.ctx then { v with ctx := v.ctx.modQ q f }
  else { v with nots := (List.zip v.place.nots v.nots).map (fun e => if e.1 = k then e.2.modQ q f else e.2) }

/-- The queue of a splice end, of a placed or a saved context. -/
def State.qEnd (s : State) (e : QEnd) : QDesc :=
  if e.away then (match Tab.find s.thyme.saved (e.core - 1000) with | some v => (v.ctxOf e.ctx).queue e.q | none => {})
  else (s.ctxAt e.core e.ctx).queue e.q

def State.modEnd (s : State) (e : QEnd) (f : QDesc → QDesc) : State :=
  if e.away then (match Tab.find s.thyme.saved (e.core - 1000) with
    | some v => { s with thyme := { s.thyme with saved := s.thyme.saved.put (e.core - 1000) (v.modQ e.ctx e.q f) } }
    | none => s)
  else s.modCtx e.core e.ctx (fun x => x.modQ e.q f)

/-- The party holds tokens that cover every byte of a physical range (R178): an access as a plain store would be allowed. -/
def State.covers (s : State) (p : Word) (pa n : Nat) : Bool :=
  (List.range ((n + 4095) / 4096 + 1)).all (fun i =>
    let a := min (pa + 4096 * i) (pa + n - 1)
    match s.own.regionAt a with
    | some r => r.owner == p && r.st == .held
    | none => false)

/-- SPLICE_REQUEST: a splice request reaches the receiver, which accepts it or refuses it (R84). -/
def execSpliceRequest (n : Nat) (s : State) : Out :=
  match s.arriving n with
  | some (.spliceReq a b ssz p) =>
    if !s.fixedUp a.core b.core || !s.fixedUp b.core a.core then .next ((s.dropFlight n).modEnd a (fun d => { d with down := true }))
    else
    let s := (s.usePath a.core b.core).usePath b.core a.core
    let x := s.ctxAt b.core b.ctx
    let d := x.queue b.q
    let fits := x.status != .free && d.mode == .localQ && d.ssz == ssz
    let own := s.covers p (spanPA b.core x (d.base * 512)) (d.cap * d.slotBytes)
    let s := s.dropFlight n
    if fits && own then
      .next ((s.modEnd b (fun d => { d with mode := .spliceIn, pcore := a.core % 96, pdie := a.core / 96, pctx := a.ctx,
                                            pq := a.q, failing := false, headDue := false, nextHead := s.cycle })).post
        b.core b.ctx (.spliceAns b a true false d.head d.tail d.capm1 d.adv))
    else .next (s.post b.core b.ctx (.spliceAns b a false (!own) {} {} 0 0))
  | _ => idle s

/-- SPLICE_ANSWER: the answer reaches the producer (R84), which still waits for it. -/
def execSpliceAnswer (n : Nat) (s : State) : Out :=
  match s.arriving n with
  | some (.spliceAns b a ok own h t cap adv) =>
    let s := s.dropFlight n
    if (s.qEnd a).mode != .spliceOut || (s.qEnd a).partner != b || !(s.qEnd a).pend then .next s
    else if ok then
      .next (s.modEnd a (fun d => { d with tail := t, rcapw := cap, rcapm1 := adv - 1, pend := false }.setMirror h false))
    else .next (s.modEnd a (fun d => { d with refused := true, ownf := own, pend := false }))
  | _ => idle s

/-- Every 32-byte word of a range marked bad (R131, R271). -/
def State.markBad (s : State) (pa n : Nat) : State :=
  { s with bad := (List.range ((n + 31) / 32)).map (fun i => pa / 32 + i) ++ s.bad }

/-- REMOTE_APPEND: an append reaches the receiver in allocation order, once no FENCE holds it back, fills its slot and advances the receiver's TAIL
(R85, R151, R155); one whose slot is present is dropped and the splice marked as failing (R82); a slot that an engine still reads is not written (R262). A dropped append leaves TAIL; the later ones of a
failing splice land at their own indices and advance it (assumption 90). -/
def execRemoteAppend (n : Nat) (s : State) : Out :=
  match Tab.find s.flight n with
  | some f =>
    match f.msg with
    | .append a b idx tag data bad =>
      let d := s.qEnd b
      if !f.admitted || b.away || !s.mayPerform n f then idle s
      else if d.mode != .spliceIn || d.partner != a then .next (s.dropFlight n)
      else if d.pinned.contains idx && !d.pmap.getLsbD idx then idle s
      else if d.pmap.getLsbD idx then .next ((s.dropFlight n).modEnd b (fun d => { d with failing := true }))
      else if d.tail.idx = idx ∨ d.failing then
        let s := (s.dropFlight n).fillSlot b.core b.ctx b.q idx tag data
        let pa := spanPA b.core (s.ctxAt b.core b.ctx) (d.slotOff idx)
        let s : State := { s with bad := bad.map (fun i => pa / 32 + i) ++ s.bad }
        .next (s.modEnd b (fun d =>
          let d := { d with tail := qadvance d.tail 1 d.cap }
          { d with hwm := max d.hwm d.used }))
      else idle s
    | _ => idle s
  | none => idle s

/-- HEAD_MESSAGE_SEND: a splice-in queue sends its head, when it has changed or every 1,024 cycles, and no more than once in 8
cycles (R86). A head that a FENCE has cut off from later pops goes first (R151). -/
def execHeadMessageSend (c k q : Nat) (s : State) : Out :=
  let d := (s.ctxAt c k).queue q
  if d.mode == .spliceIn && decide (d.nextHead ≤ s.cycle) then
    match d.cuts with
    | (o, p) :: r =>
      .next ((s.modCtx c k (fun x => x.modQ q (fun d => { d with cuts := r, nextHead := s.cycle + 8 }))).postAt c k o
        (.head ⟨c, k, q⟩ d.partner p d.failing))
    | [] =>
      if d.headDue || decide (d.nextHead + 1016 ≤ s.cycle) then
        .next ((s.modCtx c k (fun x => x.modQ q (fun d => { d with headDue := false, nextHead := s.cycle + 8 }))).postAt c k d.headNo
          (.head ⟨c, k, q⟩ d.partner d.headOut d.failing))
      else idle s
  else idle s

/-- The message with number `n` may perform, where it is in flight (R151). -/
def State.mayGo (s : State) (n : Nat) : Bool := match Tab.find s.flight n with | some f => s.mayPerform n f | none => false

/-- HEAD_MESSAGE: a head message reaches the producer, once no FENCE holds it back (R151); one that fails its link check is discarded (R86). -/
def execHeadMessage (n : Nat) (ok : Bool) (s : State) : Out :=
  match s.arriving n with
  | some (.head b a p fl) =>
    if !s.mayGo n then idle s
    else
    let s := s.dropFlight n
    if ok && (s.qEnd a).mode == .spliceOut && (s.qEnd a).partner == b then .next (s.modEnd a (fun d => d.setMirror p fl))
    else .next s
  | _ => idle s

/-- An append from `a` to `b` is still to arrive: on its way, in a pipeline or an open drain slot of its core, or as a load or copy that fills it. -/
def State.appendsTo (s : State) (a b : QEnd) : Bool :=
  let y := s.coreAt a.core
  s.flight.any (fun e => match e.2.msg with
    | .append x z _ _ _ _ => x == a && z == b
    | .access c => e.2.core == a.core && s.flightCtx e.2 == a.ctx && (match c.dst with | .slot q _ _ (some z) => q == a.q && z == b | _ => false)
    | _ => false) ||
  (((y.ctx a.ctx).pend ++ (y.ctx a.ctx).shadow ++ (if y.held = some a.ctx then (y.ctx 4).pend else [])).any (fun p => match p.w with
    | .remote z q _ _ _ => q == a.q && z == b
    | _ => false)) ||
  ((y.ctx a.ctx).bind.array && [0, 1].any (fun i => match (y.arr.bank i).drain with | some o => o.q == a.q && o.rem == some b | none => false)) ||
  s.ops.any (fun e => e.2.core == a.core && e.2.ctx == a.ctx && (match e.2.body with
    | .copy c => !c.slotSent && (match c.slot with | some (q, _, some z) => q == a.q && z == b | _ => false)
    | _ => false))

/-- UNSPLICE_MARKER: the marker reaches the receiver behind the last append, and its queue becomes local (R88). -/
def execUnspliceMarker (n : Nat) (s : State) : Out :=
  match s.arriving n with
  | some (.unsplice a b upto) =>
    let d := s.qEnd b
    if d.mode != .spliceIn || d.partner != a then .next (s.dropFlight n)
    else if d.tail.bits = upto ∨ s.appendsTo a b = false then
      .next ((s.dropFlight n).modEnd b (fun d => { d with mode := .localQ, headDue := false, cuts := [] }))
    else idle s
  | _ => idle s

/-- HEAD_REQUEST: a head request of QSYNC reaches the receiver, which answers with its absolute head (R97). -/
def execHeadRequest (n : Nat) (s : State) : Out :=
  match s.arriving n with
  | some (.headReq a b) =>
    let d := s.qEnd b
    .next ((s.dropFlight n).post b.core b.ctx (.headAns b a d.headOut d.failing))
  | _ => idle s

/-- HEAD_REQUEST_ANSWER: the head returns to the producer, which rewrites its mirror and clears PEND (R97). -/
def execHeadRequestAnswer (n : Nat) (s : State) : Out :=
  match s.arriving n with
  | some (.headAns b a p fl) =>
    let s := s.dropFlight n
    if (s.qEnd a).mode == .spliceOut && (s.qEnd a).partner == b then
      .next (s.modEnd a (fun d => { d with pend := false }.setMirror p (fl || d.failing)))
    else .next s
  | _ => idle s

/-- The receiver's queue is unbound (R90): local, its tail counting the slots that arrived; `down` says that the bundle held on a slot of it is to trap
LINK_DOWN. -/
def QDesc.unbound (d : QDesc) (down : Bool) : QDesc :=
  { d with mode := .localQ, headDue := false, cuts := [], down := down }

/-- A context is held, or waits, on a slot of queue `q` (R20, R90). -/
def State.heldOn (s : State) (e : QEnd) : Bool :=
  let y := s.coreAt e.core
  (match (y.ctx e.ctx).wait with | some (.slot q _) => q == e.q | _ => false) ||
    (y.running == some e.ctx && y.freeze.any (fun f => match f with
      | .absent q _ => q == e.q
      | .wait (.slot q _) => q == e.q
      | _ => false))

/-- The receiver at an end is unbound: with LINK_DOWN for a bundle that it holds where the path has failed (R90). -/
def State.unbindEnd (s : State) (e : QEnd) (down : Bool) : State := s.modEnd e (fun d => d.unbound (down && s.heldOn e))

/-- The partner of end `e` with descriptor `d` loses that end (R90): a producer is refused, a receiver unbound. -/
def State.partnerLoses (s : State) (e : QEnd) (d : QDesc) : State :=
  let p := d.partner
  if (s.qEnd p).partner != e then s
  else match d.mode with
  | .spliceIn => if (s.qEnd p).mode == .spliceOut then s.modEnd p (fun d => { d with refused := true, ownf := false, pend := false }) else s
  | .spliceOut => if (s.qEnd p).mode == .spliceIn then s.unbindEnd p false else s
  | _ => s

/-- Every splice of context `k` of core `c` loses this end (R90): its producers are refused, its receivers unbound; a splice request of it that is still on its
way is gone. -/
def State.unbindCtx (s : State) (c k : Nat) : State :=
  let s : State := { s with flight := s.flight.filter (fun e => match e.2.msg with
    | .spliceReq a _ _ _ => !(a.core == c && a.ctx == k)
    | _ => true) }
  (List.range 16).foldl (fun t q =>
    let d := (t.ctxAt c k).queue q
    let t := t.partnerLoses ⟨c, k, q⟩ d
    if d.mode = .spliceIn then t.modCtx c k (fun x => x.modQ q (fun d => { d with mode := .disabled })) else t) s

/-- Every splice of saved task `n` loses this end (R90). -/
def State.unbindSaved (s : State) (n : Nat) (v : Saved) : State :=
  ((v.place.ctx, v.ctx) :: List.zip v.place.nots v.nots).foldl (fun (t : State) x =>
    x.2.q.foldl (fun (t : State) e => t.partnerLoses ⟨1000 + n, x.1, e.1⟩ e.2) t) s

end Sys2Proof.Machine
end

