-- ==== Sys2Proof/Machine/Token.lean ====
section
/-!
DEFINITION. Ownership tokens (R159 to R180, R187, R188): region designators, the checks at issue, the token slice's judgement,
invalidations, and the death of parties.
-/
namespace Sys2Proof.Machine

/-- The kind of a party word (R160). -/
def partyKind (p : Word) : Nat := fld p.toNat 20 4

/-- The party word of a kind and an index of this package (R160): 1 TASK, 2 HOST, 3 LAUNCH, 4 SYSTEM. -/
def State.partyOf (s : State) (kind idx : Nat) : Word := BitVec.ofNat 64 (idx + kind * 1048576 + s.pkgid * 16777216)

/-- A party word names a live party (R160). -/
def State.live (s : State) (p : Word) : Bool :=
  fld p.toNat 34 30 == 0 &&
    (match partyKind p with
     | 1 => s.own.live.contains p
     | 3 => s.own.live.contains p
     | 2 => s.pod.contains (partyPkg p)
     | 4 => fld p.toNat 0 20 == 0
     | _ => false)

/-- The size code of a designator (R159). -/
def desSz (d : Nat) : Nat := d % 32

/-- The bytes of a region of a size code (R159). -/
def regionBytes (sz : Nat) : Nat := 2 ^ (12 + sz)

/-- The shape of a designator (R159). -/
def desOk (d : Nat) : Bool := decide (desSz d ≤ 18) && fld d 5 7 == 0 && d / 4096 * 4096 % regionBytes (desSz d) == 0

/-- The physical base that a designator resolves to, with a page of context `x` on core `c` (R159). -/
def State.desBase (s : State) (c : Nat) (x : Ctx) (d : Nat) : Resolved :=
  let a := d / 4096 * 4096
  let n := regionBytes (desSz d)
  if a < 0x200000 then
    (if a + n ≤ 0x180000 ∧ a + n ≤ x.bind.spanBytes then .pieces [⟨spanPA c x a, n, true, true, true, a⟩] else .trap .xlate)
  else if a + n > 0x1000000000000 then .trap .xlate
  else match (s.coreAt c).tlbFind x.bind.asn a with
    | none => if (s.coreAt c).walkFailed x.bind.asn a then .trap .xlate else .miss a
    | some e =>
      if e.w ∧ a + n ≤ e.va + e.bytes ∧ s.reaches c (e.pa + (a - e.va)) then .pieces [⟨s.key (e.pa + (a - e.va)), n, true, e.nc, false, a⟩] else .trap .xlate

/-- The base of a resolved designator. -/
def Resolved.base : Resolved → Nat
  | .pieces (p :: _) => p.pa
  | _ => 0

/-- The entry of exactly this region (R166). -/
def Ownership.exact (o : Ownership) (base sz : Nat) : Option Region :=
  match Tab.find o.regions base with
  | some r => if r.sz = sz then some r else none
  | none => none

/-- The two halves of a region (R172). -/
def Ownership.lower (o : Ownership) (base sz : Nat) : Option Region := if sz = 0 then none else o.exact base (sz - 1)
def Ownership.upper (o : Ownership) (base sz : Nat) : Option Region :=
  if sz = 0 then none else o.exact (base + regionBytes (sz - 1)) (sz - 1)

/-- The region is held by the party. -/
def heldBy (p : Word) (r : Option Region) : Bool :=
  match r with | some r => r.st == .held && r.owner == p | none => false

/-- The rights that a token instruction needs (R168 to R176): the cause, where they fail. A region of SZ 0 has no halves, so that JOIN of it
takes OWN_NONE (assumption 92). -/
def Ownership.tokenCause (o : Ownership) (t : TokReq) : Option Cause :=
  let r := o.exact t.base t.sz
  match t.op with
  | .query => none
  | .chain _ => none
  | .me => none
  | .clean => if t.priv then none else some .priv
  | .reinit => if t.priv then none else some .priv
  | .create => if t.priv then none else some .priv
  | .destroy => if t.priv then none else some .priv
  | .seize => if t.priv then none else some .priv
  | .join =>
    let lo := o.lower t.base t.sz
    let hi := o.upper t.base t.sz
    let shr (r : Option Region) : Bool := match r with | some r => decide (0 < r.shares) | none => false
    if !heldBy t.self lo && !heldBy t.self hi then some .ownNone
    else if shr lo || shr hi then some .ownShared else none
  | .unshr => match r with
    | some r => if r.st == .held && o.sharer r.base t.self then none else some .ownNone
    | none => some .ownNone
  | .share => match r with
    | some r => if !heldBy t.self (some r) then some .ownNone else if r.atomic then some .ownMode else none
    | none => some .ownNone
  | _ => match r with
    | some r => if !heldBy t.self (some r) then some .ownNone else if 0 < r.shares then some .ownShared else none
    | none => some .ownNone

/-- The token slice of a physical base as (die, slice) (R162, R366). -/
def State.tokenSlice (s : State) (pa : Nat) : Nat × Nat :=
  match s.targetOf pa with
  | .scratch c => (c / 96, c % 96)
  | _ => (s.homeDie pa, sliceOf pa)

/-- The token entries of a slice that are neither in use nor reserved for an accepted launch (R162, R336). -/
def State.entriesLeft (s : State) (k : Nat × Nat) : Nat :=
  let claims := s.thyme.launches.flatMap (fun l => l.2.entries.flatMap (fun e => e.claims))
  (if k.2 < 64 then 2731 else 2730) - (s.own.regions.filter (fun e => s.tokenSlice e.1 == k)).length -
    (claims.filter (fun a => s.tokenSlice a == k)).length

/-- A token entry, or a share record, is free in the slice of a base (R162). -/
def State.entryFree (s : State) (pa : Nat) : Bool := decide (0 < s.entriesLeft (s.tokenSlice pa))

/-- Token entries are free for all of some bases together (R336). -/
def State.entriesFit (s : State) (bases : List Nat) : Bool :=
  let ks := bases.map s.tokenSlice
  ks.all (fun k => decide ((ks.filter (fun j => j == k)).length ≤ s.entriesLeft k))

def State.shareFree (s : State) (pa : Nat) : Bool :=
  let k := s.tokenSlice pa
  decide ((s.own.shares.filter (fun e => s.tokenSlice e.1 == k)).length < (if k.2 < 64 then 683 else 682))

/-- The issuer has engine operations under a region that have not joined (R177). -/
def Ownership.busy (o : Ownership) (p : Word) (base : Nat) : Bool := o.engaged.contains (base, p)

/-- The status codes (R168). -/
def stOk : Nat := 0
def stFull : Nat := 1
def stNoParty : Nat := 2
def stEngaged : Nat := 3
def stOverlap : Nat := 4
def stWrong : Nat := 5

/-- The status that a token instruction whose rights hold will land (R168 to R176). -/
def State.tokenStatus (s : State) (t : TokReq) : Nat :=
  let o := s.own
  let r := o.exact t.base t.sz
  let rr := r.getD { base := t.base, sz := t.sz, owner := 0 }
  match t.op with
  | .lend => if o.busy t.self t.base then stEngaged else if !s.live t.target then stNoParty
      else if t.target = t.self then stWrong else if rr.chain.length ≥ 4 then stFull else stOk
  | .lendPass => if o.busy t.self t.base then stEngaged else if !s.live t.target then stNoParty
      else if t.target = t.self then stWrong else stOk
  | .retn => if o.busy t.self t.base then stEngaged else if rr.chain.isEmpty then stWrong else stOk
  | .split => if o.busy t.self t.base then stEngaged else if t.sz = 0 then stWrong
      else if s.entryFree (t.base + regionBytes (t.sz - 1)) then stOk else stFull
  | .join =>
    let lo := o.lower t.base t.sz
    let hi := o.upper t.base t.sz
    if o.busy t.self t.base || o.busy t.self (t.base + regionBytes (t.sz - 1)) then stEngaged
    else if heldBy t.self lo && heldBy t.self hi && lo.map (fun r => r.chain) == hi.map (fun r => r.chain) &&
        lo.map (fun r => r.atomic) == hi.map (fun r => r.atomic) then stOk else stWrong
  | .share => if !s.live t.target then stNoParty
      else if t.target = t.self ∨ o.sharer t.base t.target then stWrong
      else if rr.shares ≥ 65535 ∨ !s.shareFree t.base then stFull else stOk
  | .unshr => if o.busy t.self t.base then stEngaged else stOk
  | .plain => if o.busy t.self t.base then stEngaged else stOk
  | .atomic => if o.busy t.self t.base then stEngaged else stOk
  | .clean => if !s.live t.target then stNoParty else match r with
    | some r => if r.st == .orphan then stOk else stWrong
    | none => stWrong
  | .reinit => if t.target ≠ 0 ∧ !s.live t.target then stNoParty else match r with
    | some r => if r.st == .held || r.lost then stWrong else stOk
    | none => stWrong
  | .create => if !s.live t.target then stNoParty
      else if o.regions.any (fun e => decide (e.1 < t.base + regionBytes t.sz) && decide (t.base < e.1 + e.2.bytes)) then stOverlap
      else if s.entryFree t.base then stOk else stFull
  | .destroy => if r.isSome then stOk else stWrong
  | .seize => if !s.live t.target then stNoParty else match r with
    | some r => if r.st == .held then stOk else stWrong
    | none => stWrong
  | _ => stOk

/-- The first live lender of a chain and the lenders behind it (R171, R187). -/
def State.firstLive (s : State) : List Word → Option (Word × List Word)
  | [] => none
  | p :: r => if s.live p then some (p, r) else s.firstLive r

/-- A region returned along its chain, with the party that takes it where no lender is live (R171). -/
def State.returned (s : State) (r : Region) (last : Word) : Region :=
  match s.firstLive r.chain with
  | some (p, c) => { r with owner := p, chain := c }
  | none => { r with owner := last, chain := [] }

/-- A dead owner's region, by the clean-orphan rule (R187): the first live lender, else the launch's party while it lives; else
it stays an orphan. -/
def State.inherit (s : State) (r : Region) : Region :=
  match s.firstLive r.chain with
  | some (p, c) => { r with owner := p, chain := c, st := .held }
  | none => if s.live r.dlaunch then { r with owner := r.dlaunch, chain := [], st := .held } else { r with st := .orphan }

def State.putRegion (s : State) (r : Region) : State :=
  ({ s with own := { s.own with regions := s.own.regions.put r.base r } } : State).clearReports [r.base]

def State.dropRegion (s : State) (b : Nat) : State :=
  ({ s with own := { s.own with regions := s.own.regions.drop b } } : State).clearReports [b]

/-- The share records of a region removed. -/
def State.clearShares (s : State) (b : Nat) : State :=
  { s with own := { s.own with shares := s.own.shares.filter (fun e => e.1 != b) } }

/-- A range of memory zeroed (R176). -/
def State.zeroRange (s : State) (a n : Nat) : State :=
  { s with mem := s.mem.filter (fun c => !(decide (a ≤ c.1) && decide (c.1 < a + n))),
           bad := s.bad.filter (fun w => !(decide (a ≤ w * 32) && decide (w * 32 < a + n))),
           soft := s.soft.filter (fun e => !(decide (a ≤ e.1 % 0x1000000000000000 * 32) && decide (e.1 % 0x1000000000000000 * 32 < a + n))),
           granules := s.granules.filter (fun g => !(decide (a ≤ g.1 * 16) && decide (g.1 * 16 < a + n))) }

/-- The change of the table that a token instruction with status OK makes (R166, R170 to R176). -/
def State.tokenApply (s : State) (t : TokReq) : State :=
  let r := (s.own.exact t.base t.sz).getD { base := t.base, sz := t.sz, owner := 0 }
  match t.op with
  | .lend => s.putRegion { r with owner := t.target, chain := t.self :: r.chain, dirty := false }
  | .lendPass => s.putRegion { r with owner := t.target, dirty := false }
  | .retn => s.putRegion { s.returned r t.launch with dirty := false }
  | .split =>
    let h := { r with sz := t.sz - 1, dirty := false }
    (s.putRegion h).putRegion { h with base := t.base + regionBytes (t.sz - 1) }
  | .join =>
    let lo := (s.own.lower t.base t.sz).getD r
    (s.dropRegion (t.base + regionBytes (t.sz - 1))).putRegion { lo with sz := t.sz, dirty := false }
  | .share =>
    let s := s.putRegion { r with shares := r.shares + 1, dirty := false }
    { s with own := { s.own with shares := s.own.shares ++ [(t.base, t.target)] } }
  | .unshr =>
    let s := s.putRegion { r with shares := r.shares - 1, dirty := false }
    { s with own := { s.own with shares := s.own.shares.erase (t.base, t.self) } }
  | .plain => s.putRegion { r with atomic := false, dirty := false }
  | .atomic => s.putRegion { r with atomic := true, dirty := false }
  | .clean => (s.clearShares t.base).putRegion { r with owner := t.target, chain := [], shares := 0, dirty := false, st := .held }
  | .reinit =>
    let s := s.zeroRange t.base (regionBytes t.sz)
    let r := { r with atomic := false, dirty := false }
    s.putRegion (if t.target = 0 then s.inherit r else { r with owner := t.target, chain := [], st := .held })
  | .create => s.putRegion { base := t.base, sz := t.sz, owner := t.target }
  | .destroy => (s.clearShares t.base).dropRegion t.base
  | .seize => (s.clearShares t.base).putRegion { r with owner := t.target, chain := [], shares := 0, dirty := false }
  | _ => s

/-- The token instructions that release (R169). -/
def TokOp.releases : TokOp → Bool
  | .query => false
  | .chain _ => false
  | .me => false
  | .clean => false
  | .reinit => false
  | .create => false
  | _ => true

/-- The token instructions that withdraw rights which others hold (R164, R174, R176). -/
def TokOp.withdraws : TokOp → Bool
  | .plain => true
  | .destroy => true
  | .seize => true
  | _ => false

/-- The state word of TKQRY (R175). -/
def State.queryWord (s : State) (p : Word) (pa : Nat) : Word × Word :=
  match s.own.regionAt pa with
  | none => (0, 0)
  | some r =>
    let bit (b : Bool) (n : Nat) : Nat := if b then 2 ^ n else 0
    (BitVec.ofNat 64 (1 + r.sz * 2 + bit r.atomic 6 + bit r.dirty 7 +
      (match r.st with | .held => 0 | .orphan => 1 | .poison => 2) * 256 + r.chain.length * 1024 + bit (r.owner == p) 13 +
      bit (s.own.sharer r.base p) 14 + bit (s.own.busy p r.base) 15 + r.shares * 65536), r.owner)

/-- The two result words of a token instruction (R168, R175). -/
def State.tokenResult (s : State) (t : TokReq) : Word × Word :=
  match t.op with
  | .query => s.queryWord t.self t.base
  | .chain i => (match s.own.regionAt t.base with | some r => r.chain.getD i 0 | none => 0, 0)
  | .me => (t.self, 0)
  | _ => (BitVec.ofNat 64 (s.tokenStatus t), 0)

/-- The scope code that contains two cores (R2). -/
def scopeOfCores (a b : Nat) : Nat := if a = b then 1 else if a / 4 = b / 4 then 2 else if a / 96 = b / 96 then 3 else 4

/-- The core that holds a placed task (R169). -/
def State.coreOfParty (s : State) (p : Word) : Option (Nat × Nat) :=
  s.cores.findSome? (fun e =>
    (e.2.ctxs.find? (fun x => decide (x.1 < 4) && x.2.status != .free && x.2.bind.party == p)).map (fun x => (e.1, x.1)))

/-- The scope that contains a core and a party (R169). -/
def State.scopeOfParty (s : State) (c : Nat) (p : Word) : Nat :=
  if partyPkg p ≠ s.pkgid then 5
  else match s.coreOfParty p with
    | some (k, _) => scopeOfCores c k
    | none => 4

/-- The scope that contains a core and a home (R169). -/
def State.scopeOfHome (s : State) (c pa : Nat) : Nat :=
  match s.targetOf pa with
  | .scratch k => scopeOfCores c k
  | .other _ => 5
  | _ => if s.homeDie pa = c / 96 then 3 else 4

/-- The effective scope of a token instruction (R169). -/
def State.tokenScope (s : State) (c : Nat) (t : TokReq) : Nat :=
  max (max t.scope (s.scopeOfHome c t.base)) (if t.target = 0 then 0 else s.scopeOfParty c t.target)

/-- The lines of a core's L1 that lie in a range of physical memory, written back and invalidated (R154, R164). -/
def State.flushRegion (s : State) (c base n : Nat) : State :=
  let ls := (s.coreAt c).l1.filter (fun e => decide (base ≤ e.1 * 128) && decide (e.1 * 128 < base + n))
  let s := ls.foldl (fun (t : State) e => t.writeBack e.1 e.2) s
  s.modCore c (fun k => { k with l1 := k.l1.filter (fun e => !(decide (base ≤ e.1 * 128) && decide (e.1 * 128 < base + n))) })

/-- A token request answered. -/
def State.answer (s : State) (n : Nat) (f : Flight) (t : TokReq) : State :=
  let w := s.tokenResult t
  let b : TokReq := { t with answered := true, status := w.1, status2 := w.2 }
  s.setFlight n { f with msg := .token b }

/-- The token slice is still busy with another request for a region, whose withdrawal of rights awaits its acknowledgements (R164, R166). -/
def State.entryBusy (s : State) (n base bytes : Nat) : Bool :=
  s.hostWithdraws [(base, bytes)] || s.flight.any (fun e => e.1 != n && (match e.2.msg with
    | .token t => t.invSent && !t.answered && overlap [(t.base, regionBytes t.sz)] [(base, bytes)]
    | _ => false))

/-- TOKEN_SLICE_REQUEST: a token request has its turn at the token slice (R166 to R176), which handles the requests for one entry one at a time. Rights
that fail there raise their cause when the result would land (R168); a release waits for the older accesses within the effective scope (R154, R169), and a
withdrawal for the acknowledgements of every core (R164, R174). -/
def execTokenSliceRequest (n : Nat) (s : State) : Out :=
  match Tab.find s.flight n with
  | some f =>
    match f.msg with
    | .token t =>
      if t.answered || !f.admitted || !s.mayPerform n f || s.entryBusy n t.base (regionBytes t.sz) then idle s
      else if s.cutOff f then .next (s.loseRequest n f)
      else if s.afar f.msg then idle s
      else match s.own.tokenCause t with
        | some c =>
          let b : TokReq := { t with answered := true, fault := some c }
          .next (s.setFlight n { f with msg := .token b })
        | none =>
          if s.tokenStatus t ≠ stOk ∨ t.op.reads then .next (s.answer n f t)
          else if t.op.releases && !s.fencePredsDone n f 31 (s.tokenScope f.core t) then idle s
          else if t.op.withdraws && !t.invSent then
            let b : TokReq := { t with invSent := true }
            .next (s.cores.foldl (fun u e => u.launchFlight { core := e.1, ctx := f.ctx, msg := .inval n })
              (s.setFlight n { f with msg := .token b }))
          else if t.op.withdraws && s.flight.any (fun e => match e.2.msg with | .inval k => k == n | _ => false) then idle s
          else
            let s := if t.op.releases then s.flushRegion f.core t.base (regionBytes t.sz) else s
            let u := s.answer n f t
            .next (u.tokenApply t)
    | _ => idle s
  | none => idle s

/-- An access of a core to a region that issued before an invalidation has not performed. -/
def State.oldAccess (s : State) (n c base bytes : Nat) : Bool :=
  s.flight.any (fun e => decide (e.1 < n) && e.2.core == c &&
    (match e.2.msg with
     | .access a => !a.performed && overlap a.touched [(base, bytes)]
     | .piece _ ws _ _ => overlap (ws.map (fun w => (w.1, w.2.length))) [(base, bytes)]
     | _ => false))

/-- OWNERSHIP_INVALIDATION: an invalidation reaches a core, which acknowledges once its older accesses to the region have
performed; its L1 lines of the region go back and leave (R164, R174, R176). -/
def execOwnershipInvalidation (n : Nat) (s : State) : Out :=
  match Tab.find s.flight n with
  | some f =>
    match f.msg with
    | .inval k =>
      match Tab.find s.flight k with
      | some g =>
        match g.msg with
        | .token t =>
          if s.oldAccess n f.core t.base (regionBytes t.sz) then idle s
          else .next (((s.flushRegion f.core t.base (regionBytes t.sz)).modCore f.core
            (fun c => { c with reported := c.reported.filter (fun b => b != t.base) })).dropFlight n)
        | _ => .next (s.dropFlight n)
      | none => .next (s.dropFlight n)
    | _ => idle s
  | none => idle s

/-- The issuer of a token instruction is privileged (R168). -/
def State.privileged (s : State) : Bool := s.inService || s.data.bind.tkadm

/-- The designator of a token instruction (R167). -/
def State.designator (s : State) (m : MForm) : Nat := (s.sreg m.base + m.disp.signExtend 64).toNat

/-- The request that a token instruction makes (R166, R167). -/
def State.tokReq (s : State) (m : MForm) (op : TokOp) (named : Bool) : TokReq :=
  let d := s.designator m
  { op := op, base := (s.desBase s.cur s.data d).base, sz := desSz d, self := s.data.bind.party,
    target := if named then s.sreg m.idx else 0, priv := s.privileged, scope := scopeOf m, d := dreg m,
    launch := s.data.bind.launch }

/-- The checks of a token instruction (R168), and the request. `named` says that Sp names a party. -/
def tokenRun (op : TokOp) (named : Bool) (m : MForm) (s : State) : Out :=
  let ws : List Write := match op with | .query => [.s (dreg m) 0, .s (dreg m + 1) 0] | _ => [.s (dreg m) 0]
  runSlot m.g
    (fun s => do
      let s ← if op.reads then .ok s else phaseNone s
      let d := s.designator m
      let s ← require (desOk d) .align s
      match s.desBase s.cur s.data d with
      | .trap c => .error (.trap c 0)
      | .miss va => .ok (s.hold (.walk va))
      | .pieces ps =>
        if !op.reads && s.tokenPending ps then .ok (s.hold (.freeze .late))
        else match s.own.tokenCause (s.tokReq m op named) with
          | some c => .error (.trap c 0)
          | none => do
            let s ← roomFor s
            landRoom ws.length s)
    (fun s => match readAddr (m.base.toNat :: (if named then [m.idx.toNat] else [])) s with
      | .error e => .error e
      | .ok s => .ok ((s.awaitLanding m.at16 ws).send (.token (s.tokReq m op named)))) s

def execLend (w : MForm) (s : State) : Out := tokenRun .lend true w s
def execLendPass (w : MForm) (s : State) : Out := tokenRun .lendPass true w s
def execRetn (w : MForm) (s : State) : Out := tokenRun .retn false w s
def execSplit (w : MForm) (s : State) : Out := tokenRun .split false w s
def execJoin (w : MForm) (s : State) : Out := tokenRun .join false w s
def execShare (w : MForm) (s : State) : Out := tokenRun .share true w s
def execUnshr (w : MForm) (s : State) : Out := tokenRun .unshr false w s
def execTkmodePlain (w : MForm) (s : State) : Out := tokenRun .plain false w s
def execTkmodeAtomic (w : MForm) (s : State) : Out := tokenRun .atomic false w s
def execTkqry (w : MForm) (s : State) : Out := tokenRun .query false w s

/-- TKQRY.CHAIN (R175): an S[n] above 3 traps ILLEGAL. -/
def execTkqryChain (w : MForm) (s : State) : Out :=
  if s.guard w.g && decide (3 < (s.sreg w.idx).toNat) then .next (s.stop (.trap .illegal 0))
  else tokenRun (.chain (s.sreg w.idx).toNat) false w s

/-- TKQRY.SELF (R175): the issuer's own party word; it names no region. -/
def execTkqrySelf (w : MForm) (s : State) : Out :=
  runSlot w.g
    (fun s => do
      let s ← roomFor s
      landRoom 1 s)
    (fun s => .ok ((s.awaitLanding w.at16 [.s (dreg w) 0]).send (.token
      { op := .me, base := 0, sz := 0, self := s.data.bind.party, scope := scopeOf w, d := dreg w }))) s

def execReclaimClean (w : MForm) (s : State) : Out := tokenRun .clean true w s
def execReclaimReinit (w : MForm) (s : State) : Out := tokenRun .reinit true w s
def execReclaimCreate (w : MForm) (s : State) : Out := tokenRun .create true w s
def execReclaimDestroy (w : MForm) (s : State) : Out := tokenRun .destroy false w s
def execReclaimSeize (w : MForm) (s : State) : Out := tokenRun .seize true w s

/-- The launch of a placed or saved task, as its LAUNCH party. -/
def State.launchOf (s : State) (p : Word) : Word :=
  match s.coreOfParty p with
  | some (c, k) => (s.ctxAt c k).bind.launch
  | none => match s.thyme.saved.find? (fun v => v.2.ctx.bind.party == p) with
    | some v => v.2.ctx.bind.launch
    | none => 0

/-- A party leaves the live-party maps (R187), and the splices of its contexts are unbound, of its notify contexts too (R90). -/
def State.partyDies (s : State) (p : Word) : State :=
  let l := s.launchOf p
  let eng := s.own.engaged.filter (fun e => e.2 != p)
  let at_ := s.cores.flatMap (fun e => (e.2.ctxs.filter (fun x => decide (x.1 < 4) && x.2.status != .free && x.2.bind.party == p)).map (fun x => (e.1, x.1)))
  let sv := s.thyme.saved.filter (fun v => v.2.ctx.bind.party == p)
  let s : State := { s with own := { s.own with live := s.own.live.erase p, dead := s.own.dead ++ [{ party := p, launch := l, cores := at_.map (fun e => e.1), no := s.seq }], engaged := eng } }
  sv.foldl (fun (t : State) v => t.unbindSaved v.1 v.2) (at_.foldl (fun (t : State) e => t.unbindCtx e.1 e.2) s)

/-- PARTY_DEATH: Thyme clears a dead party from the live-party maps and broadcasts its death (R187). -/
def execPartyDeath (p : Word) (s : State) : Out := if s.own.live.contains p then .next (s.partyDies p) else idle s

/-- What a scan makes of one entry (R187). -/
def State.scanEntry (s : State) (p l : Word) (r : Region) : Region :=
  let r := if s.own.sharer r.base p then { r with shares := r.shares - 1 } else r
  if r.owner = p ∧ r.st = .held then
    (if r.dirty then { r with st := .poison, dlaunch := l } else s.inherit { r with st := .orphan, dlaunch := l })
  else r

/-- The cores of a dead party have performed the accesses to a region that they issued before its death, so that they acknowledge the invalidation of its
rights (R164). -/
def State.acked (s : State) (d : Dead) (r : Region) : Bool := d.cores.all (fun c => !s.oldAccess d.no c r.base r.bytes)

/-- One entry that a dead party owns or shares, scanned: its lines leave the party's cores, and its rights go (R164, R187). -/
def State.scanOne (s : State) (d : Dead) (r : Region) : State :=
  let s := d.cores.foldl (fun (t : State) c => t.flushRegion c r.base r.bytes) s
  let s := s.putRegion (s.scanEntry d.party d.launch r)
  { s with own := { s.own with shares := s.own.shares.filter (fun e => !(e.1 == r.base && e.2 == d.party)) } }

/-- ORPHAN_SCAN: the token slices of a die scan their entries for a dead party (R187); an entry waits until the invalidation of the party's rights has been
acknowledged (R164). -/
def execOrphanScan (die : Nat) (p : Word) (s : State) : Out :=
  match s.own.dead.find? (fun e => e.party == p) with
  | some d =>
    let rs := s.own.regions.filter (fun e => s.homeDie e.1 == die && (e.2.owner == p || s.own.sharer e.1 p) && s.acked d e.2)
    .next (rs.foldl (fun (t : State) e => t.scanOne d e.2) s)
  | none => idle s

end Sys2Proof.Machine
end

