-- ==== Sys2Proof/Machine/Copy.lean ====
section
/-!
DEFINITION. The copy engines (R256 to R272): issue, start, pieces, deliveries, notifies, completion, and what stops an operation.
-/
namespace Sys2Proof.Machine

/-- The fields of a copy descriptor (R258). -/
def copyDesc (n : Nat) : CopyDesc :=
  { src := fld n 0 64, dst := fld n 64 64, comp := fld n 128 64, len := fld n 192 24, rows := fld n 216 16 + 1,
    inc := fld n 232 16, spitch := fld n 256 32, dpitch := fld n 288 32, sqk := n.testBit 320, sq := fld n 321 4,
    spop := n.testBit 325, dqk := n.testBit 326, dq := fld n 327 4, tfmt := fld n 331 4, tswz := fld n 335 4,
    mcast := fld n 339 4, tctx := fld n 343 2, narg := fld n 352 32, hndl := fld n 384 64,
    zeros := fld n 248 8 == 0 && fld n 345 7 == 0 && fld n 448 64 == 0 }

/-- The bytes that an operation moves (R258). -/
def CopyDesc.bytes (d : CopyDesc) : Nat := d.len * d.rows

/-- The ranges of R258 and the fields of R259. -/
def CopyDesc.ok (d : CopyDesc) (k : CopyKind) : Bool :=
  d.zeros && decide (64 ≤ d.len) && d.len % 64 == 0 && decide (1 ≤ d.inc) && decide (d.bytes ≤ 2 ^ 30) &&
  (d.tfmt != 13 && d.tfmt != 14) && (d.dqk || (d.tfmt == 0 && d.tswz == 0)) && (!d.sqk || (d.src == 0 && d.spitch == 0)) &&
  (!d.dqk || (d.dst == 0 && d.dpitch == 0)) &&
  (match k with
   | .cpy => d.mcast == 0 && d.tctx == 0 && d.narg == 0 && d.hndl == 0
   | .cpym => d.mcast != 0 && d.narg == 0 && d.hndl == 0 && (d.dqk || decide (d.dst < 0x200000))
   | .cpyn => d.mcast == 0 && !d.dqk
   | .cpyq => d.mcast == 0 && d.tctx == 0 && d.narg == 0 && d.hndl == 0 && d.dqk
   | _ => d.mcast == 0 && d.tctx == 0 && d.narg == 0 && d.hndl == 0 && !d.dqk && !d.sqk &&
       decide (d.dst < 0x200000))

/-- A 64-byte descriptor in the local window as older stores of the context, and of the service context that acts for it, leave it (R146, R261,
R272). -/
def State.descriptor (s : State) (a : Nat) : Nat :=
  let pa := spanPA s.cur s.data a
  let f : Flight := { core := s.cur, ctx := s.core.dataIdx, msg := .ack 0 0 }
  leNat (overlay pa (s.mem.readBytes pa 64) (s.olderStores s.seq f ++ if s.inService then s.olderStores s.seq { f with ctx := 4 } else []))

/-- The checks of a descriptor's address (R261, R277). -/
def descAddr (a : Nat) (s : State) : Except Stop State :=
  if a % 64 ≠ 0 then .error (.trap .align 0)
  else require (decide (a + 64 ≤ s.data.bind.spanBytes) && decide (a < 0x200000)) .xlate s

/-- The unjoined engine operations of a context (R257). -/
def State.unjoined (s : State) (c k : Nat) : Nat := (s.ops.filter (fun e => e.2.core == c && e.2.ctx == k)).length

/-- An engine instruction beyond the 32 unjoined operations holds (R257). -/
def engineRoom (s : State) : Except Stop State :=
  .ok (if s.unjoined s.cur s.core.dataIdx < 32 then s else s.hold (.freeze .late))

/-- The address of row `r`. -/
def rowAt (base pitch r : Nat) : Nat := (base + r * pitch) % 2 ^ 64

/-- The checks of the rows of one side (R261), for rows `r` and below. -/
def checkEngineRows (k : RKind) (base pitch len : Nat) : Nat → State → Except Stop State
  | 0, s => .ok s
  | r + 1, s => do
    let s ← checkEngineRows k base pitch len r s
    checkAccess k (rowAt base pitch r) len 1 s

/-- Translated pieces as a row. -/
def rowOf (ps : List Piece) : Row := ps.map (fun p => ⟨p.pa, p.len, p.w && !p.win, p.nc && !p.win⟩)

/-- The rows of one side as physical ranges. -/
def State.engineRows (s : State) (k : RKind) (base pitch len rows : Nat) : List Row :=
  (List.range rows).map (fun r =>
    let a := rowAt base pitch r
    rowOf (s.piecesOf k a len))

/-- The rows of a queue slot. -/
def slotRows (pa len rows : Nat) : List Row := (List.range rows).map (fun r => [⟨pa + r * len, len, false, false⟩])

/-- The check of a completion object (R261). -/
def checkComp (a n : Nat) (s : State) : Except Stop State := if a = 0 then .ok s else checkAccess .atom a n 1 s

/-- The physical address of a completion object. -/
def State.compPA (s : State) (a n : Nat) : Option Nat := if a = 0 then none else some (paAt (s.piecesOf .atom a n) 0)

/-- The page of a completion object has NC = 1. -/
def State.compNc (s : State) (a n : Nat) : Bool := decide (a ≠ 0) && (s.piecesOf .atom a n).any (fun p => p.nc && !p.win)

/-- The cores of the quad that CPYM names (R264). -/
def State.mcastCores (s : State) (d : CopyDesc) : List Nat :=
  ((List.range 4).filter (fun p => d.mcast.testBit p)).map (fun p => s.cur / 4 * 4 + p)

/-- The checks of one target of CPYM (R264). -/
def checkTarget (d : CopyDesc) (c : Nat) (s : State) : Except Stop State :=
  let own := c == s.cur && d.tctx == s.core.dataIdx
  let x := s.ctxAt c d.tctx
  if d.dqk then
    let q := x.queue d.dq
    if own || s.covers s.data.bind.party (spanPA c x (q.base * 512)) (q.cap * q.slotBytes) then .ok s else .error (.trap .ownNone 0)
  else
    if (List.range d.rows).any (fun r => decide (x.bind.spanBytes < rowAt d.dst d.dpitch r + d.len)) then .error (.trap .xlate 0)
    else if own || (List.range d.rows).all (fun r => s.covers s.data.bind.party (spanPA c x (rowAt d.dst d.dpitch r)) d.len) then .ok s
    else .error (.trap .ownNone 0)

def checkTargets (d : CopyDesc) : List Nat → State → Except Stop State
  | [], s => .ok s
  | c :: r, s => match checkTarget d c s with
    | .error e => .error e
    | .ok t => checkTargets d r t

/-- The pages of a range of addresses. -/
def pagesOf (a n : Nat) : List Nat := (List.range ((a % 4096 + n + 4095) / 4096)).map (fun i => a / 4096 + i)

/-- The interlock holds that the pages of an engine operation take: one for each eight, or part of eight, beyond the first eight of the pages that it
names, each counted once (R261, R277; assumption 97). -/
def pageHolds (ps : List Nat) : Nat := (ps.eraseDups.length - 8 + 7) / 8

/-- The bundle is held until the performing slot has taken its holds for pages (R261). -/
def holdPages (ps : List Nat) (s : State) : State :=
  if s.bun.walking || decide (pageHolds ps ≤ Tab.get 0 s.core.paged s.slot) then s else s.hold (.pages s.slot)

/-- The pages of a copy: of its source and destination rows by address, and of its completion object. -/
def CopyDesc.pages (d : CopyDesc) : List Nat :=
  let side (b : Bool) (base pitch : Nat) : List Nat := if b then [] else (List.range d.rows).flatMap (fun r => pagesOf (rowAt base pitch r) d.len)
  side d.sqk d.src d.spitch ++ side d.dqk d.dst d.dpitch ++ (if d.comp = 0 then [] else pagesOf d.comp 8)

/-- Some page of the rows of one side is not yet translated (R126). -/
def State.rowsMiss (s : State) (k : RKind) (base pitch len rows : Nat) : Bool :=
  (List.range rows).any (fun r => match s.resolve (k == .store) (rowAt base pitch r) len with | .miss _ => true | _ => false)

/-- A row of CPYF's destination lies in the span, outside the output half of the phase and outside the snapshot area (R268). -/
def Ctx.inputRow (x : Ctx) (a n : Nat) : Bool :=
  decide (a + n ≤ x.bind.spanBytes) && !overlap [(a, n)] [(x.phase.out, 512 * x.phase.blocks), (x.bind.snap, 37888)]

/-- The core scratchpad that holds every row of a destination, where one does (R265). -/
def State.destCore (s : State) (rows : List Row) : Option Nat :=
  match rows.flatten.map (fun p => s.targetOf p.pa) with
  | .scratch c :: r => if r.all (fun t => t == .scratch c) then some c else none
  | _ => none

/-- The issue checks of a copy instruction (R261 to R268). -/
def copyIssue (k : CopyKind) (m : MForm) (s : State) : Except Stop State := do
  let a := s.ea m
  let s ← descAddr a s
  let d := copyDesc (s.descriptor a)
  let s ← require (d.ok k) .illegal s
  let s ← require (!d.sqk || decide (d.bytes = (s.queue d.sq).slotBytes)) .illegal s
  let s ← require (!(d.dqk && k != .cpym) || decide (d.bytes = (s.queue d.dq).slotBytes)) .illegal s
  let s ← require (k != .cpyf || (s.data.bind.phaseBound && decide (s.data.phase.reg.length < 4))) .illegal s
  let s ← if d.sqk then (if d.spop then popSlots d.sq 1 s else needSlot d.sq 0 s) else .ok s
  let s ← if d.dqk ∧ k = .cpy then (do
      let s ← require ((s.queue d.dq).mode == .localQ) .queue s
      appendSlot d.dq s)
    else if k = .cpyq then (do
      let s ← require ((s.queue d.dq).mode == .spliceOut) .queue s
      appendSlot d.dq s)
    else .ok s
  let s ← require ((d.sqk || (d.src % 64 == 0 && d.spitch % 64 == 0)) && (d.dqk || (d.dst % 64 == 0 && d.dpitch % 64 == 0)) &&
    d.comp % 8 == 0) .align s
  let s ← if d.sqk then .ok s else checkEngineRows .load d.src d.spitch d.len d.rows s
  let s ← if d.dqk then (if k = .cpym then checkTargets d (s.mcastCores d) s else .ok s)
    else if k = .cpym then checkTargets d (s.mcastCores d) s
    else if k = .cpyf then require ((List.range d.rows).all (fun r => s.data.inputRow (rowAt d.dst d.dpitch r) d.len)) .xlate s
    else checkEngineRows .store d.dst d.dpitch d.len d.rows s
  let s ← checkComp d.comp 8 s
  let s ← if k = .cpyn ∧ s.rowsMiss .store d.dst d.dpitch d.len d.rows = false then
      require (match s.destCore (s.engineRows .store d.dst d.dpitch d.len d.rows) with
        | some c => c / 4 == s.cur / 4 && (c == s.cur || decide (0x200000 ≤ d.dst)) | none => false) .illegal s
    else .ok s
  let s := if d.sqk then s.modBun (fun b => { b with pins := b.pins ++ [(d.sq, (s.queue d.sq).at 0)] }) else s
  engineRoom (holdPages d.pages s)

/-- The ranges of other contexts' spans to which CPYM delivers at one core, for `n` bytes from offset `o` of row `r`: all of the target queue, or the
bytes by address (R264). They need tokens. -/
def State.targetRow (s : State) (c k : Nat) (d : CopyDesc) (t r o n : Nat) : Row :=
  let x := s.ctxAt t d.tctx
  if t = c ∧ d.tctx = k then []
  else
    let cut (a n : Nat) : Row := (pagesOf a n).map (fun p => ⟨max a (4096 * p), min (a + n) (4096 * p + 4096) - max a (4096 * p), true, false⟩)
    if d.dqk then cut (spanPA t x ((x.queue d.dq).base * 512)) ((x.queue d.dq).cap * (x.queue d.dq).slotBytes)
    else cut (spanPA t x (rowAt d.dst d.dpitch r + o)) n

/-- The regions by physical base that an operation of rows uses with a token (R177). -/
def State.engages (s : State) (rows : List Row) (comp : Option Nat) : List Nat :=
  let ps := (rows.flatten.filter (fun r => r.tok)).map (fun p => p.pa) ++
    (match comp with | some a => if (match s.targetOf a with | .scratch c => c == s.cur | _ => false) then [] else [a] | none => [])
  (ps.filterMap (fun a => (s.own.regionAt a).map (fun r => r.base))).eraseDups

/-- An engine operation issued: it takes its entry index and its place in program order, and engages its regions (R177, R257). -/
def State.issueOp (s : State) (comp : Option Nat) (nc : Bool) (inc : Nat) (rows : List Row) (body : EngBody) : State :=
  let k := s.core.dataIdx
  let x := s.data
  let eng := s.engages rows comp
  let o : EngOp := { core := s.cur, ctx := k, ent := x.engNext % 32, prio := x.bind.prio, party := x.bind.party, comp := comp,
                     inc := inc, engaged := eng, phase := x.bind.phaseBound, svc := s.inService, compNc := nc, body := body }
  let s : State := { s with ops := s.ops.put s.seq o, seq := s.seq + 1 }
  let s : State := { s with own := { s.own with engaged := s.own.engaged ++ eng.map (fun b => (b, x.bind.party)) } }
  s.modData (fun x => { x with engNext := x.engNext + 1 })

/-- The pieces of an operation, at most 512 bytes each and within one row (R270). -/
def CopyDesc.pieces (d : CopyDesc) : Nat := (d.len + 511) / 512 * d.rows

/-- The copy that an instruction starts from its descriptor (R262). -/
def State.copyOp (s : State) (k : CopyKind) (d : CopyDesc) : CopyOp :=
  let src := if d.sqk then slotRows (s.slotPA d.sq 0) d.len d.rows else s.engineRows .load d.src d.spitch d.len d.rows
  let q := s.queue d.dq
  let idx := s.appIdx d.dq
  let dst := if k = .cpym ∨ k = .cpyq then [] else if d.dqk then slotRows (spanPA s.cur s.data (q.slotOff idx)) d.len d.rows
    else s.engineRows .store d.dst d.dpitch d.len d.rows
  { kind := k, d := d, src := src, dst := dst, todo := List.range d.pieces,
    srcQ := if d.sqk then some (d.sq, (s.queue d.sq).at 0) else none,
    slot := if d.dqk ∧ k ≠ .cpym then
      some (d.dq, idx, match q.mode with | .spliceOut => some q.partner | _ => none) else none,
    targets := if k = .cpym then (s.mcastCores d).map (fun c => (c, .waiting)) else [],
    ncore := (s.destCore dst).getD s.cur }

/-- A copy instruction (R261, R262). -/
def copyRun (k : CopyKind) (m : MForm) (s : State) : Out :=
  runSlot m.g (copyIssue k m)
    (fun s => match readAddr (addrRegs m) s with
      | .error e => .error e
      | .ok s =>
        let a := s.ea m
        let d := copyDesc (s.descriptor a)
        let c := s.copyOp k d
        let ts := c.targets.flatMap (fun t => (List.range (if d.dqk then 1 else d.rows)).map (fun r =>
          s.targetRow s.cur s.core.dataIdx d t.1 r 0 d.len))
        let s := s.issueOp (s.compPA d.comp 8) (s.compNc d.comp 8) d.inc (c.src ++ c.dst ++ ts) (.copy c)
        .ok (if k = .cpyf then s.modData (fun x => { x with phase := { x.phase with reg := x.phase.reg ++ [a] } }) else s)) s

def execCpy (w : MForm) (s : State) : Out := copyRun .cpy w s
def execCpym (w : MForm) (s : State) : Out := copyRun .cpym w s
def execCpyn (w : MForm) (s : State) : Out := copyRun .cpyn w s
def execCpyq (w : MForm) (s : State) : Out := copyRun .cpyq w s
def execCpyf (w : MForm) (s : State) : Out := copyRun .cpyf w s

/-- The copy of an operation, where it is one. -/
def EngOp.copy? (o : EngOp) : Option CopyOp := match o.body with | .copy c => some c | _ => none

def State.setOp (s : State) (n : Nat) (o : EngOp) : State := { s with ops := s.ops.put n o }

/-- The fork edge of an operation (R153), and older fences with EN after them (R151), of its context and of the service context that issued it
(R272). -/
def State.forkReady (s : State) (n : Nat) (o : EngOp) : Bool := s.forkFree n o.core o.ctx && (!o.svc || s.forkFree n o.core 4)

/-- The oldest operation of the highest priority that waits on a die (R256). -/
def State.nextCopy (s : State) (die : Nat) : Option (Nat × EngOp) :=
  (s.ops.filter (fun e => e.2.core / 96 == die && !e.2.started && e.2.copy?.isSome)).foldl
    (fun (b : Option (Nat × EngOp)) e => match b with
      | none => some e
      | some c => if e.2.prio < c.2.prio then some e else b) none

/-- COPY_START: a free engine of a die takes the oldest operation of the highest priority present, which starts 8 cycles later (R256). -/
def execCopyStart (die : Nat) (s : State) : Out :=
  if (s.ops.filter (fun e => e.2.core / 96 == die && e.2.started && e.2.copy?.isSome)).length ≥ 16 then idle s
  else match s.nextCopy die with
    | some (n, o) => if s.forkReady n o then .next (s.setOp n { o with started := true, since := s.cycle + 8 }) else idle s
    | none => idle s

/-- The place of piece `i`: its row, its offset in the row, and its length (R270). -/
def CopyDesc.piece (d : CopyDesc) (i : Nat) : Nat × Nat × Nat :=
  let ppr := (d.len + 511) / 512
  let o := 512 * (i % ppr)
  (i / ppr, o, min 512 (d.len - o))

/-- `n` bytes of a row from offset `o`, as physical ranges. -/
def cutRow (r : Row) (o n : Nat) : Row :=
  let f := fun (acc : Row × Nat) (p : Rng) =>
    let lo := max o acc.2
    let hi := min (o + n) (acc.2 + p.len)
    (if lo < hi then acc.1 ++ [{ p with pa := p.pa + (lo - acc.2), len := hi - lo }] else acc.1, acc.2 + p.len)
  (r.foldl f ([], 0)).1

/-- The ranges of a row as pairs. -/
def pairs (r : Row) : List (Nat × Nat) := r.map (fun p => (p.pa, p.len))

/-- The ranges that an engine reads, at their homes (R367). -/
def State.useRow (s : State) (r : Row) : State := r.foldl (fun (t : State) p => t.useHome p.nc false [(p.pa, p.len)]) s

/-- Bytes cut along physical ranges. -/
def cutAlong : List (Nat × Nat) → List Byte → List (Nat × List Byte)
  | [], _ => []
  | p :: r, bs => (p.1, bs.take p.2) :: cutAlong r (bs.drop p.2)

/-- The cause that removed rights give to an access of an operation (R177, R271). -/
def State.lostRights (s : State) (o : EngOp) (k : RKind) (r : Row) : Option Cause :=
  (r.filterMap (fun p => if p.tok then s.rights k o.party p.pa else none)).head?

/-- The completion object of an operation as a range; one in the local window needs no token (R261). -/
def State.compRow (s : State) (o : EngOp) : Row :=
  match o.comp with
  | some a => [⟨a, 8, match s.targetOf a with | .scratch c => c != o.core | _ => true, o.compNc⟩]
  | none => []

/-- What stops an operation beside an error in its data (R271): rights that are gone, or a path that has failed, to what it reads, what it
writes, or its completion object. -/
def State.opCause (s : State) (o : EngOp) (reads writes : Row) : Option Cause :=
  (s.lostRights o .load reads).orElse (fun _ => (s.lostRights o .store writes).orElse (fun _ => (s.lostRights o .atom (s.compRow o)).orElse (fun _ =>
    if (reads ++ writes ++ s.compRow o).any (fun p => !s.inReach (o.core / 96) p.pa) then some .linkDown else none)))

/-- Rights to a range are being withdrawn (R164). -/
def State.withdrawing (s : State) (ps : List (Nat × Nat)) : Bool :=
  s.flight.any (fun e => match e.2.msg with
    | .token t => t.invSent && !t.answered && overlap ps [(t.base, regionBytes t.sz)]
    | _ => false) || s.hostWithdraws ps

/-- The engagements of an operation end (R177), and its pinned source slot is free (R262). -/
def State.endOp (s : State) (n : Nat) (o : EngOp) : State :=
  let eng := o.engaged.foldl (fun l b => l.erase (b, o.party)) s.own.engaged
  { s with ops := s.ops.drop n, own := { s.own with engaged := eng } }

def State.unpin (s : State) (o : EngOp) : State :=
  match o.body with
  | .copy c => match c.srcQ with
    | some (q, i) => s.modCtx o.core o.ctx (fun x => x.modQ q (fun d =>
        { d with pinned := d.pinned.erase i, headDue := d.headDue || d.mode == .spliceIn }))
    | none => s
  | _ => s

/-- A phase rolls back (R221): its context's core freezes until PHASE_ROLLBACK. -/
def State.startRollback (s : State) (c k : Nat) (e : Cause) : State :=
  let s := s.modCtx c k (fun x => { x with addr := x.pc, phase := { x.phase with rollback := some e } })
  if (s.coreAt c).running = some k then s.modCore c (fun y => { y with freeze := y.freeze ++ [.rollback] }) else s

/-- An operation that a rollback has issued (R268). -/
def EngOp.isRefetch (o : EngOp) : Bool := match o.copy? with | some c => decide (c.kind = .refetch) | none => false

/-- The cause of an operation delivered to its issuer (R271): at its next stop point, or, where the operation stops, at once if it waits on the
operation's object or slots; an uncorrectable error in a phase rolls the phase back; a refetch that stops makes the rollback fail (R221). -/
def State.deliver (s : State) (o : EngOp) (e : Cause) (stops : Bool) (slots : List (Nat × Nat)) : State :=
  let x := s.ctxAt o.core o.ctx
  if o.isRefetch then
    s.modCtx o.core o.ctx (fun x => { x with phase := { x.phase with failed := true } })
  else if x.bind.phaseBound && o.phase && e == .eccUe then s.startRollback o.core o.ctx e
  else
    let comp := if stops then o.comp else none
    s.causeNow o.core o.ctx { cause := e, ent := o.ent, comp := comp } (s.waitsOn o.core o.ctx comp slots)

/-- A slot left by a stopped operation: present, with every word marked bad (R271). -/
def State.badSlot (s : State) (c k q idx : Nat) : State :=
  let x := s.ctxAt c k
  let d := x.queue q
  if d.pmap.getLsbD idx then s
  else (s.markBad (spanPA c x (d.slotOff idx)) d.slotBytes).modCtx c k (fun x => x.modQ q (fun d => d.setPresent idx))

/-- The slots that an operation has allocated and not yet made present, on the issuing context's own queues (R271). -/
def EngOp.slots (o : EngOp) : List (Nat × Nat) :=
  match o.body with
  | .copy c =>
    (match c.slot with | some (q, i, none) => [(q, i)] | _ => []) ++
      c.targets.filterMap (fun t => match t.2 with
        | .slot i => if t.1 = o.core ∧ c.d.tctx = o.ctx then some (c.d.dq, i) else none
        | _ => none)
  | .sparse x =>
    (match x.oslot with | some l => [(x.oq, l.idx)] | none => []) ++ (match x.rslot with | some l => [(x.rq, l.idx)] | none => [])

/-- An operation stops (R271): it writes no further data, its absent slots become present and bad, it adds nothing, and its
cause is delivered. -/
def State.stopOp (s : State) (n : Nat) (o : EngOp) (e : Cause) : State :=
  let s := match o.body with
    | .copy c =>
      let s := match c.slot with
        | some (q, i, none) => s.badSlot o.core o.ctx q i
        | some (q, i, some dst) =>
          if c.slotSent then s
          else
            let m : Msg := .append ⟨o.core, o.ctx, q⟩ dst i (tagByte c.d.tfmt c.d.tswz) (List.replicate c.d.bytes 0)
              (List.range (c.d.bytes / 32))
            s.postAt o.core o.ctx n m
        | none => s
      c.targets.foldl (fun (t : State) (e : Nat × Delivery) => match e.2 with | .slot i => t.badSlot e.1 c.d.tctx c.d.dq i | _ => t) s
    | .sparse _ => o.slots.foldl (fun (t : State) (q : Nat × Nat) => t.badSlot o.core o.ctx q.1 q.2) s
  let slots := o.slots
  ((s.unpin o).endOp n o).deliver o e true slots

/-- The bytes that a delivery of CPYM or CPYQ takes from the buffer. -/
def CopyOp.bufBytes (c : CopyOp) : List Byte := c.buf.readBytes 0 c.d.bytes

/-- The ranges to which piece `i` of an operation goes. -/
def State.pieceRow (s : State) (o : EngOp) (c : CopyOp) (i : Nat) : Row :=
  let p := c.d.piece i
  if c.kind = .cpym then c.targets.flatMap (fun t => s.targetRow o.core o.ctx c.d t.1 p.1 p.2.1 p.2.2)
  else match c.dst[p.1]? with | some r => cutRow r p.2.1 p.2.2 | none => []

/-- The regions of which a write of an operation is the first to be reported (R163, R177). -/
def State.opReports (s : State) (o : EngOp) (r : Row) : List Nat :=
  ((r.filter (fun p => p.tok)).filterMap (fun p => (s.own.regionAt p.pa).map (fun g => g.base))).eraseDups.filter (fun b => !o.reported.contains b)

/-- A piece whose bytes have returned goes towards its destination (R263 to R267, R270). -/
def State.sendPiece (s : State) (n : Nat) (o : EngOp) (c : CopyOp) (i : Nat) (bs : List Byte) : State :=
  let p := c.d.piece i
  let off := p.1 * c.d.len + p.2.1
  let rep := if c.kind = .cpyq ∨ (c.kind = .cpym ∧ c.d.dqk) then [] else s.opReports o (s.pieceRow o c i)
  let put (s : State) (ws : List (Nat × List Byte)) (slot : Bool) : State :=
    s.launchFlight { core := o.core, ctx := 64, msg := .piece n ws slot rep }
  let o := { o with reported := rep ++ o.reported, back := some s.cycle }
  let c := { c with todo := c.todo.erase i, asked := c.asked.erase i }
  match c.kind with
  | .cpym =>
    if c.d.dqk then s.setOp n { o with body := .copy { c with buf := c.buf.writeBytes off bs } }
    else
      let ts := c.targets.map (fun t => t.1)
      let s := ts.foldl (fun t k => put t
        [(spanPA k (t.ctxAt k c.d.tctx) (rowAt c.d.dst c.d.dpitch p.1 + p.2.1), bs)] false) s
      s.setOp n { o with body := .copy { c with left := c.left + ts.length } }
  | .cpyq =>
    let c := { c with buf := c.buf.writeBytes off bs }
    let s := s.setOp n { o with body := .copy { c with slotSent := c.todo.isEmpty } }
    if c.todo.isEmpty then
      match c.slot with
      | some (q, idx, some dst) =>
        let m : Msg := .append ⟨o.core, o.ctx, q⟩ dst idx (tagByte c.d.tfmt c.d.tswz) c.bufBytes []
        s.postAt o.core o.ctx n m
      | _ => s
    else s
  | _ =>
    let ws := match c.dst[p.1]? with | some r => cutAlong (pairs (cutRow r p.2.1 p.2.2)) bs | none => []
    (put s ws c.d.dqk).setOp n { o with body := .copy { c with left := c.left + 1 } }

/-- The port's charge for a read of an engine: a class admits at most one piece a cycle; a piece that is not admitted leaves its class
active (R395 to R397). -/
def State.payEngine (s : State) (k : Nat) (o : EngOp) (ps : List (Nat × Nat)) : Except State State :=
  let n := s.chargeOf o.core ps
  let cls := s.shareClass o.core o.ctx
  let p := s.portCls o.core cls
  if n = 0 then .ok s
  else if p.eng = some s.cycle then .error (s.setPortCls o.core cls { p with active := true })
  else match p.take n with
    | some q => .ok (s.setPortCls o.core cls { q with eng := some s.cycle, turn := k })
    | none => .error (s.setPortCls o.core cls { p with active := true })

/-- The data of piece `i` come back to the engine, and go towards their destination; an uncorrectable error stops the operation (R270, R271). -/
def State.pieceBack (s : State) (n : Nat) (o : EngOp) (c : CopyOp) (i : Nat) (ps : List (Nat × Nat)) : State :=
  if ps.any (fun q => s.badRange q.1 q.2) then s.stopOp n o .eccUe
  else
    let s := s.sendPiece n o c i (ps.flatMap (fun q => s.homeBytes q.1 q.2))
    if c.todo.length = 1 then s.unpin o else s

/-- COPY_PIECE: the read of piece `i` of operation `n` goes out, or its data come back from their bank, and its write goes towards the home
(R270). An engine sends one read in a cycle, has 64 in flight, and moves one piece in a cycle (R256). Rights that are gone, a failed path, and an
uncorrectable error stop the operation (R271). -/
def execCopyPiece (n i : Nat) (s : State) : Out :=
  match Tab.find s.ops n with
  | some o =>
    match o.body with
    | .copy c =>
      if !o.started || decide (s.cycle < o.since) || !c.todo.contains i || o.back == some s.cycle then idle s
      else
        let p := c.d.piece i
        match c.src[p.1]? with
        | none => idle s
        | some r =>
          let r := cutRow r p.2.1 p.2.2
          let ps := pairs r
          let out := s.pieceRow o c i
          if s.withdrawing (ps ++ pairs (out ++ s.compRow o)) then idle s
          else match s.opCause o r out with
            | some e => .next (s.stopOp n o e)
            | none =>
              let away (s : State) : Bool := s.atBank ps || ps.any (fun q => s.remote q.1)
              if c.asked.contains i then (if away s then idle s else .next (s.pieceBack n o c i ps))
              else if o.turn == some s.cycle || decide (64 ≤ c.asked.length) then idle s
              else
                match s.payEngine n o ps with
                | .error s => .next s
                | .ok s =>
                  let s := s.useRow r
                  let c := { c with asked := c.asked ++ [i] }
                  let o := { o with turn := some s.cycle, body := .copy c }
                  let s := s.setOp n o
                  .next (if away s then s else s.pieceBack n o c i ps)
    | _ => idle s
  | none => idle s

/-- A queue has a free slot for a producer at the port (R82, R264, R278). -/
def QDesc.roomAtPort (d : QDesc) : Bool := decide (d.used + d.behind 0 false [] < d.cap)

/-- One slot allocated at the tail by a producer at the port. -/
def QDesc.allocate (d : QDesc) : QDesc :=
  let d := { d with tail := qadvance d.tail 1 d.cap }
  { d with hwm := max d.hwm d.used }

/-- An older CPYM of the same context has still to allocate in the same target queue (R264). -/
def State.olderDelivery (s : State) (n : Nat) (o : EngOp) (c : CopyOp) (k : Nat) : Bool :=
  s.ops.any (fun e => decide (e.1 < n) && e.2.core == o.core && e.2.ctx == o.ctx &&
    (match e.2.body with
     | .copy b => b.kind == .cpym && b.d.dqk && b.d.tctx == c.d.tctx && b.d.dq == c.d.dq && Tab.find b.targets k == some .waiting
     | _ => false))

def State.setTarget (s : State) (n : Nat) (o : EngOp) (c : CopyOp) (k : Nat) (v : Delivery) : State :=
  s.setOp n { o with body := .copy { c with targets := c.targets.put k v } }

/-- The slot that a delivery of CPYM fills at core `k`, as a range of the target's scratchpad. -/
def State.slotRow (s : State) (k : Nat) (c : CopyOp) (i : Nat) : Row :=
  let x := s.ctxAt k c.d.tctx
  [⟨spanPA k x ((x.queue c.d.dq).slotOff i), (x.queue c.d.dq).slotBytes, true, false⟩]

/-- CPYM_DELIVERY: the delivery of operation `n` at core `k` takes its next step (R264): the target queue is judged and a slot
allocated when the data first arrives, and the slot is written, tagged and made present when all of it has, after the report of a first write (R163). -/
def execCpymDelivery (n k : Nat) (s : State) : Out :=
  match Tab.find s.ops n with
  | some o =>
    match o.body with
    | .copy c =>
      if c.kind != .cpym || !c.d.dqk || !o.started then idle s
      else match Tab.find c.targets k with
        | some .waiting =>
          let d := (s.ctxAt k c.d.tctx).queue c.d.dq
          if c.todo.length = c.d.pieces || s.olderDelivery n o c k then idle s
          else if d.mode != .localQ || d.slotBytes != c.d.bytes then
            .next ((s.setTarget n o c k .done).deliver o .queue false [])
          else if d.roomAtPort then
            .next ((s.setTarget n o c k (.slot d.tail.idx)).modCtx k c.d.tctx (fun x => x.modQ c.d.dq QDesc.allocate))
          else idle s
        | some (.slot i) =>
          let r := s.targetRow o.core o.ctx c.d k 0 0 0
          if !c.todo.isEmpty || s.withdrawing (pairs r) then idle s
          else match s.opCause o [] r with
          | some e => .next (s.stopOp n o e)
          | none =>
            let rep := if r.isEmpty then [] else s.opReports o (s.slotRow k c i)
            if !rep.isEmpty then .next ((s.reportDirty o.core rep).setOp n { o with reported := rep ++ o.reported })
            else .next ((s.fillSlot k c.d.tctx c.d.dq i (tagByte c.d.tfmt c.d.tswz) c.bufBytes).setTarget n o c k .done)
        | _ => idle s
    | _ => idle s
  | none => idle s

/-- A handler starts in its notify context (R265). -/
def Ctx.startHandler (x : Ctx) (r : NotifyRec) : Ctx :=
  { x with status := .ready, pc := r.entry,
           regs := { x.regs with s := ((x.regs.s.put 1 r.arg).put 2 r.dst).put 3 r.bytes } }

/-- An older CPYN of the same context has still to notify the same context (R265). -/
def State.olderNotify (s : State) (n : Nat) (o : EngOp) (c : CopyOp) : Bool :=
  s.ops.any (fun e => decide (e.1 < n) && e.2.core == o.core && e.2.ctx == o.ctx &&
    (match e.2.body with
     | .copy b => b.kind == .cpyn && !b.notified && b.ncore == c.ncore && b.d.tctx == c.d.tctx
     | _ => false))

/-- NOTIFY: the payload of a CPYN has landed, and the engine notifies the context (R265). -/
def execNotify (n : Nat) (s : State) : Out :=
  match Tab.find s.ops n with
  | some o =>
    match o.body with
    | .copy c =>
      if c.kind != .cpyn || c.notified || !c.quiet || s.olderNotify n o c then idle s
      else
        let x := s.ctxAt c.ncore c.d.tctx
        let r : NotifyRec := { entry := BitVec.ofNat 64 c.d.hndl, arg := BitVec.ofNat 64 c.d.narg, dst := BitVec.ofNat 64 c.d.dst,
                               bytes := BitVec.ofNat 64 c.d.bytes }
        let t := s.setOp n { o with body := .copy { c with notified := true } }
        if x.status = .free ∨ !x.bind.isNotify then .next (t.deliver o .queue false [])
        else if x.status = .dormant then .next (t.modCtx c.ncore c.d.tctx (fun x => x.startHandler r))
        else if x.notifies.length < 4 then
          .next (t.modCtx c.ncore c.d.tctx (fun x => { x with notifies := x.notifies ++ [r] }))
        else idle s
    | _ => idle s
  | none => idle s

/-- An addition to a completion object at its home (R269, R270). -/
def State.addAt (s : State) (a inc : Nat) (nc : Bool) : State :=
  let v := (leNat (s.mem.readBytes a 8) + inc) % 2 ^ 64
  (({ s with mem := s.mem.writeBytes a (leBytes v 8) } : State).useHome nc true [(a, 8)]).covered (a, leBytes v 8)

/-- The addition of an operation that joins (R269). -/
def State.addComp (s : State) (o : EngOp) : State :=
  match o.comp with
  | some a => (s.addAt a o.inc o.compNc).dirtyFor o a
  | none => s

/-- The regions whose first write is the addition of an operation (R163). -/
def State.compReport (s : State) (o : EngOp) : List Nat := s.opReports o (s.compRow o)

/-- An append of an operation's slot is still on its way. -/
def State.appendOut (s : State) (o : EngOp) (c : CopyOp) : Bool :=
  match c.slot with
  | some (q, i, some _) => s.flight.any (fun e => match e.2.msg with
      | .append a _ j _ _ _ => a == ⟨o.core, o.ctx, q⟩ && j == i
      | _ => false)
  | _ => false

/-- COPY_COMPLETION: every write of operation `n` has performed; it adds to its completion object and joins (R269). -/
def execCopyCompletion (n : Nat) (s : State) : Out :=
  match Tab.find s.ops n with
  | some o =>
    match o.body with
    | .copy c =>
      if o.started && c.quiet && (c.kind != .cpyn || c.notified) && (!c.d.dqk || c.targets.all (fun t => t.2 == .done)) &&
          !s.appendOut o c && !s.withdrawing (pairs (s.compRow o)) then
        (match s.opCause o [] [] with
         | some e => .next (s.stopOp n o e)
         | none => .next (((s.reportDirty o.core (s.compReport o)).endOp n o).addComp o))
      else idle s
    | _ => idle s
  | none => idle s

end Sys2Proof.Machine
end

