-- ==== Sys2Proof/Machine/Sparse.lean ====
section
/-!
DEFINITION. The sparse-index engine (R273 to R281): issue, metadata, emission, finish, and SXSTOP.
-/
namespace Sys2Proof.Machine

/-- The fields of a sparse-index descriptor (R274). -/
structure SxDesc where
  msrc : Nat
  comp : Nat
  count : Nat
  cbase : Nat
  rbase : Nat
  inc : Nat
  rate : Nat
  oq : Nat
  rq : Nat
  rqen : Bool
  wide : Bool
  g : Nat
  pad : Nat
  spos : Nat
  scnt : Nat
  scrd : Nat
  zeros : Bool
  deriving DecidableEq, Repr

def sxDesc (n : Nat) : SxDesc :=
  { msrc := fld n 0 64, comp := fld n 64 64, count := fld n 128 32, cbase := fld n 160 32, rbase := fld n 192 32,
    inc := fld n 224 16, rate := fld n 240 5, oq := fld n 256 4, rq := fld n 260 4, rqen := n.testBit 264, wide := n.testBit 265,
    g := fld n 266 12 + 1, pad := fld n 288 32, spos := fld n 384 32, scnt := fld n 416 32, scrd := fld n 448 32,
    zeros := fld n 245 11 == 0 && fld n 278 10 == 0 && fld n 320 64 == 0 && fld n 480 32 == 0 }

/-- The bytes of an element (R274). -/
def SxDesc.ebytes (d : SxDesc) : Nat := if d.wide then 4 else 2
def SxOp.ebytes (x : SxOp) : Nat := if x.wide then 4 else 2

/-- The bytes of metadata that an operation reads (R275). -/
def metaBytes (run : Bool) (count : Nat) : Nat := if run then count * 4 else (count + 63) / 64 * 8

/-- Check 3 of R277. -/
def SxDesc.ok (d : SxDesc) (s : State) : Bool :=
  d.zeros && decide (1 ≤ d.count) && decide (1 ≤ d.inc) && decide (1 ≤ d.rate) && decide (d.rate ≤ 16) &&
  d.spos == 0 && d.scnt == 0 && d.scrd == 0 && decide (d.g * d.ebytes ≤ (s.queue d.oq).slotBytes) &&
  (!d.rqen || decide (d.g * d.ebytes ≤ (s.queue d.rq).slotBytes)) && (d.wide || decide (d.pad < 65536))

/-- The sparse-index operations of a core that wait in its start list (R273). -/
def State.sxWaiting (s : State) (c : Nat) : List (Nat × EngOp) :=
  s.ops.filter (fun e => e.2.core == c && !e.2.started && e.2.copy?.isNone)

/-- The issue checks of SXBM and SXRL (R277). -/
def sxIssue (run : Bool) (m : MForm) (s : State) : Except Stop State := do
  let a := s.ea m
  let s ← descAddr a s
  let d := sxDesc (s.descriptor a)
  let s ← require (d.ok s) .illegal s
  let s ← require ((s.queue d.oq).mode == .localQ && (!d.rqen || ((s.queue d.rq).mode == .localQ && d.rq != d.oq))) .queue s
  let s ← require (d.msrc % (if run then 4 else 8) == 0 && d.comp % 16 == 0) .align s
  let s ← checkAccess .load d.msrc (metaBytes run d.count) 1 s
  let s ← checkComp d.comp 16 s
  let s := holdPages (pagesOf d.msrc (metaBytes run d.count) ++ if d.comp = 0 then [] else pagesOf d.comp 16) s
  let s := if (s.sxWaiting s.cur).length < 32 then s else s.hold (.freeze .late)
  engineRoom s

/-- SXBM and SXRL (R276, R277). -/
def sxRun (run : Bool) (m : MForm) (s : State) : Out :=
  runSlot m.g (sxIssue run m)
    (fun s => match readAddr (addrRegs m) s with
      | .error e => .error e
      | .ok s =>
        let a := s.ea m
        let d := sxDesc (s.descriptor a)
        let src := rowOf (s.piecesOf .load d.msrc (metaBytes run d.count))
        let x : SxOp := { run := run, desc := a, count := d.count, cbase := d.cbase, rbase := d.rbase, rate := d.rate, oq := d.oq,
                          rq := d.rq, rqen := d.rqen, wide := d.wide, g := d.g, pad := d.pad, src := src }
        .ok (s.issueOp (s.compPA d.comp 16) (s.compNc d.comp 16) d.inc [src] (.sparse x))) s

def execSxbm (w : MForm) (s : State) : Out := sxRun false w s
def execSxrl (w : MForm) (s : State) : Out := sxRun true w s

/-- The unjoined sparse-index operations of the context, all or those with an entry index (R280). -/
def State.sxNamed (s : State) (ent : Option Nat) : List Nat :=
  (s.ops.filter (fun e => e.2.core == s.cur && e.2.ctx == s.core.dataIdx && e.2.copy?.isNone &&
    (match ent with | some k => e.2.ent == k | none => true))).map (fun e => e.1)

/-- SXSTOP (R280): it reaches the engine in the order of class EN, and answers when the operations it names have joined. -/
def sxstop (all : Bool) (m : MForm) (s : State) : Out :=
  runSlot m.g
    (fun s => do
      let s ← require (all || decide ((s.sreg m.base).toNat < 32)) .illegal s
      let s ← roomFor s
      landRoom 1 s)
    (fun s => match readAddr (if all then [] else [m.base.toNat]) s with
      | .error e => .error e
      | .ok s =>
        let ops := s.sxNamed (if all then none else some (s.sreg m.base).toNat)
        let st := if !all && ops.isEmpty then 5 else 0
        .ok ((s.awaitLanding m.at16 [.s (dreg m) 0]).send (.sxstop ops st false))) s

def execSxstop (w : MForm) (s : State) : Out := sxstop false w s
def execSxstopAll (w : MForm) (s : State) : Out := sxstop true w s

/-- The sparse-index operation that runs on a core (R273). -/
def State.sxRunning (s : State) (c : Nat) : Option (Nat × EngOp × SxOp) :=
  match s.ops.find? (fun e => e.2.core == c && e.2.started && e.2.copy?.isNone) with
  | some (n, o) => (match o.body with | .sparse x => some (n, o, x) | _ => none)
  | none => none

/-- SPARSE_START: the operation at the head of a core's start list starts, 4 cycles on (R273). -/
def execSparseStart (c : Nat) (s : State) : Out :=
  if (s.sxRunning c).isSome then idle s
  else match s.sxWaiting c with
    | (n, o) :: _ => if s.forkReady n o then .next (s.setOp n { o with started := true, since := s.cycle + 4 }) else idle s
    | [] => idle s

def State.setSx (s : State) (n : Nat) (o : EngOp) (x : SxOp) : State := s.setOp n { o with body := .sparse x }

/-- A phase that rolls back stops its operations at once (R282). -/
def State.sxHalted (s : State) (o : EngOp) : Bool := o.phase && (s.ctxAt o.core o.ctx).phase.rollback.isSome

/-- The metadata word `i` of an operation as physical ranges (R275). -/
def SxOp.wordRow (x : SxOp) (i : Nat) : Row :=
  let w := if x.run then 4 else 8
  cutRow x.src (i * w) w

/-- The metadata words of an operation (R275). -/
def SxOp.total (x : SxOp) : Nat := metaBytes x.run x.count / (if x.run then 4 else 8)

/-- The next metadata word has come back; an uncorrectable error stops the operation (R281). -/
def State.sxWord (s : State) (n : Nat) (o : EngOp) (x : SxOp) (bs : List Byte) (bad : Bool) : State :=
  if bad then s.stopOp n o .eccUe else s.setSx n o { x with got := x.got + 1, words := x.words ++ [leNat bs] }

/-- METADATA_ARRIVAL: the read of a metadata word of the running operation goes out, or the next word comes back from its bank; up to 16 are in
flight or waiting to be decoded (R275, R279). A cause that it meets stops the operation (R281). -/
def execMetadataArrival (c : Nat) (s : State) : Out :=
  match s.sxRunning c with
  | some (n, o, x) =>
    let r := x.wordRow x.got
    let ps := pairs r
    if decide (s.cycle < o.since) || s.sxHalted o || x.ending.isSome then idle s
    else if s.withdrawing (ps ++ pairs (s.compRow o)) then idle s
    else match s.opCause o r [] with
      | some e => .next (s.stopOp n o e)
      | none =>
        let back (s : State) (o : EngOp) (x : SxOp) : State :=
          s.sxWord n o x (ps.flatMap (fun p => s.homeBytes p.1 p.2)) (ps.any (fun p => s.badRange p.1 p.2))
        if x.got < x.asked ∧ !s.atBank ps ∧ !ps.any (fun p => s.remote p.1) then .next (back s o x)
        else if x.asked ≥ x.total ∨ 16 ≤ x.asked - x.got + x.words.length then idle s
        else
          let q := x.wordRow x.asked
          match s.opCause o q [] with
          | some e => .next (s.stopOp n o e)
          | none =>
            match s.payEngine n o (pairs q) with
            | .error s => .next s
            | .ok s =>
              let s := s.useRow q
              let first := decide (x.asked = x.got)
              let x := { x with asked := x.asked + 1 }
              let s := s.setSx n o x
              .next (if first && !s.atBank ps && !ps.any (fun p => s.remote p.1) then back s o x else s)
  | none => idle s

/-- The largest element of a width (R278). -/
def SxOp.top (x : SxOp) : Nat := if x.wide then 4294967295 else 65535

/-- The front word consumed. -/
def SxOp.drop (x : SxOp) : SxOp := { x with words := x.words.drop 1 }

/-- The next coordinate of the front word, with the state after it; none where the word has no more, with the state after it
(R275, R278). -/
def SxOp.step (x : SxOp) (w : Nat) : Option Nat × SxOp :=
  if x.run then
    let skip := fld w 0 16
    let run := fld w 16 16
    if x.sub < run then
      let crd := x.crd + (if x.sub = 0 then skip else 0)
      let y := { x with crd := crd + 1, sub := x.sub + 1 }
      (some (x.cbase + crd), if x.sub + 1 = run then ({ y with sub := 0, pos := x.pos + 1 }).drop else y)
    else (none, ({ x with crd := x.crd + skip, sub := 0, pos := x.pos + 1 }).drop)
  else
    let base := x.pos / 64 * 64
    match (List.range 64).find? (fun j => decide (x.pos ≤ base + j) && decide (base + j < x.count) && w.testBit j) with
    | some j =>
      let y := { x with pos := base + j + 1, crd := base + j + 1 }
      (some (x.cbase + base + j), if (base + j + 1) % 64 = 0 ∨ base + j + 1 = x.count then y.drop else y)
    | none =>
      let p := min (base + 64) x.count
      (none, ({ x with pos := p, crd := p }).drop)

/-- The queue slot of an issuer at an index, as a physical address. -/
def State.sxSlotPA (s : State) (o : EngOp) (q idx : Nat) : Nat :=
  let x := s.ctxAt o.core o.ctx
  spanPA o.core x ((x.queue q).slotOff idx)

/-- A slot closed (R278): zero after its elements, tagged, present. -/
def State.sxClose (s : State) (o : EngOp) (x : SxOp) (q : Nat) (l : OpenSlot) : State :=
  let d := (s.ctxAt o.core o.ctx).queue q
  let pa := s.sxSlotPA o q l.idx
  let used := x.g * x.ebytes
  let pads := (List.range (x.g - l.n)).flatMap (fun _ => leBytes x.pad x.ebytes)
  let m := (s.mem.writeBytes (pa + l.n * x.ebytes) pads).writeBytes (pa + used) (List.replicate (d.slotBytes - used) 0)
  let s := (({ s with mem := m } : State).covered (pa, List.replicate d.slotBytes 0)).tagBlocks pa (d.ssz + 1) (tagByte (if x.wide then 6 else 8) 0)
  s.modCtx o.core o.ctx (fun y => y.modQ q (fun d => d.setPresent l.idx))

/-- One element put into a queue (R278): a slot is opened where none is open, and closed when it is full. -/
def State.sxPut (s : State) (o : EngOp) (x : SxOp) (q : Nat) (l : Option OpenSlot) (v : Nat) : State × Option OpenSlot :=
  let d := (s.ctxAt o.core o.ctx).queue q
  let fresh := l.isNone
  let l := l.getD ⟨d.tail.idx, 0⟩
  let s := if fresh then s.modCtx o.core o.ctx (fun y => y.modQ q QDesc.allocate) else s
  let s : State := { s with mem := s.mem.writeBytes (s.sxSlotPA o q l.idx + l.n * x.ebytes) (leBytes v x.ebytes) }
  let l : OpenSlot := { l with n := l.n + 1 }
  if l.n = x.g then (s.sxClose o x q l, none) else (s, some l)

/-- The running operation may put another offset: its open slots, or free ones (R278). -/
def State.sxRoom (s : State) (o : EngOp) (x : SxOp) : Bool :=
  let y := s.ctxAt o.core o.ctx
  (x.oslot.isSome || (y.queue x.oq).roomAtPort) && (!x.rqen || x.rslot.isSome || (y.queue x.rq).roomAtPort)

/-- Up to `fuel` offsets of the front word emitted (R278, R279). -/
def State.sxEmit (s : State) (n : Nat) (o : EngOp) (x : SxOp) (w : Nat) : Nat → State
  | 0 => s.setSx n o x
  | f + 1 =>
    match x.step w with
      | (none, y) => s.setSx n o y
      | (some c, y) =>
        let k := (x.rbase + x.cnt) % 4294967296
        if c > x.top ∨ (x.rqen ∧ k > x.top) then (s.setSx n o x).stopOp n { o with body := .sparse x } .format
        else if !s.sxRoom o x then s.setSx n o x
        else
          let a := s.sxPut o x x.oq x.oslot c
          let b := if x.rqen then a.1.sxPut o x x.rq x.rslot k else (a.1, none)
          let y := { y with cnt := x.cnt + 1, oslot := a.2, rslot := b.2 }
          if y.words.length < x.words.length then b.1.setSx n o y else b.1.sxEmit n o y w f

/-- SPARSE_EMIT: the running operation decodes one metadata word and emits at most RATE offsets, once in a cycle (R278, R279). -/
def execSparseEmit (c : Nat) (s : State) : Out :=
  match s.sxRunning c with
  | some (n, o, x) =>
    match x.words with
    | w :: _ =>
      if x.stop || x.ending.isSome || s.sxHalted o || o.turn == some s.cycle then idle s
      else .next (s.sxEmit n { o with turn := some s.cycle } x w x.rate)
    | [] => idle s
  | none => idle s

/-- The operation that SPARSE_FINISH ends: one that has been stopped, between two elements that it emits (DEDUCED: the
elements of R280 are those of R278), or has emitted everything. -/
def State.sxFinishing (s : State) (c : Nat) : Option (Nat × EngOp × SxOp) :=
  s.ops.findSome? (fun e =>
    match e.2.body with
    | .sparse x =>
      if e.2.core == c && !s.sxHalted e.2 &&
          ((x.stop && (e.2.started || s.forkReady e.1 e.2)) || (e.2.started && x.pos == x.count && x.words.isEmpty)) then some (e.1, e.2, x)
      else none
    | _ => none)

/-- SPARSE_FINISH: the last slots are padded and closed; then, 4 cycles later where COMP lies in the local window, the count is written and the
operation joins (R278 to R280). What stops it meanwhile leaves no count (R281). -/
def execSparseFinish (c : Nat) (s : State) : Out :=
  match s.sxFinishing c with
  | some (n, o, x) =>
    match x.ending with
    | none =>
      let s := match x.oslot with | some l => s.sxClose o x x.oq l | none => s
      let s := match x.rslot with | some l => s.sxClose o x x.rq l | none => s
      .next (s.setSx n o { x with oslot := none, rslot := none, ending := some s.cycle })
    | some t =>
      let own := (s.compRow o).any (fun p => !p.tok)
      if (own && decide (s.cycle < t + 4)) || s.withdrawing (pairs (s.compRow o)) then idle s
      else match s.opCause o [] [] with
      | some e => .next (s.stopOp n o e)
      | none =>
        let s := s.reportDirty o.core (s.compReport o)
        let s : State := match o.comp with
          | some a => ({ s with mem := s.mem.writeBytes (a + 8) (leBytes x.cnt 8) } : State).covered (a + 8, leBytes x.cnt 8)
          | none => s
        .next ((s.endOp n o).addComp o)
  | none => idle s

end Sys2Proof.Machine
end

