-- ==== Sys2Proof/Machine/Matrix.lean ====
section
/-!
DEFINITION. The matrix array (R283 to R305): streams and slices, pushes, accumulations, clears, shifts, drains and loads.
-/
namespace Sys2Proof.Machine

/-- The element family of a format (R289): slice length, bytes per element; none for a format that no family holds. -/
def family (fmt : Nat) : Option (Nat × Nat) :=
  if fmt = 1 ∨ fmt = 2 then some (4, 2) else if fmt = 3 ∨ fmt = 4 then some (8, 1)
  else if fmt = 9 ∨ fmt = 10 then some (16, 1) else none

/-- The format is of the integer family (R289). -/
def isIntFmt (fmt : Nat) : Bool := fmt == 9 || fmt == 10

/-- The array-use rule (R284). -/
def arrayUse (s : State) : Except Stop State := require s.data.bind.array .illegal s

/-- The latch that records a stream of the context, where exactly one does (R291). -/
def State.latchOf (s : State) (d : Nat) : Option Nat :=
  let me := some (s.core.dataIdx, d)
  if s.core.latch0.filled = me then (if s.core.latch1.filled = me then none else some 0)
  else if s.core.latch1.filled = me then some 1 else none

/-- The place of a slice (R290, R291): the slot's offset from the head, and the slice within it. -/
def Stream.locate (st : Stream) (n i : Nat) : Nat × Nat :=
  let S := st.k / n
  if st.kind = 2 then (0, i) else (i / S, i % S)

/-- The stream rules of a push (R289 to R292) for stream `d`; `a` says that its lines are rows. -/
def pushStream (d i : Nat) (a scale : Bool) (s : State) : Except Stop State :=
  let st := s.stream d
  match family st.fmt with
  | none => .error (.trap .format 0)
  | some (n, w) => do
    let s ← require (st.en && (st.kind == 0 || st.kind == 2)) .format s
    let s ← require (st.k % n == 0 && decide (st.k / n ≤ 16) && (if a then st.rows == 32 else st.cols == 32)) .format s
    let s ← require (!(scale && isIntFmt st.fmt)) .format s
    let o := st.locate n i
    let s ← if st.kind = 0 then require (decide (32 * st.k * w ≤ (s.queue st.qn).slotBytes)) .format s
      else require ((s.latchOf d).isSome && st.swz == 0 && decide (i < st.k / n)) .format s
    if scale && st.scen then require (decide (31 * st.sstr + n * o.2 / 32 < (s.queue st.sq).slotBytes)) .format s else .ok s

/-- The distance checks, holds and pops of a push's stream (R288, R290 to R292). -/
def pushSlots (d i : Nat) (scale close : Bool) (s : State) : Except Stop State :=
  let st := s.stream d
  let n := (family st.fmt).getD (1, 1)
  let o := (st.locate n.1 i).1
  if st.kind = 2 then do
    let l := (s.latchOf d).getD 0
    let s := if (s.core.latch l).ready then s else s.hold (.freeze (.latch l))
    if scale && st.scen then needSlot st.sq 0 s else .ok s
  else do
    let s ← needSlot st.qn o s
    let s ← if close then popSlots st.qn (o + 1) s else .ok s
    if scale && st.scen then (if close then popSlots st.sq (o + 1) s else needSlot st.sq o s) else .ok s

/-- The identity offset of element (line, k) (R290). -/
def elemOff (n w l k : Nat) : Nat := k / n * (32 * n * w) + l * n * w + k % n * w

/-- A block of a scale slot that the beat fetches its 32 scales from carries an uncorrectable error (R292, R301). -/
def State.badScales (s : State) (st : Stream) (pa n slice : Nat) : Bool :=
  ((List.range 32).map (fun r => (r * st.sstr + n * slice / 32) / 512)).eraseDups.any (fun b => s.badRange (pa + 512 * b) 512)

/-- The faults of fetching a slice (R93, R301). -/
def fetchCheck (d i : Nat) (scale : Bool) (s : State) : Except Stop State :=
  let st := s.stream d
  let f := (family st.fmt).getD (1, 1)
  let o := st.locate f.1 i
  let n := 32 * f.1 * f.2
  let bad (b : Bool) (s : State) : Except Stop State := if b then .error (.fail .eccUe 0 false) else .ok s
  if st.kind = 2 then do
    let l := s.core.latch ((s.latchOf d).getD 0)
    let offs := (List.range 32).map (fun r => (r * st.k * f.2 + o.2 * f.1 * f.2, f.1 * f.2))
    let s ← bad (l.bad.any (fun w => overlap offs [(32 * w, 32)])) s
    bad (scale && st.scen && s.badScales st (s.slotPA st.sq 0) f.1 o.2) s
  else do
    let pa := s.slotPA st.qn o.1
    let b0 := o.2 * n / 512
    let s ← bad (s.badRange (pa + 512 * b0) 512) s
    let s ← bad (scale && st.scen && s.badScales st (s.slotPA st.sq o.1) f.1 o.2) s
    if tagOk (s.tagAt (pa + 512 * b0)) st.fmt st.swz then .ok s else .error (.fail .format 0 false)

/-- The slice of a stream as raw elements by line and position (R290, R291). -/
def State.slice (s : State) (d i : Nat) : List (List Nat) :=
  let st := s.stream d
  let f := (family st.fmt).getD (1, 1)
  let o := st.locate f.1 i
  if st.kind = 2 then
    let l := s.core.latch ((s.latchOf d).getD 0)
    (List.range 32).map (fun r => (List.range f.1).map (fun j =>
      leNat ((l.data.drop ((r * st.k + f.1 * o.2 + j) * f.2)).take f.2)))
  else
    let pa := s.slotPA st.qn o.1
    (List.range 32).map (fun r => (List.range f.1).map (fun j =>
      leNat (s.mem.readBytes (pa + swz st.swz (elemOff f.1 f.2 r (f.1 * o.2 + j))) f.2)))

/-- The scales of a stream by line (R292): 127 where it has none. -/
def State.scales (s : State) (d i : Nat) (scale : Bool) : List Nat :=
  let st := s.stream d
  let f := (family st.fmt).getD (1, 1)
  let o := st.locate f.1 i
  if scale && st.scen then
    let pa := s.slotPA st.sq (if st.kind = 2 then 0 else o.1)
    (List.range 32).map (fun r => (s.mem.read (pa + r * st.sstr + f.1 * o.2 / 32)).toNat)
  else List.replicate 32 127

def xa (w : XForm) : Nat := w.a.toNat
def xb (w : XForm) : Nat := w.b.toNat
def xi (w : XForm) : Nat := w.slice.toNat
def xscale (w : XForm) : Bool := w.flags.getLsbD 1
def xclose (w : XForm) : Bool := w.flags.getLsbD 0
def xbank (w : XForm) : Nat := w.bank.toNat

/-- The cell operation suits a family (R289). -/
def cellOk (cell fmt : Nat) : Bool := !isIntFmt fmt || cell == 0

/-- The issue checks of MPA and MPSH (R288). -/
def pushIssue (w : XForm) (cell : Nat) (s : State) : Except Stop State := do
  let s ← arrayUse s
  let s ← pushStream (xa w) (xi w) true (xscale w) s
  let s ← pushStream (xb w) (xi w) false (xscale w) s
  let fa := (s.stream (xa w)).fmt
  let s ← require (family fa == family (s.stream (xb w)).fmt && isIntFmt fa == isIntFmt (s.stream (xb w)).fmt && cellOk cell fa)
    .format s
  let s ← pushSlots (xa w) (xi w) (xscale w) (xclose w) s
  pushSlots (xb w) (xi w) (xscale w) (xclose w) s

/-- A beat that reads a latch fetches from it for two beats (R55, R139). -/
def State.fetching (s : State) (d : Nat) : State :=
  let st := s.stream d
  if st.kind = 2 then
    match s.latchOf d with
    | some l => s.modMyCore (fun c => c.setLatch l { c.latch l with readers := 2 })
    | none => s
  else s

def State.modArr (s : State) (f : MArray → MArray) : State := s.modMyCore (fun c => { c with arr := f c.arr })

/-- MPSH and MPA: the slices go to staging, and MPA's accumulation is pending (R293). -/
def push (w : XForm) (mac : Bool) (s : State) : Out :=
  runSlot w.g (pushIssue w (if mac then w.cell.toNat else 0))
    (fun s => do
      let s ← fetchCheck (xa w) (xi w) (xscale w) s
      let s ← fetchCheck (xb w) (xi w) (xscale w) s
      let st : Staging := { fa := (s.stream (xa w)).fmt, fb := (s.stream (xb w)).fmt, a := s.slice (xa w) (xi w),
                            b := s.slice (xb w) (xi w), ea := s.scales (xa w) (xi w) (xscale w),
                            eb := s.scales (xb w) (xi w) (xscale w) }
      let s := (s.fetching (xa w)).fetching (xb w)
      .ok (s.modArr (fun a => { a with
        next := a.next ++ [(2, st)]
        beats := if mac then a.beats ++ [⟨6, xbank w, w.cell.toNat, st⟩] else a.beats }))) s

def execMnop (w : XForm) (s : State) : Out := runSlot w.g arrayUse .ok s
def execMpa (w : XForm) (s : State) : Out := push w true s
def execMpsh (w : XForm) (s : State) : Out := push w false s

/-- MACC: staging as it stands is accumulated again (R293). -/
def execMacc (w : XForm) (s : State) : Out :=
  runSlot w.g
    (fun s => do
      let s ← arrayUse s
      require (match s.core.arr.staging with | some st => cellOk w.cell.toNat st.fa | none => false) .format s)
    (fun s => match s.core.arr.staging with
      | some st => .ok (s.modArr (fun a => { a with beats := a.beats ++ [⟨6, xbank w, w.cell.toNat, st⟩] }))
      | none => .ok s) s

/-- Accumulator (r, c) of a bank. -/
def Bank.at (k : Bank) (r c : Nat) : Nat := fld k.acc.toNat (32 * (32 * r + c)) 32

/-- A bank from its accumulators. -/
def bankOf (f : Nat → Nat → Nat) : BitVec 32768 :=
  BitVec.ofNat 32768 ((List.range 1024).foldr (fun i acc => f (i / 32) (i % 32) % 4294967296 + 4294967296 * acc) 0)

/-- The exact value of an element of a format under a scale (R114). -/
def scaledElem (fmt e v : Nat) : FVal :=
  if e = 255 then .nan else ((fltOf fmt).value v).scale ((e : Int) - 127)

/-- The floating cell operation of one beat (R115). -/
def cellBeat (cell acc : Nat) (a b : List FVal) : Nat :=
  let ab := List.zip a b
  let v := fp32.value acc
  fp32.round .rne (match cell with
    | 0 => ab.foldl (fun t p => t.add (p.1.mul p.2)) v
    | 1 => ab.foldl (fun t p => t.add (p.1.add p.2.neg).abs) v
    | 2 => ab.foldl (fun t p => t.min (p.1.add p.2)) v
    | _ => ab.foldl (fun t p => t.max (p.1.add p.2)) v)

/-- The integer cell operation of one beat (R294). -/
def residueMac (fa fb acc : Nat) (a b : List Nat) : Nat :=
  let c := resChannels acc
  let x : Int := crt c.1 c.2.1 c.2.2
  let val (f v : Nat) : Int := if f = 9 then signed v 8 else v
  resOf ((List.zip a b).foldl (fun t p => t + val fa p.1 * val fb p.2) x % resM)

/-- A line of a slice, and its scale. -/
def line (l : List (List Nat)) (r : Nat) : List Nat := l.getD r []

/-- An accumulation lands (R293). -/
def Bank.land (k : Bank) (cell : Nat) (st : Staging) : Bank :=
  { k with acc := bankOf (fun r c =>
      if isIntFmt st.fa then residueMac st.fa st.fb (k.at r c) (line st.a r) (line st.b c)
      else cellBeat cell (k.at r c) ((line st.a r).map (scaledElem st.fa (st.ea.getD r 127)))
        ((line st.b c).map (scaledElem st.fb (st.eb.getD c 127)))) }

/-- The due accumulations land in issue order, and due pushes reach staging (R286, R293). -/
def MArray.landDue (a : MArray) : MArray :=
  let a := (a.beats.filter (fun b => b.due == 0)).foldl (fun a b => a.setBank b.bank ((a.bank b.bank).land b.cell b.ops)) a
  let a := { a with beats := a.beats.filter (fun b => b.due != 0) }
  match (a.next.filter (fun p => p.1 == 0)).getLast? with
  | some p => { a with staging := some p.2, next := a.next.filter (fun p => p.1 != 0) }
  | none => a

/-- MATRIX_ACCUMULATION_LANDING: the accumulations of a core that are due land in their banks (R285, R286, R293). -/
def execMatrixAccumulationLanding (c : Nat) (s : State) : Out := .next (s.modCore c (fun k => { k with arr := k.arr.landDue }))

/-- One beat passes: the counts of pending work step (R285). -/
def MArray.tick (a : MArray) : MArray :=
  { a with beats := a.beats.map (fun b => { b with due := b.due - 1 }), next := a.next.map (fun p => (p.1 - 1, p.2)) }

/-- MCLR (R295). -/
def execMclr (w : XForm) (s : State) : Out :=
  runSlot w.g arrayUse
    (fun s => .ok (s.modArr (fun a => a.setBank (xbank w) { a.bank (xbank w) with acc := 0, bad := [] }))) s

/-- A bank shifted toward the drain edge, with the bits of rows 0 to 3 (R296): row r is bits [1024r + 1023 : 1024r]. -/
def Bank.shift (k : Bank) (rows : BitVec 4096) : Bank :=
  { k with acc := (k.acc <<< 4096) ||| rows.setWidth 32768, bad := (k.bad.map (fun i => i + 128)).filter (fun i => decide (i < 1024)) }

/-- An accumulator that a shift moves out of the bank is bad (R302). -/
def Bank.badEdge (k : Bank) : Bool := k.bad.any (fun i => decide (896 ≤ i))

/-- MSHF (R296). -/
def execMshf (w : XForm) (s : State) : Out :=
  runSlot w.g arrayUse (fun s => .ok (s.modArr (fun a => a.setBank (xbank w) ((a.bank (xbank w)).shift 0)))) s

/-- The bytes of a drained element (R297). -/
def drainWidth (fmt : Nat) : Nat := if fmt = 1 ∨ fmt = 2 then 2 else 4

/-- The conversion of a drain (R116). -/
def drainElem (fmt v : Nat) : Nat :=
  match fmt with
  | 0 => v
  | 1 => bf16.round .rne (fp32.value v)
  | 2 => fp16.round .rne (fp32.value v)
  | 3 => (IFmt.mk 32 true).wrap (resSigned v)
  | _ => let c := resChannels v; resOf (crt c.1 c.2.1 c.2.2)

/-- The byte of element (local row, column) in a slot of `rows` local rows (R297). -/
def tileOff (rows w row c : Nat) : Nat := c / 4 * (4 * rows * w) + row * (4 * w) + c % 4 * w

/-- The `m`-th MDRN's rows laid into a slot of `g` groups (R297). -/
def drainRows (k : Bank) (fmt g m : Nat) (mem : Memory) : Memory :=
  let w := drainWidth fmt
  (List.range 128).foldl (fun mm i =>
    mm.writeBytes (tileOff (4 * g) w (4 * g - 4 * m - 4 + i / 32) (i % 32))
      (leBytes (drainElem fmt (k.at (28 + i / 32) (i % 32))) w)) mem

/-- The groups of four rows that a slot holds (R297); none where it is not a whole number from 1 to 8. -/
def groupsOf (bytes w : Nat) : Option Nat :=
  let g := bytes / (128 * w)
  if bytes % (128 * w) = 0 ∧ 1 ≤ g ∧ g ≤ 8 then some g else none

/-- MDRN (R297). -/
def execMdrn (w : XForm) (s : State) : Out :=
  let q := w.q.toNat
  let fmt := w.fmt.toNat
  runSlot w.g
    (fun s => do
      let s ← arrayUse s
      match (s.core.arr.bank (xbank w)).drain with
      | some o => require (o.q == q && o.fmt == fmt) .format s
      | none => do
        let s ← require (groupsOf (s.queue q).slotBytes (drainWidth fmt)).isSome .format s
        appendSlot q s)
    (fun s =>
      let k := s.core.arr.bank (xbank w)
      if (List.range 128).any (fun i => k.bad.contains (896 + i)) then .error (.fail .eccUe 0 false)
      else
        let o : OpenDrain := match k.drain with
          | some o => o
          | none => { q := q, idx := s.appIdx q, rem := match (s.queue q).mode with | .spliceOut => some (s.queue q).partner | _ => none,
                      fmt := fmt, m := 0, groups := (groupsOf (s.queue q).slotBytes (drainWidth fmt)).getD 1, data := [], no := s.seq }
        let o : OpenDrain := { o with data := drainRows k fmt o.groups o.m o.data, m := o.m + 1 }
        let k := k.shift 0
        if o.m = o.groups ∨ xclose w then
          .ok ((s.modArr (fun a => a.setBank (xbank w) { k with drain := none })).put (o.write o.bytes) 4)
        else .ok (s.modArr (fun a => a.setBank (xbank w) { k with drain := some o }))) s

/-- DRAIN_SLOT_PRESENT: a closed drain slot becomes present, or leaves along its splice (R286, R297). -/
def execDrainSlotPresent (c : Nat) (s : State) : Out :=
  .next ((List.range 5).foldl (fun (t : State) k =>
    let ps := (t.ctxAt c k).pend.filter (fun p => p.due == 0 && p.slot == 9)
    let t := t.modCtx c k (fun x => { x with pend := x.pend.filter (fun p => !(p.due == 0 && p.slot == 9)) })
    t.landAll c k ps) s)

/-- The local rows of a load slot that an MLDA writes to rows 0 to 3 (R299). -/
def State.loadRows (s : State) (o : OpenLoad) (g : Nat) : BitVec 4096 :=
  let pa := spanPA s.cur s.data ((s.queue o.q).slotOff o.idx)
  lanesOf (fun i =>
    let v := leNat (s.mem.readBytes (pa + tileOff (4 * g) 4 (4 * g - 4 * o.m - 4 + i / 32) (i % 32)) 4)
    if o.fmt = 4 then drainElem 4 v else v)

/-- The load slot that an MLDA uses: the open one, or the head slot (R299). -/
def State.loadSlot (s : State) (bank q fmt : Nat) : OpenLoad :=
  match (s.core.arr.bank bank).load with
  | some o => o
  | none => { q := q, idx := (s.queue q).at 0, fmt := fmt, m := 0 }

/-- MLDA (R299). -/
def execMlda (w : XForm) (s : State) : Out :=
  let q := w.q.toNat
  let fmt := w.fmt.toNat
  runSlot w.g
    (fun s => do
      let s ← arrayUse s
      let d := s.queue q
      let g := (groupsOf d.slotBytes 4).getD 0
      let o := s.loadSlot (xbank w) q fmt
      let s ← require (o.q == q && o.fmt == fmt && decide (1 ≤ g)) .format s
      let s ← require (d.mode == .localQ || d.mode == .spliceIn) .queue s
      if o.m + 1 = g ∨ xclose w then popSlots q 1 s
      else if (s.core.arr.bank (xbank w)).load.isSome then .ok (s.use q) else needSlot q 0 s)
    (fun s =>
      let d := s.queue q
      let g := (groupsOf d.slotBytes 4).getD 1
      let o := s.loadSlot (xbank w) q fmt
      let k := s.core.arr.bank (xbank w)
      let pa := spanPA s.cur s.data (d.slotOff o.idx)
      let tagged := (List.range (d.ssz + 1)).all (fun b => tagOk (s.tagAt (pa + 512 * b)) (drainTag fmt) 0)
      if k.badEdge || s.badRange pa d.slotBytes then .error (.fail .eccUe 0 false)
      else if k.load.isNone && !tagged then .error (.fail .format 0 false)
      else
        let last := o.m + 1 = g ∨ xclose w
        let k := { k.shift (s.loadRows o g) with load := if last then none else some { o with m := o.m + 1 } }
        .ok (s.modArr (fun a => a.setBank (xbank w) k))) s

end Sys2Proof.Machine
end

