-- ==== Sys2Proof/Machine/Gang.lean ====
section
/-!
DEFINITION. Barriers and gangs (R306 to R328): barrier words and slots, BARA, BARW, BAR, GJOIN, GISS, GEND, arrivals and
releases, the end of GISS's hold, and completions.
-/
namespace Sys2Proof.Machine

/-- The fields of a barrier word (R307). -/
def barScope (v : Word) : Nat := fld v.toNat 0 3
def barSlotNo (v : Word) : Nat := fld v.toNat 3 6
def barPkg (v : Word) : Nat := fld v.toNat 9 10

/-- The slots of a scope (R306). -/
def barCount (scope : Nat) : Nat :=
  match scope with
  | 1 => 16 | 2 => 16 | 3 => 64 | 4 => 64 | 5 => 32 | _ => 0

/-- A barrier word is well-formed (R312). -/
def barOk (v : Word) : Bool :=
  decide (v.toNat < 2 ^ 19) && decide (barSlotNo v < barCount (barScope v)) && (barScope v == 5 || barPkg v == 0)

/-- The slot that a barrier word names for core `c` (R307): scope, then the unit of that scope, then the slot. -/
def barKey (c : Nat) (v : Word) : Nat :=
  let unit := match barScope v with
    | 1 => c | 2 => c / 4 | 3 => c / 96 | 5 => barPkg v | _ => 0
  (barScope v * 1024 + unit) * 64 + barSlotNo v

def State.bar (s : State) (key : Nat) : BarSlot := Tab.get {} s.bars key

def State.setBar (s : State) (key : Nat) (b : BarSlot) : State := { s with bars := s.bars.put key b }

/-- A phase has been reached (R309). -/
def reached (phase b : Nat) : Bool := decide ((phase + 4294967296 - b % 4294967296) % 4294967296 < 2147483648)

/-- The slot is bound to the launch of a context (R308, R312). -/
def State.barBound (s : State) (c : Nat) (v : Word) (x : Ctx) : Bool :=
  let b := s.bar (barKey c v)
  x.bind.launch != 0 && b.launch == x.bind.launch

/-- The checks of R312; `arrives` says BARA or BAR. -/
def barCheck (arrives : Bool) (v : Word) (s : State) : Except Stop State := do
  let s ← require (barOk v && !s.inService) .illegal s
  let s ← require (!(arrives && s.me.bind.phaseBound && decide (1 < barScope v))) .illegal s
  require (s.barBound s.cur v s.me) .gang s

/-- An arrival's message, with a flush sequence number at PKG and POD scope (R390). -/
def State.sendArrival (s : State) (v : Word) (bar : Bool) : State :=
  let s := if barScope v < 4 then s else s.modMe (fun x => { x with flushSeq := x.flushSeq + 1 })
  s.send (.arrive v bar false)

/-- BARA (R313). -/
def execBara (w : RForm) (s : State) : Out :=
  runSlot w.g (fun s => barCheck true (s.sreg w.a) s)
    (fun s => match readRegs [w.a.toNat] s with
      | .error e => .error e
      | .ok s => .ok (s.sendArrival (s.sreg w.a) false)) s

/-- The phase that BARW waits for (R311): an unsigned immediate, S[b][31:0], or the low 32 bits of a LIT-extended value. -/
def barPhase (w : RForm) (s : State) : Nat :=
  if w.i = 0 then (s.sreg (w.b.extractLsb' 0 5)).toNat % 4294967296
  else match s.litFor with
    | some _ => (s.opB w).toNat % 4294967296
    | none => w.b.toNat

/-- BARW (R314). -/
def execBarw (w : RForm) (s : State) : Out :=
  runSlot w.g
    (fun s => do
      let v := s.sreg w.a
      let s ← barCheck false v s
      .ok (if reached (s.bar (barKey s.cur v)).phase (barPhase w s) then s else s.wait (.barrier v (barPhase w s))))
    (fun s => readRegs (rReads w) s) s

/-- BAR (R315): the core freezes from its own cycle on until the release of the arrival's phase; S[d] is awaited. -/
def execBar (w : RForm) (s : State) : Out :=
  runSlot w.g
    (fun s => do
      let s ← barCheck true (s.sreg w.a) s
      landRoom 1 s)
    (fun s => match readRegs [w.a.toNat] s with
      | .error e => .error e
      | .ok s =>
        let v := s.sreg w.a
        let n := s.seq
        let s := (s.awaitLanding 0 [.s w.d.toNat 0]).sendArrival v true
        .ok (s.modMyCore (fun c => { c with freeze := c.freeze ++ [.bar (.object n 0)] }))) s

/-- A wait on a barrier slot (R315). -/
def Wait.onBar (c key : Nat) : Wait → Bool
  | .barrier v _ => barKey c v == key
  | _ => false

/-- Some context of core `c` waits on a slot (R309). -/
def Core.awaits (c : Nat) (k : Core) (key : Nat) : Bool :=
  k.freeze.any (fun f => match f with | .bar w => w.onBar c key | .wait w => w.onBar c key | _ => false) ||
  k.ctxs.any (fun e => match e.2.wait with | some w => w.onBar c key | none => false)

/-- One arrival at a slot (R309): the phase of the arrival, and the releases that its completion sends. -/
def State.arriveAt (s : State) (key : Nat) : State × Nat :=
  let b := s.bar key
  if b.arrived + 1 = b.expect then
    let p := (b.phase + 1) % 4294967296
    let s := s.setBar key { b with phase := p, arrived := 0 }
    ((s.cores.filter (fun e => e.2.awaits e.1 key)).foldl (fun t e => t.post e.1 0 (.release key p)) s, b.phase)
  else (s.setBar key { b with arrived := b.arrived + 1 }, b.phase)

/-- The wait of BAR number `n` becomes a wait for the release of its phase (R315). -/
def Core.barFor (c : Core) (n : Nat) (w : Wait) : Core :=
  { c with freeze := c.freeze.map (fun f => if f = .bar (.object n 0) then .bar w else f) }

/-- The release of BAR's phase has reached its core (R315): S[d] is written and the freeze ends. -/
def State.barDone (s : State) (c k n p : Nat) (w : Wait) : State :=
  let s := s.modCore c (fun y => { y with freeze := y.freeze.erase (.bar w) })
  let ws := ((s.ctxAt c k).land.filter (fun l => l.flight == n)).map (fun l => match l.w with | .s d _ => Write.s d (BitVec.ofNat 64 p) | w => w)
  s.modCtx c k (fun x => ws.foldl Ctx.write { x with land := x.land.filter (fun l => l.flight != n) })

/-- An older arrival of the same context at the same slot has not been counted (R313). -/
def State.olderArrival (s : State) (n : Nat) (f : Flight) (v : Word) : Bool :=
  s.flight.any (fun e => decide (e.1 < n) && e.2.core == f.core && e.2.ctx == f.ctx &&
    (match e.2.msg with | .arrive u _ _ => barKey f.core u == barKey f.core v | _ => false))

/-- BARRIER_ARRIVAL: an arrival whose release is complete, at PKG and POD scope with the acknowledgements of its flush markers, reaches its home and
is counted (R152, R309, R310, R313). BAR's arrival stays until its release, and waits for the phase after that of its arrival (R315). -/
def execBarrierArrival (n : Nat) (s : State) : Out :=
  match Tab.find s.flight n with
  | some f =>
    match f.msg with
    | .arrive v bar sent =>
      if !s.fencePredsDone n f 31 (barScope v) || s.olderArrival n f v then idle s
      else if 4 ≤ barScope v ∧ !sent then .next (s.sendMarkers n f (barScope v) (.arrive v bar true))
      else if !s.markersDone n then idle s
      else
        let key := barKey f.core v
        let s := s.dropFlight n
        if bar then
          let p := ((s.bar key).phase + 1) % 4294967296
          let w : Wait := .barrier v p
          let s := s.modCore f.core (fun c => c.barFor n w)
          let s := s.modCtx f.core f.ctx (fun x => { x with barNo := some (n, p) })
          .next (s.arriveAt key).1
        else .next (s.arriveAt key).1
    | _ => idle s
  | none => idle s

/-- A wait met by a phase of a slot (R309). -/
def Wait.metBy (c key p : Nat) : Wait → Bool
  | .barrier v b => barKey c v == key && reached p b
  | _ => false

/-- BARRIER_RELEASE: a release reaches a core: a BAR whose phase it is ends, and the other waits on the slot are met (R314, R315). -/
def execBarrierRelease (n : Nat) (s : State) : Out :=
  match Tab.find s.flight n with
  | some f =>
    match f.msg with
    | .release key p =>
      let s := s.dropFlight n
      let bars := (s.coreAt f.core).freeze.filterMap (fun e => match e with | .bar w => if w.metBy f.core key p then some w else none | _ => none)
      let s := bars.foldl (fun (t : State) w =>
        ((t.coreAt f.core).ctxs.filter (fun e => e.2.barNo.isSome)).foldl (fun (t : State) e =>
          match e.2.barNo with
          | some (m, q) => if w = .barrier (match w with | .barrier v _ => v | _ => 0) q then
              (t.barDone f.core e.1 m q w).modCtx f.core e.1 (fun x => { x with barNo := none }) else t
          | none => t) t) s
      let s := s.modCore f.core (fun c => { c with freeze := c.freeze.filter (fun e => match e with | .wait w => !w.metBy f.core key p | _ => true) })
      .next (s.modCore f.core (fun c => { c with ctxs := c.ctxs.map (fun e =>
        match e.2.wait with
        | some w => if w.metBy f.core key p then (e.1, { e.2 with wait := none, status := if e.2.status = .waiting then .ready else e.2.status }) else e
        | none => e) }))
    | _ => idle s
  | none => idle s

def State.setGang (s : State) (n : Nat) (g : Gang) : State := { s with gangs := s.gangs.put n g }

/-- A member's state set. -/
def Gang.setMember (g : Gang) (m : Nat) (st : GState) : Gang := { g with states := g.states.set m st }

/-- GJOIN (R318). -/
def execGjoin (w : RForm) (s : State) : Out :=
  runSlot w.g
    (fun s => do
      let s ← require (s.isStopPoint && !s.inService) .illegal s
      require ((s.gangOf s.me).isSome && !s.inBroadcast) .gang s)
    (fun s => match s.me.bind.gang, s.gangOf s.me with
      | some n, some g =>
        let m := s.me.bind.member
        let s := s.put (.s w.d.toNat (BitVec.ofNat 64 (m + 4 * (g.members.length - 1)))) 1
        .ok (if m = 0 then s else s.setGang n { g with parking := m :: g.parking })
      | _, _ => .ok s) s

/-- GISS (R319): the leader freezes until every follower is PARKED. -/
def execGiss (w : RForm) (s : State) : Out :=
  runSlot w.g
    (fun s => do
      let v := s.sreg w.a
      let s ← require (!s.inService) .illegal s
      let s ← require ((s.gangOf s.me).isSome && s.me.bind.member == 0 && !s.inBroadcast) .gang s
      if v = 0 then .ok s
      else do
        let s ← require (!s.me.bind.phaseBound || barScope v == 1) .illegal s
        barCheck false v s)
    (fun s => match readRegs [w.a.toNat] s with
      | .error e => .error e
      | .ok s =>
        match s.me.bind.gang, s.gangOf s.me with
        | some n, some g =>
          .ok ((s.setGang n { g with comp := s.sreg w.a, giss := true }).modMyCore (fun c => { c with freeze := c.freeze ++ [.giss] }))
        | _, _ => .ok s) s

/-- GEND (R322). -/
def execGend (w : RForm) (s : State) : Out :=
  runSlot w.g (fun s => require s.inBroadcast .gang s) (fun s => .ok (s.setCtl .gend)) s

/-- Every follower stands where the leader stands: its program counter, loop stack, loop indices and segments (R320). -/
def State.follow (s : State) (g : Gang) : State :=
  match g.members with
  | [] => s
  | l :: r =>
    let x := s.ctxAt l.1 l.2
    r.foldl (fun (t : State) m => t.modCtx m.1 m.2 (fun y =>
      { y with pc := x.pc, past := x.past, loops := x.loops, buf := x.buf, regs := { y.regs with x := x.regs.x }, atStop := x.atStop })) s

/-- GISS_HOLD_END: the last follower has parked; every member enters BROADCAST, and the bundle after GISS issues on every member
3 cycles later (R319), a follower that a pre-emption had stopped among them. Followers keep their own loop indices and loop stacks aside (R320). -/
def execGissHoldEnd (n : Nat) (s : State) : Out :=
  match Tab.find s.gangs n with
  | some g =>
    match g.members with
    | l :: r =>
      if (s.coreAt l.1).freeze.contains .giss && (g.states.drop 1).all (fun st => st == .parked) then
        let s : State := { s with seq := s.seq + 1 }
        let kept := r.map (fun m => ((s.ctxAt m.1 m.2).regs.x, (s.ctxAt m.1 m.2).loops))
        let owed := if g.comp = 0 then g.owed else g.owed ++ [{ desc := g.comp, first := s.seq }]
        let g := { g with states := g.states.map (fun _ => GState.broadcast), delay := 3, kept := kept, owed := owed, comp := 0,
                          stopped := [], giss := false }
        let s := s.modCore l.1 (fun c => { c with freeze := c.freeze.erase .giss })
        let s := r.foldl (fun (t : State) (m : Nat × Nat) => t.modCore m.1 (fun c =>
          { (c.modCtx m.2 (fun x => { x with status := .running })) with running := some m.2 })) s
        .next ((s.setGang n g).follow g)
      else idle s
    | [] => idle s
  | none => idle s

/-- The broadcast ends (R322): every member is DETACHED, each with its own loop stack and indices; a completion owed counts what
the broadcast issued up to here (R323). -/
def State.endBroadcast (s : State) (n : Nat) (g : Gang) : State :=
  let s : State := { s with seq := s.seq + 1 }
  let marks := g.members.map (fun m => (s.coreAt m.1).asd + (s.coreAt m.1).arr.beats.foldl (fun (n : Nat) (b : Beat) => max n b.due) 0)
  let g' := { g with states := g.states.map (fun _ => GState.detached), delay := 2, kept := [],
                     owed := g.owed.map (fun o => if o.last.isNone then { o with last := some s.seq, beats := marks } else o) }
  let s := (s.follow g).setGang n g'
  ((g.members.drop 1).zip g.kept).foldl (fun (t : State) e =>
    t.modCtx e.1.1 e.1.2 (fun y => { y with loops := e.2.2, regs := { y.regs with x := e.2.1 } })) s

/-- What a broadcast issued has performed, joined and landed on every member (R323). -/
def State.owedDone (s : State) (g : Gang) (o : Owed) : Bool :=
  match o.last with
  | none => false
  | some last =>
    let mine (c k : Nat) : Bool := g.members.contains (c, k)
    let here (n : Nat) : Bool := decide (o.first ≤ n) && decide (n < last)
    s.flight.all (fun e => !(here (e.2.place e.1 / 2) && mine e.2.core e.2.ctx && e.2.msg.cls.isSome && !e.2.msg.done)) &&
    g.members.all (fun m => !s.appendsDue (2 * last) m.1 m.2 5) &&
    s.ops.all (fun e => !(here (e.2.born.getD e.1) && mine e.2.core e.2.ctx)) &&
    (g.members.zip o.beats).all (fun e => decide (e.2 ≤ (s.coreAt e.1.1).asd))

/-- GANG_COMPLETION: the gang sends the completion of a broadcast: one arrival at the slot of every member core for CORE scope, else
one arrival at the slot (R323). -/
def execGangCompletion (n : Nat) (s : State) : Out :=
  match Tab.find s.gangs n with
  | some g =>
    match g.owed with
    | o :: r =>
      if s.owedDone g o then
        let s := s.setGang n { g with owed := r }
        if barScope o.desc = 1 then .next (g.members.foldl (fun t m => (t.arriveAt (barKey m.1 o.desc)).1) s)
        else match g.members with
          | m :: _ => .next (s.arriveAt (barKey m.1 o.desc)).1
          | [] => idle s
      else idle s
    | [] => idle s
  | none => idle s

end Sys2Proof.Machine
end

