-- ==== Sys2Proof/Machine/Expand.lean ====
section
/-!
DEFINITION. The prefetch engine (R25 to R35): decoding the stored form of a segment, the repeat codes, the expanded image and its
signature, the malformations of a segment and of a bundle, and SEGMENT_EXPANSION.
-/
namespace Sys2Proof.Machine

/-- Bytes as little-endian 32-bit words; a last part word is dropped. -/
def words32 : List Byte → List Nat
  | a :: b :: c :: d :: r => leNat [a, b, c, d] :: words32 r
  | _ => []

/-- The header of a segment (R25). -/
structure SegHeader where
  slen : Nat
  xlen : Nat
  lastb : Nat
  resv : Nat
  xsig : Nat
  next : Int
  deriving DecidableEq, Repr

def segHeader (bs : List Byte) : SegHeader :=
  let n := leNat (bs.take 16)
  { slen := fld n 0 16, xlen := fld n 16 16, lastb := fld n 32 9, resv := fld n 41 23, xsig := fld n 64 32,
    next := signed (fld n 96 32) 32 }

/-- The bytes that a memory instruction's displacement moves for a Delta of one (R132, R181); none where the word has no increment
field. -/
def incBytes (i : Instr) : Option Nat :=
  match i with
  | .ld m => if dkind m = 0 then some (sizeBytes m.sz.toNat) else none
  | .st m => if dkind m = 0 then some (sizeBytes m.sz.toNat) else none
  | .ldl _ => some 4
  | .stl _ => some 4
  | .ldv _ => some 512
  | .stv _ => some 512
  | .aadd m => some (atomBytes m.sz.toNat)
  | .amin m => some (atomBytes m.sz.toNat)
  | .amax m => some (atomBytes m.sz.toNat)
  | .aand m => some (atomBytes m.sz.toNat)
  | .aor m => some (atomBytes m.sz.toNat)
  | .axor m => some (atomBytes m.sz.toNat)
  | .aswp m => some (atomBytes m.sz.toNat)
  | .acas m => some (atomBytes m.sz.toNat)
  | .afadd m => some (atomBytes m.sz.toNat)
  | .redadd m => if dkind m = 0 then some (atomBytes m.sz.toNat) else if dkind m = 1 then some 512 else none
  | .redmin m => if dkind m = 0 then some (atomBytes m.sz.toNat) else if dkind m = 1 then some 512 else none
  | .redmax m => if dkind m = 0 then some (atomBytes m.sz.toNat) else if dkind m = 1 then some 512 else none
  | .redfadd m => if dkind m = 0 then some (atomBytes m.sz.toNat) else if dkind m = 1 then some 512 else none
  | _ => none

/-- A field of `n` bits at bit `lo` of a word, moved by a signed amount modulo its width (R34). -/
def addField (w lo n : Nat) (d : Int) : Nat :=
  w - fld w lo n * 2 ^ lo + (((fld w lo n : Int) + d) % 2 ^ n).toNat * 2 ^ lo

/-- The scalar opcodes of form R (R61). -/
def formR (op : Nat) : Bool :=
  !(op == 0x2A || op == 0x2B || op == 0x2C || (decide (0x50 ≤ op) && decide (op ≤ 0x53)) ||
    (decide (0x56 ≤ op) && decide (op ≤ 0x59)))

/-- The assigned scalar opcodes (R61). -/
def scalarOp (op : Nat) : Bool :=
  (decide (0x01 ≤ op) && decide (op ≤ 0x09)) || (decide (0x10 ≤ op) && decide (op ≤ 0x1B)) || (decide (0x20 ≤ op) && decide (op ≤ 0x2C)) ||
    (decide (0x30 ≤ op) && decide (op ≤ 0x39)) || (decide (0x40 ≤ op) && decide (op ≤ 0x4B)) || (decide (0x50 ≤ op) && decide (op ≤ 0x5D)) ||
    (decide (0x60 ≤ op) && decide (op ≤ 0x79))

/-- A slot word with Delta added to its increment field (R34); none where it has none. -/
def increment (slot w : Nat) (delta : Int) : Option Nat :=
  if slot < 2 then
    (if formR (fld w 21 7) && scalarOp (fld w 21 7) && w.testBit 10 then some (addField w 0 10 delta) else none)
  else if slot = 6 then some (addField w 0 10 delta)
  else if slot = 7 ∨ slot = 8 then
    (match rawDecode slot w with
     | some i => (incBytes i).map (fun n => addField w 0 24 (delta * n))
     | none => none)
  else if slot = 9 then some (addField w 0 4 delta)
  else none

/-- The code of a slot in a bundle header (R32). -/
def slotCode (h slot : Nat) : Nat := fld h (2 * slot) 2

/-- The 32-bit words of a slot's word (R33). -/
def slotWords (slot : Nat) : Nat := slotBytes slot / 4

/-- What the slots of a bundle resolve to: the words by slot, the faults of repeat codes as slots, and the stored words left;
none where the stored words run out (R34, R35). A repeat code that cannot be resolved leaves its slot idle, or, for code 11 on a word
without an increment field, the word as it is, in the expanded form and as the word that a later bundle repeats: R27 and R35 do not say
(assumption 84, DESIGN CHOICE). -/
def resolveSlots (h : Nat) (first : Bool) (prev : List (Nat × Nat)) :
    List Nat → List Nat → List (Nat × Nat) → List Nat → Option (List (Nat × Nat) × List Nat × List Nat)
  | [], ws, acc, bad => some (acc, bad, ws)
  | sl :: r, ws, acc, bad =>
    let before := (prev.find? (fun e => e.1 == sl)).map (fun e => e.2)
    match slotCode h sl with
    | 0 => resolveSlots h first prev r ws acc bad
    | 1 =>
      if ws.length < slotWords sl then none
      else
        let w := if slotWords sl = 1 then ws.getD 0 0 else ws.getD 0 0 + 4294967296 * ws.getD 1 0
        resolveSlots h first prev r (ws.drop (slotWords sl)) (acc ++ [(sl, w)]) bad
    | 2 =>
      match before with
      | some w => resolveSlots h first prev r ws (acc ++ [(sl, w)]) (if first then bad ++ [sl] else bad)
      | none => resolveSlots h first prev r ws acc (bad ++ [sl])
    | _ =>
      match before.bind (fun w => increment sl w (signed (fld h 20 4) 4)) with
      | some w => resolveSlots h first prev r ws (acc ++ [(sl, w)]) (if first then bad ++ [sl] else bad)
      | none => resolveSlots h first prev r ws
          (match before with | some w => acc ++ [(sl, w)] | none => acc) (bad ++ [sl])

/-- The explicit words that a header's slot codes ask for (R33). -/
def explicitWords (h : Nat) : Nat :=
  (List.range 10).foldl (fun n sl => if slotCode h sl = 1 then n + slotWords sl else n) 0

/-- A LIT in s1 whose s0 cannot take it (R37). -/
def litBad (ws : List (Nat × Nat)) : Bool :=
  match ws.find? (fun e => e.1 == 1) with
  | some (_, w) =>
    fld w 21 7 == 0x2C &&
      (match ws.find? (fun e => e.1 == 0) with
       | some (_, v) => let op := fld v 21 7
                        (decide (0x56 ≤ op) && decide (op ≤ 0x59)) || (formR op && !v.testBit 10)
       | none => true)
  | none => false

/-- A loop-end index that does not exceed the loop instruction's own index (R36). -/
def loopBad (idx : Nat) (ws : List (Nat × Nat)) : Bool :=
  match ws.find? (fun e => e.1 == 0) with
  | some (_, w) => decide (0x56 ≤ fld w 21 7) && decide (fld w 21 7 ≤ 0x59) && decide (fld w 9 9 ≤ idx)
  | none => false

/-- The first slot whose word breaks a rule on its own bits (R35, R46, R67). -/
def badWord (ws : List (Nat × Nat)) : Option Nat :=
  (ws.find? (fun e => match decodeWord e.1 e.2 with | .ok _ => false | .error _ => true)).map (fun e => e.1)

/-- The first malformation of a bundle, in the order of R35, with the slot at fault or 15. -/
def bundleBad (h idx : Nat) (ws : List (Nat × Nat)) (bad : List Nat) : Option (Cause × Nat) :=
  let eleven := (List.range 10).any (fun sl => slotCode h sl == 3)
  match bad with
  | sl :: _ => some (.illegalDelta, sl)
  | [] =>
    if fld h 20 4 ≠ 0 ∧ !eleven then some (.illegalDelta, 15)
    else if fld h 27 5 ≠ explicitWords h then some (.illegal, 15)
    else if fld h 25 2 ≠ 0 then some (.illegal, 15)
    else match badWord ws with
      | some sl => some (.illegal, sl)
      | none => if litBad ws then some (.illegal, 1) else if loopBad idx ws then some (.illegal, 0) else none

/-- The stored words of the expanded form of a bundle (R27). -/
def expandedWords (h : Nat) (ws : List (Nat × Nat)) : List Nat :=
  let codes := ws.foldl (fun n e => n + 4 ^ e.1) 0
  let wc := ws.foldl (fun n e => n + slotWords e.1) 0
  (codes + fld h 24 1 * 16777216 + fld h 25 2 * 33554432 + wc * 134217728) ::
    ws.flatMap (fun e => if slotWords e.1 = 1 then [e.2] else [e.2 % 4294967296, e.2 / 4294967296])

/-- The bundles of a segment in stored order, with their expanded words and the stored words left over (R27). -/
def expandBundles : Nat → Nat → List (Nat × Nat) → List Nat → Option (List Bundle × List Nat × List Nat)
  | 0, _, _, ws => some ([], [], ws)
  | n + 1, idx, prev, ws =>
    match ws with
    | [] => none
    | h :: r =>
      match resolveSlots h (idx == 0) prev (List.range 10) r [] [] with
      | none => none
      | some (sl, bad, rest) =>
        match expandBundles n (idx + 1) sl rest with
        | none => none
        | some (bs, xs, left) =>
          some ({ stop := h.testBit 24, words := sl, bad := bundleBad h idx sl bad } :: bs, expandedWords h sl ++ xs, left)

/-- CRC-32C of bytes (R25). -/
def crc32c (bs : List Byte) : Nat := crcBytes 0xFFFFFFFF bs ^^^ 0xFFFFFFFF

/-- A segment from its stored bytes (R27, R28): malformed segments and signature mismatches are marked with their cause. -/
def expandSegment (addr : Nat) (bs : List Byte) : Segment :=
  let h := segHeader bs
  match expandBundles (h.lastb + 1) 0 [] (words32 ((bs.take h.slen).drop 16)) with
  | some (bundles, xs, left) =>
    if !left.isEmpty || h.slen % 4 != 0 || decide (h.slen < 20) || 4 * xs.length != h.xlen || decide (16384 < h.xlen) ||
        h.resv != 0 then
      { addr := addr, next := h.next, bundles := [], bad := some .illegal }
    else if crc32c (xs.flatMap (fun w => leBytes w 4)) ≠ h.xsig then
      { addr := addr, next := h.next, bundles := [], bad := some .sig }
    else { addr := addr, next := h.next, bundles := bundles }
  | none => { addr := addr, next := h.next, bundles := [], bad := some .illegal }

/-- What a fetch reaches: bytes, a cause, or a translation that must be walked first. -/
inductive Fetched where
  | bytes (l : List Byte)
  | fault (c : Cause)
  | miss (va : Nat)
  deriving DecidableEq, Repr

/-- The bytes of a virtual range as the prefetch engine of a context reads them, at their homes (R28, R29, R124, R125). A segment of the
service routine lies at a physical address (PRESUMED, assumption 13). -/
def State.fetch (s : State) (c k : Nat) : Nat → Nat → Nat → List Byte → Fetched
  | 0, _, _, acc => .bytes acc
  | f + 1, va, n, acc =>
    if n = 0 then .bytes acc
    else
      let len := min n (4096 - va % 4096)
      let x := s.ctxAt c k
      if k = 4 then s.fetch c k f (va + len) (n - len) (acc ++ s.mem.readBytes (s.key va) len)
      else if va < 0x200000 ∨ 0x1000000000000 ≤ va then .fault .xlate
      else match (s.coreAt c).tlbFind x.bind.asn va with
        | none => if (s.coreAt c).walkFailed x.bind.asn va then .fault .xlate else .miss va
        | some e =>
          let pa := s.key (e.pa + (va - e.va))
          if !e.x || !s.reaches c (e.pa + (va - e.va)) then .fault .xlate
          else match (if e.w then s.rights .bypass x.bind.party pa else none) with
            | some r => .fault r
            | none =>
              if s.badRange pa len then .fault .eccUe
              else if !s.inReach (c / 96) pa then .fault .linkDown
              else if s.remote pa then .miss va
              else s.fetch c k f (va + len) (n - len) (acc ++ s.mem.readBytes pa len)

/-- The segment at an address, as the engine of a context fetches and expands it; or the address whose translation is missing. -/
def State.fetchSegment (s : State) (c k seg : Nat) : Except Nat Segment :=
  match s.fetch c k 3 (seg * 64) 16 [] with
  | .miss va => .error va
  | .fault e => .ok { addr := seg, bad := some e }
  | .bytes hd =>
    match s.fetch c k 20 (seg * 64) ((segHeader hd).slen) [] with
    | .miss va => .error va
    | .fault e => .ok { addr := seg, bad := some e }
    | .bytes bs => .ok (expandSegment seg bs)

/-- The successor of a segment, where it has one (R25). -/
def Segment.succ (g : Segment) : Option Nat := if g.next = 0 then none else some (segPlus g.addr g.next)

/-- The segments that a context's engine is to expand now (R29): the one of its program counter, else, once bundle 0 of that one has
issued, its successor. -/
def Ctx.wanted (x : Ctx) : Option Nat :=
  match x.segment (segOf x.pc) with
  | none => some (segOf x.pc)
  | some g =>
    match g.bad, g.succ with
    | none, some n => if (x.segment n).isSome || !g.opened then none else some n
    | _, _ => none

/-- Bundle 0 of a context's segment issues, and the expansion of the successor starts (R29). -/
def Ctx.openSegment (x : Ctx) : Ctx :=
  if idxOf x.pc = 0 then { x with buf := x.buf.map (fun g => if g.addr = segOf x.pc then { g with opened := true } else g) } else x

/-- A cycle of the engine of a context: what it has fetched comes closer to issue (R29). -/
def Ctx.expandTick (x : Ctx) : Ctx := { x with buf := x.buf.map (fun g => { g with left := g.left - 1 }) }

/-- The loop-buffer halves with a newly expanded segment (R29). -/
def Ctx.install (x : Ctx) (g : Segment) : Ctx :=
  { x with buf := g :: (x.buf.filter (fun h => h.addr == segOf x.pc && h.addr != g.addr)).take 1 }

/-- The halves that a transfer of control to segment `seg` leaves useful (R29, R31): the current segment, or its successor. -/
def Ctx.enter (x : Ctx) (seg : Nat) : Ctx :=
  if seg = segOf x.pc then x
  else match x.segment (segOf x.pc) with
    | some g => { x with buf := if g.succ = some seg then x.buf.filter (fun h => h.addr == seg) else [] }
    | none => { x with buf := [] }

/-- A table walk for a virtual address starts on a core, where none is under way for its page (R126). -/
def State.startWalk (s : State) (c : Nat) (asn : BitVec 16) (root va : Nat) : State :=
  s.modCore c (fun k =>
    if k.walks.any (fun w => w.asn == asn && w.va / 4096 == va / 4096) then k
    else { k with walks := k.walks ++ [{ asn := asn, va := va, level := 0, table := root }] })

/-- Failed walks of an address space are forgotten, so that the next access walks again (R124). -/
def Core.forgetWalks (k : Core) (asn : BitVec 16) : Core :=
  { k with walks := k.walks.filter (fun w => !(w.failed && w.asn == asn)) }

/-- The cycles from the arrival of a segment's last byte to the first issue of a bundle of it: LASTB + 5 behind the cycle now beginning
(R29). -/
def Segment.delay (g : Segment) : Nat := g.bundles.length - 1 + 6

/-- The context is a follower of a broadcast, for which the leader's engine fetches and expands (R320). -/
def State.led (s : State) (x : Ctx) : Bool :=
  match s.gangOf x with
  | some g => x.bind.member != 0 && g.states[x.bind.member]? == some .broadcast
  | none => false

/-- SEGMENT_EXPANSION: the last byte of a segment reaches the prefetch engine of a context, which expands and checks it (R27 to R29); a
missing translation is walked first. After a first mismatch of the signature the segment is fetched once more (R28). -/
def execSegmentExpansion (c k seg : Nat) (s : State) : Out :=
  let x := s.ctxAt c k
  if x.wanted = some seg ∧ !s.led x then
    match s.fetchSegment c k seg with
    | .error va => .next (s.startWalk c x.bind.asn x.bind.root va)
    | .ok g =>
      if g.bad = some .sig ∧ x.doubt ≠ some seg then .next (s.modCtx c k (fun x => { x with doubt := some seg }))
      else
        let g := { g with left := if g.bad.isSome then 0 else g.delay }
        .next ((s.modCtx c k (fun x => { x.install g with doubt := none })).modCore c
          (fun y => if g.bad.isSome then y.forgetWalks x.bind.asn else y))
  else idle s

end Sys2Proof.Machine
end

