-- ==== Sys2Proof/Machine/Sequencer.lean ====
section
/-!
DEFINITION. The sequencer of a core (R15 to R22, R30, R49 to R60, R200, R208 to R217, R318 to R327): one issue-domain cycle, the issue
of a bundle by the core or by the members of a gang together, its end, holds, freezes, stop points and switches. Slot
instructions are run by the argument `run`, which Step.lean gives as `exec`.
-/
namespace Sys2Proof.Machine

/-- The exposed pipelines and landing counts of a context advance one issue-domain cycle (R19, R55, R129). -/
def Ctx.tick (x : Ctx) : Ctx :=
  { x with pend := x.pend.map (fun p => { p with due := p.due - 1 })
           land := x.land.map (fun l => { l with due := l.due - 1 }) }

/-- The array is that of a context which is stopped or escalates: its accumulations stay pending until the restore (R304). -/
def Core.arrayHeld (c : Core) : Bool :=
  c.ctxs.any (fun e => decide (e.1 < 4) && e.2.bind.array && (e.2.status == .held || (e.2.status == .ready && e.2.preempt.isSome)))

/-- The offsets of a context stand still (R213, R214): it is HELD, or its cycle has begun and its bundle is still to issue, as after a restore. -/
def Ctx.still (x : Ctx) : Bool := x.status == .held || x.ticked

/-- A cycle of the issue domain of a core elapses for its task contexts, but for those whose offsets stand still (R19, R55); the array stands
still through an interlock hold (R303). -/
def Core.elapse (c : Core) : Core :=
  let go := !c.ilock && !c.arrayHeld
  { c with ctxs := c.ctxs.map (fun e => if e.1 < 4 ∧ e.2.still = false then (e.1, e.2.tick) else e),
           isd := c.isd + 1, fBusy := c.fBusy - 1, kBusy := c.kBusy - 1, div0 := c.div0 - 1, div1 := c.div1 - 1,
           arr := if go then c.arr.tick.landDue else c.arr, asd := if go then c.asd + 1 else c.asd, worked := go && !c.arr.beats.isEmpty,
           latch0 := { c.latch0 with readers := c.latch0.readers - 1 },
           latch1 := { c.latch1 with readers := c.latch1.readers - 1 } }

/-- The issue domain of a core advances one cycle as its next bundle comes due; the service context has its own pipelines (R209). -/
def Core.tick (c : Core) : Core :=
  if c.issuing = 4 then
    { (c.modCtx 4 (fun x => { x.tick with ticked := true })) with sdiv0 := c.sdiv0 - 1, sdiv1 := c.sdiv1 - 1, worked := false }
  else c.elapse.modCtx c.issuing (fun x => { x with ticked := true })

/-- A freeze of the context that issues (R20). -/
def Core.addFreeze (f : Freeze) (c : Core) : Core :=
  if c.held.isSome then (if c.svcFreeze.contains f then c else { c with svcFreeze := c.svcFreeze ++ [f] })
  else if c.freeze.contains f then c else { c with freeze := c.freeze ++ [f] }

/-- The context that issues is frozen (R20, R21). -/
def Core.frozen (c : Core) : Bool := if c.held.isSome then !c.svcFreeze.isEmpty else !c.freeze.isEmpty

/-- An issue-domain cycle of core `c` begins, or goes on where it was held: due writes land, and a register load whose data is late
freezes the core (R19, R55, R129). -/
def State.beginCycle (c : Nat) (s : State) : State :=
  let k := (s.coreAt c).issuing
  let s := if (s.ctxAt c k).ticked then s else s.modCore c Core.tick
  let s := s.landCtx c k true true
  let s := if k = 4 then s else s.landOthers c
  if (s.ctxAt c k).land.any (fun l => l.due == 0 && !l.arrived) then s.modCore c (Core.addFreeze .late) else s

/-- An active cycle counts for the core and for context `d`, which runs or is served by the service context; that of a notify context for the
task that reserved it (R348, R352). -/
def Core.countActive (d : Nat) (c : Core) : Core :=
  let o := ((c.ctxs.find? (fun e => e.2.bind.notify.contains d)).map (fun e => e.1)).getD d
  { (c.modCtx o (fun x => { x with act := x.act + 1 })) with act := c.act + 1 }

/-- The cycle of core `c` has ended for its context `k`, whose activity counts to `d`: with a bundle issued, or as an interlock hold
(R49). It was active where a bundle issued or the array had a beat to advance (R348). -/
def State.endCycle (c k d : Nat) (held : Bool) (s : State) (issued : Bool := false) : State :=
  s.modCore c (fun y =>
    let y := if issued || y.worked then y.countActive d else y
    { (y.modCtx k (fun x => { x with ticked := false })) with
      ilock := held, worked := false, kept := if issued then [] else y.kept, paged := if issued then [] else y.paged })

/-- The cycle of core `c` has ended without a bundle for the context that issues. -/
def State.endIdle (c : Nat) (held : Bool) (s : State) : State :=
  s.endCycle c (s.coreAt c).issuing (s.coreAt c).dataIdx held

/-- A cycle of the issue domain of core `c` in which no context has the issue width: what its contexts have in flight moves on, unless
a freeze or the service context holds the domain (R15, R18, R19). -/
def State.idleCycle (c : Nat) (s : State) : State :=
  let y := s.coreAt c
  if y.held.isSome || !y.freeze.isEmpty then s
  else ((s.modCore c Core.elapse).landOthers c).modCore c
    (fun y => { y with ilock := false, act := if y.worked then y.act + 1 else y.act, worked := false })

/-- What is due to issue on the current core (R28 to R30). -/
inductive Due where
  | stall
  | trap (c : Cause) (addr : Word)
  | bundle
  deriving DecidableEq, Repr

/-- The bundle at the program counter: waiting for its segment, trapping as its segment is entered or as control passes the last bundle
that it can have, or there. -/
def State.due (s : State) : Due :=
  if s.me.past then .trap .illegal s.me.pc
  else match s.me.segment (segOf s.me.pc) with
  | none => .stall
  | some g =>
    if 0 < g.left then .stall
    else match g.bad with
    | some c => .trap c (codeAddr g.addr 0)
    | none => if idxOf s.me.pc < g.bundles.length then .bundle else .trap .illegal s.me.pc

/-- The guard of an instruction that the service context may not issue in a slot that it has (R210). -/
def barredGuard (i : Instr) : Option (BitVec 4) :=
  match i with
  | .qwait w => some w.g
  | .qfree w => some w.g
  | .waitc w => some w.g
  | .barw w => some w.g
  | .lnch w => some w.g
  | .done w => some w.g
  | .yield w => some w.g
  | _ => none

/-- The first slot of a service bundle that the service context may not issue (R210). -/
def State.serviceBad (s : State) : Option Nat :=
  (s.bun.bundle.words.find? (fun e =>
    (decide (2 ≤ e.1) && decide (e.1 ≠ 7) && decide (e.1 ≠ 8)) ||
      (match decodeWord e.1 e.2 with
       | .ok i => (match barredGuard i with | some g => s.guard g | none => false)
       | .error _ => false))).map (fun e => e.1)

/-- The checks of a bundle before those of its slots (R35, R49, R59, R210): the slot, the cause and its detail. A bundle that has
issued, or that ERET.SKIP passes over (R212), is not checked again. -/
def State.bundleTrap (s : State) : Option (Nat × Cause × Nat) :=
  if s.bun.issued || s.bun.done == 1023 then none
  else match s.bun.bundle.bad with
    | some (c, sl) => some (sl, c, 0)
    | none =>
      if s.inService then s.serviceBad.map (fun sl => (sl, .illegal, 0))
      else if s.me.bind.stopmax < s.me.spacing + 1 then some (15, .stopSpacing, 0)
      else none

/-- The queue whose configuration an instruction of s1 changes (R83). -/
def cfgQueue (i : Instr) : Option (BitVec 4 × Nat) :=
  match i with
  | .qcfg w => some (w.g, qOf w.d)
  | .qsplc w => some (w.g, qOf w.d)
  | .qunsp w => some (w.g, qOf w.d)
  | .qclr w => some (w.g, qOf w.d)
  | _ => none

/-- Some slot other than s1 uses the queue that s1 configures (R83). -/
def State.cfgClash (s : State) : Bool :=
  match s.bun.bundle.words.find? (fun e => e.1 == 1) with
  | some (_, w) =>
    (match decodeWord 1 w with
     | .ok i => (match cfgQueue i with
       | some (g, q) => s.guard g && s.bun.uses.any (fun u => u.2 == q && u.1 != 1)
       | none => false)
     | .error _ => false)
  | none => false

/-- The literal of the bundle's LIT (R37). -/
def Bundle.literal (b : Bundle) : Option (BitVec 21) :=
  match b.words.find? (fun e => e.1 == 1) with
  | some (_, w) => if fld w 21 7 = 0x2C then some (BitVec.ofNat 21 w) else none
  | none => none

/-- An instruction that returns from the service context: it runs when the rest of its bundle has ended. -/
def isEret (i : Instr) : Bool :=
  match i with
  | .eretResume _ => true
  | .eretSkip _ => true
  | .eretEsc _ => true
  | _ => false

/-- Control instructions of s0 that only the leader's sequencer performs in a broadcast (R320). -/
def leaderOnly (i : Instr) : Bool :=
  match i with
  | .br _ => true
  | .brp _ => true
  | .brnp _ => true
  | .loop _ => true
  | .loopi _ => true
  | .loopx _ => true
  | .mloop _ => true
  | .lbrk _ => true
  | _ => false

/-- Control instructions of s0 that every member of a broadcast performs under the leader's guard (R320). -/
def leaderGuard (i : Instr) : Bool :=
  match i with
  | .getx _ => true
  | .chksig _ => true
  | .phase _ => true
  | .gend _ => true
  | _ => false

/-- The current core is a follower of a broadcast; with the leader's predicates (R320). -/
def State.leaderP (s : State) : Option (BitVec 8) :=
  if s.inBroadcast && s.me.bind.member != 0 then
    match s.gangOf s.me with
    | some g => (match g.members with | l :: _ => some (s.ctxAt l.1 l.2).regs.p | [] => none)
    | none => none
  else none

/-- One slot of the bundle in progress: its decoded instruction runs with the slot selected. A follower leaves control to the
leader, and takes the guard of the rest of s0's control from it (R320). -/
def State.runOne (run : Instr → State → Out) (sl w : Nat) (s : State) : Out :=
  let s := s.modBun (fun b => { b with slot := sl })
  match decodeWord sl w with
  | .error _ => run .unassignedOpcode s
  | .ok i =>
    match s.leaderP with
    | none => run i s
    | some p =>
      if leaderOnly i then .next s
      else if leaderGuard i then
        let l := s.latchNow
        let kept := s.bun.latch
        match run i (s.modBun (fun b => { b with latch := some { l with regs := { l.regs with p := p } } })) with
        | .next t => .next (t.modBun (fun b => { b with latch := kept }))
        | e => e
      else run i s

/-- The slots of a bundle in canonical order, without those already performed and without the service context's ERET, which runs last
(R49, R210). -/
def State.runWords (run : Instr → State → Out) (done : Nat) : List (Nat × Nat) → State → Out
  | [], s => .next s
  | (sl, w) :: r, s =>
    if done.testBit sl || (s.inService && (match decodeWord sl w with | .ok i => isEret i | .error _ => false)) then s.runWords run done r
    else
      match s.runOne run sl w with
      | .next t => t.runWords run done r
      | e => e

/-- The pops of the whole bundle (R52): its slots' issue checks on a copy of the state that holds everything back, with every
capacity check passing. -/
def State.popsOf (run : Instr → State → Out) (s : State) : List (Nat × Nat) :=
  let all := (List.range 16).map (fun q => (q, 256))
  match (s.modBun (fun b => { b with holds := [.interlock], pops := all, pre := [] })).runWords run 0 s.bun.bundle.words with
  | .next t => t.bun.pops.drop 16
  | _ => []

/-- The issue of the current core's bundle up to the performance of its slots: the traps and holds stand in `bun` (R49 to R53). An
unassigned opcode runs as UNASSIGNED_OPCODE (R67). A snapshot in progress is an interlock hold (R219), and so is a result or an address that
is computed again (R216). ERET.SKIP passes over a bundle that control cannot enter (R212). -/
def State.attempt (run : Instr → State → Out) (s : State) : Out :=
  if s.me.phase.next.isSome || s.bun.recheck || s.me.pend.any (fun p => p.again) then .next (s.hold .interlock)
  else match s.due with
  | .stall => .next (s.hold .interlock)
  | .trap c _ => .next (if s.bun.done = 1023 then s else s.modBun (fun b => { b with trap := some (15, c, 0) }))
  | .bundle =>
    match s.bundleTrap with
    | some (sl, c, d) =>
      (match s.bun.bundle.words.find? (fun e => e.1 == sl) with
       | some (_, w) =>
         if c = .illegal ∧ (rawDecode sl w).isNone then run .unassignedOpcode (s.modBun (fun b => { b with slot := sl }))
         else .next (s.modBun (fun b => { b with trap := some (sl, c, d) }))
       | none => .next (s.modBun (fun b => { b with trap := some (sl, c, d) })))
    | none =>
      let s := s.modBun (fun b => { b with lit := b.bundle.literal })
      let s := s.modBun (fun b => { b with pops := b.fixed.getD (s.popsOf run) })
      match s.runWords run s.bun.done s.bun.bundle.words with
      | .next t =>
        if !s.bun.issued && t.cfgClash && (match t.bun.trap with | some (sl, _, _) => decide (1 < sl) | none => true) then
          .next (t.modBun (fun b => { b with trap := some (1, .queue, 0) }))
        else .next t
      | e => e

/-- UNASSIGNED_OPCODE: a slot word with an unassigned opcode traps ILLEGAL at issue; it performs nothing (R35, R67). -/
def execUnassignedOpcode (s : State) : Out := .next (s.stop (.trap .illegal 0))

/-- The levels of the loop stack after the bundle at (seg, idx), with the next code address and the loop indices (R200). -/
def loopEnds (seg idx : Nat) : List Level → Word → Tab Word → List Level × Word × Tab Word
  | [], nx, xs => ([], nx, xs)
  | l :: r, nx, xs =>
    if segOf l.start = seg ∧ l.endIdx = idx then
      (if 0 < l.rem then
        ({ l with rem := l.rem - 1 } :: r, l.start, xs.put l.xn (Tab.get 0 xs l.xn + l.step.signExtend 64))
       else loopEnds seg idx r nx xs)
    else (l :: r, nx, xs)

/-- The next bundle of a context after the one at its program counter, with the loop stack and indices (R195, R198, R200, R201). -/
def Ctx.sequence (x : Ctx) (c : Option Ctl) : List Level × Word × Tab Word :=
  let seg := segOf x.pc
  let idx := idxOf x.pc
  match c with
  | some (.go t) => loopEnds seg idx x.loops t x.regs.x
  | some (.push lv x0) => (lv :: x.loops, x.follow x.pc, x.regs.x.put lv.xn x0)
  | some (.skip e) => (x.loops, x.follow (codeAddr seg e), x.regs.x)
  | some .brk =>
    (match x.loops with
     | l :: r => loopEnds (segOf l.start) l.endIdx r (l.after.getD (x.follow (codeAddr (segOf l.start) l.endIdx))) x.regs.x
     | [] => (x.loops, x.follow x.pc, x.regs.x))
  | _ => loopEnds seg idx x.loops (x.follow x.pc) x.regs.x

/-- The bundle behind which control goes on where it makes no transfer (R195, R198, R201). -/
def Ctx.behind (x : Ctx) (c : Option Ctl) : Option Word :=
  match c with
  | some (.go _) => none
  | some (.skip e) => some (codeAddr (segOf x.pc) e)
  | some .brk => (match x.loops with | l :: _ => some (codeAddr (segOf l.start) l.endIdx) | [] => some x.pc)
  | _ => some x.pc

/-- A context moved to its next bundle (R29, R200), or past the last that its segment can have (R30). -/
def Ctx.advance (x : Ctx) (c : Option Ctl) : Ctx :=
  let n := x.sequence c
  { x.enter (segOf n.2.1) with
    loops := n.1, pc := n.2.1, regs := { x.regs with x := n.2.2 },
    past := match x.behind c with | some a => x.passes a && n.2.1 == a + 1 | none => false }

/-- A slot allocated at the tail of a queue (R53, R78, R85). -/
def QDesc.allocAt (d : QDesc) (i : Nat) : QDesc :=
  match d.mode with
  | .spliceOut =>
    let d := { d with tail := qadvance d.tail 1 (d.rcapw + 1) }
    { d with hwm := max d.hwm d.used }
  | _ =>
    let d := { d with tail := qadvance d.tail 1 d.cap, pmap := d.pmap &&& ~~~(1#256 <<< i) }
    { d with hwm := max d.hwm d.used }

/-- The pops of the bundle in progress apply (R52, R220). -/
def State.applyPops (s : State) : State :=
  (List.range 16).foldl (fun (t : State) q =>
    let n := s.bun.popped q
    if n = 0 then t else t.modData (fun x => x.modQ q (fun d => d.consumeAt s.seq n x.bind.phaseBound))) s

/-- The appends of the bundle in progress are allocated in canonical order (R53). -/
def State.applyApps (s : State) : State :=
  s.bun.apps.foldl (fun (t : State) (e : Nat × Nat × Nat) => t.modQ e.2.1 (fun d => d.allocAt e.2.2)) s

/-- The slots that the pops of the bundle in progress will consume keep their presence, although its appends may have been given their
storage (R53, R210). -/
def State.keepNamed (old s : State) : State :=
  (List.range 16).foldl (fun (t : State) q =>
    let n := s.bun.popped q
    if n = 0 then t else
      let d := old.queue q
      t.modQ q (fun e => { e with pmap := e.pmap ||| (d.pmap &&& d.popMask n) })) s

/-- The source slots that the bundle's copies still read are pinned (R262). -/
def State.applyPins (s : State) : State :=
  s.bun.pins.foldl (fun (t : State) (e : Nat × Nat) => t.modQ e.1 (fun d => { d with pinned := d.pinned ++ [e.2] })) s

/-- The queue changes of the bundle (R83). -/
def State.applyActs (s : State) : State :=
  s.bun.acts.foldl (fun (t : State) a => t.applyAct t.cur t.core.dataIdx a) s

/-- What a bundle counts when it first issues: the commit signature and the stop spacing of a task context (R59, R217); and what the
issue of bundle 0 starts (R29). -/
def State.countIssue (s : State) : State :=
  let s := s.modMe Ctx.openSegment
  if s.bun.issued || s.inService then s
  else s.modMe (fun x => { x with sig := sigStep x.sig x.pc, spacing := x.spacing + 1 })

/-- The performed bits after the slots of the bundle have run (R210). -/
def Bun.performed (b : Bun) : Nat :=
  (b.bundle.words.filter (fun e => !b.failed.contains e.1)).foldl (fun n e => n ||| 2 ^ e.1) b.done

/-- A bundle of whose slots some did not perform stays in the replay buffer: its appends are allocated, its pops and queue changes
wait for its last slot (R210). -/
def State.commitFault (s : State) : State :=
  let b := s.bun
  let s := ((s.keepNamed s.applyApps).applyPins).countIssue
  let keep (r : Replay) : Replay :=
    { r with done := b.performed, apps := b.pre ++ b.apps, issued := true, ctl := b.ctl, acts := b.acts, pops := some b.pops }
  (s.modMyCore (fun c => { c with replay := c.replay.map keep })).modMe (fun x => { x with atStop := false, stepped := false })

/-- Some other context of the core could take the issue width (R12, R15). -/
def Core.otherReady (c : Core) (k : Nat) : Bool :=
  c.ctxs.any (fun e => e.1 != k && decide (e.1 < 4) && e.2.status == .ready && e.2.preempt.isNone)

/-- The running context gives up the issue width, with a status (R15). -/
def Core.giveUp (k : Nat) (st : CtxStatus) (c : Core) : Core :=
  { (c.modCtx k (fun x => { x with status := st, starve := 0 })) with running := none, next := (k + 1) % 4, replay := none }

/-- An asynchronous cause of the issuing context taken (R58, R208): the bundle due next enters the replay buffer. -/
def State.takeAsync (s : State) : State :=
  match s.me.async with
  | [] => s
  | a :: r =>
    (s.modMe (fun x => { x with async := r, now := false })).takeCause a.cause 15 a.ent false (a.addr.getD s.me.pc)

/-- The answer of a refused reduction has come, and its cause waits for a bundle to issue (R186). -/
def Ctx.refused (x : Ctx) : Bool := x.async.any (fun a => a.addr.isSome)

/-- The cause of a refused reduction taken as the bundle of core `c` would issue (R186). -/
def State.takeRefused (c : Nat) (s : State) : State :=
  let s : State := { s with cur := c }
  match s.me.async.find? (fun a => a.addr.isSome) with
  | some a => (s.modMe (fun x => { x with async := x.async.erase a })).takeCause a.cause 15 0 false (a.addr.getD s.me.pc)
  | none => s

/-- DONE as its bundle ends (R344): a pending asynchronous cause is taken first, with the other slots performed; otherwise the core
freezes until DONE_FINISH, and the replay buffer keeps the bundle with every slot but DONE performed, should a cause arise meanwhile. -/
def State.commitDone (s : State) : State :=
  if s.me.async.isEmpty then
    let b := s.bun
    let r : Replay := { addr := s.me.pc, bundle := b.bundle, done := b.performed &&& 1022, latch := some s.latchNow, apps := b.pre ++ b.apps,
                        issued := true, pops := some [] }
    (s.modMe (fun x => { x with finishing := true })).modMyCore (fun c => { c with replay := some r, freeze := c.freeze ++ [.finish] })
  else s

/-- What the control action of s0 does beyond the choice of the next bundle (R219, R344, R345). -/
def State.commitCtl (s : State) (c : Option Ctl) : State :=
  match c with
  | some .yield =>
    if (s.gangOf s.me).isNone && s.core.otherReady s.core.issuing then s.modMyCore (Core.giveUp s.core.issuing .ready) else s
  | some .done => s.commitDone
  | some (.phase b n) =>
    s.modMe (fun x => { x with phase := { x.phase with next := some (b, n) } })
  | _ => s

/-- A bundle ends with all its slots performed (R52, R53, R57, R59, R83, R200, R217): pops, appends and queue changes apply, the
counts advance, and the next bundle is chosen. A follower of a broadcast leaves that choice to the leader. -/
def State.commitWhole (s : State) : State :=
  let b := s.bun
  let stop := s.isStopPoint
  let follower := s.leaderP.isSome
  let s := ((s.applyPops.applyApps).applyPins).applyActs.countIssue
  let s := s.modMe (fun x => if stop then { x with spacing := 0 } else x)
  let s := s.modMyCore (fun c => if c.held.isSome then c else { c with replay := none })
  let s := s.modMe (fun x => { x with atStop := stop, stepped := false, now := false, replay := none, met := none })
  let s := if follower || b.ctl = some .done then s else s.modMe (fun x => x.advance b.ctl)
  s.commitCtl b.ctl

/-- The end of the current core's bundle (R49, R208, R210). A phase that rolls back ends nothing. -/
def State.commit (s : State) : State :=
  if s.me.phase.rollback.isSome then s
  else if s.me.status = .held ∧ !s.inService then s.commitFault
  else if s.bun.ctl = some .done ∧ !s.me.async.isEmpty then
    ((s.modBun (fun b => { b with failed := b.failed ++ [0] })).takeAsync).commitFault
  else s.commitWhole

/-- EMPTY_BUNDLE: a bundle whose slots are all idle issues; it may be a stop point or a loop-end bundle (R33, R57, R200). -/
def execEmptyBundle (s : State) : Out := .next s.commit

/-- The bundle of core `c` ends, its cycle with it; a service bundle runs its ERET last, and one of which a slot has faulted ends the
service (R13, R211). `svc` says that the service context issued it. -/
def State.finish (run : Instr → State → Out) (svc : Bool) (c : Nat) (s : State) : Out :=
  let s : State := { s with cur := c }
  let k := s.core.issuing
  let d := s.core.dataIdx
  match s.bun.dead with
  | some e => .next (s.serviceFault e s.me.pc)
  | none =>
    let words := s.bun.bundle.words
    match (if words.isEmpty then run .emptyBundle s else .next s.commit) with
    | .next t =>
      let again := ((t.ctxAt c k).status == .held && !svc) || (t.ctxAt c k).phase.rollback.isSome
      let t := if again then t else t.endCycle c k d false true
      if svc then
        match words.find? (fun e => match decodeWord e.1 e.2 with | .ok i => isEret i | .error _ => false) with
        | some (sl, w) => (t.landAll c 4 t.me.pend).runOne run sl w
        | none => .next t
      else .next t
    | e => e

/-- The register landings, exposed register writes and, with ARRAY, pending beats that keep a wait from switching (R15). -/
def State.inFlight (s : State) : Bool :=
  s.me.pend.any (fun p => !p.w.toSlot) || !s.me.land.isEmpty || (s.me.bind.array && !(s.core.arr.beats.isEmpty && s.core.arr.next.isEmpty))

/-- A hold whose writer is one of the core's own exposed pipelines (R49). -/
def State.ownWriter (s : State) (q idx : Nat) : Bool :=
  let hits (p : Pend) : Bool := match p.w with | .slot a b _ _ => a == q && b == idx | _ => false
  s.me.pend.any hits || s.data.pend.any hits ||
    [0, 1].any (fun b => match (s.core.arr.bank b).drain with | some o => o.rem.isNone && o.q == q && o.idx == idx | none => false)

/-- A hold is an interlock hold (R49). -/
def State.interlocked (s : State) (h : Hold) : Bool :=
  match h with
  | .interlock => true
  | .pages _ => true
  | .slot q i => s.ownWriter q i
  | _ => false

/-- The freeze that a hold becomes (R20, R126). -/
def Hold.asFreeze (h : Hold) : Freeze :=
  match h with
  | .slot q i => .absent q i
  | .interlock => .late
  | .pages _ => .late
  | .freeze f => f
  | .walk _ => .walk

/-- The waits among the holds, where there is nothing else among them (R15). -/
def onlyWaits (hs : List Hold) : Option Wait :=
  if hs.all (fun h => match h with | .freeze (.wait _) => true | _ => false) then
    hs.findSome? (fun h => match h with | .freeze (.wait w) => some w | _ => none)
  else none

/-- The state after the port of the current core has been charged for a WAITC's read of an object, where it admits it (R395, R396). -/
def State.payWaitc (s : State) (pa : Nat) : Option State :=
  if s.targetOf pa = .scratch s.cur then some s else s.takePort s.cur (s.shareClass s.cur s.core.issuing) 64

/-- The charge of the read with which a wait began (R395). -/
def State.payWait (s : State) (w : Wait) : State :=
  match w with
  | .object pa _ => (s.payWaitc pa).getD s
  | _ => s

/-- A held bundle of core `c` (R15, R20, R49, R126): an interlock hold spends the cycle; a stop-flagged wait with nothing in flight
switches, outside a gang and the service context; anything else freezes the core. -/
def State.holdBun (c : Nat) (hs : List Hold) (s : State) : State :=
  let s : State := { s with cur := c }
  if hs.any s.interlocked then hs.foldl (fun (t : State) h => match h with
    | .pages sl => t.modMyCore (fun y => { y with paged := y.paged.put sl (Tab.get 0 y.paged sl + 1) })
    | _ => t) s
  else
    match onlyWaits hs with
    | some w =>
      let s := s.payWait w
      if s.bun.bundle.stop && !s.inService && (s.gangOf s.me).isNone && !s.inFlight then
        (s.modMe (fun x => { x with wait := some w, ticked := false })).modMyCore (Core.giveUp s.core.issuing .waiting)
      else s.modMyCore (Core.addFreeze (.wait w))
    | none =>
      let s := hs.foldl (fun (t : State) h => match h with
        | .walk va => t.startWalk c t.data.bind.asn t.data.bind.root va
        | _ => t) s
      hs.foldl (fun (t : State) h => t.modMyCore (Core.addFreeze h.asFreeze)) s

/-- A bundle held on a queue whose path has failed has taken LINK_DOWN; later uses of its local queues follow their mode (R90). -/
def Ctx.unboundNow (x : Ctx) : Ctx := { x with q := x.q.map (fun e => (e.1, if e.2.mode = .localQ then { e.2 with down := false } else e.2)) }

/-- A trap at issue taken (R49, R209): TRAPADDR is the bundle, or bundle 0 of a bad segment, which is expanded again when control
next enters it (R28). -/
def State.trapBun (c : Nat) (e : Nat × Cause × Nat) (s : State) : State :=
  let s : State := { s with cur := c }
  match s.due with
  | .trap _ a =>
    let s := s.modBun (fun b => { b with void := true })
    (s.takeCause e.2.1 e.1 e.2.2 false a).modCtx c s.core.issuing (fun x => { x with buf := x.buf.filter (fun g => g.bad.isNone) })
  | _ =>
    let s := if e.2.1 = .linkDown then s.modData Ctx.unboundNow else s
    s.takeCause e.2.1 e.1 e.2.2 false s.me.pc

/-- The bundle of a gang member that is held by another member's cause enters its own replay buffer (R325). -/
def State.keepBun (c : Nat) (s : State) : State :=
  let s : State := { s with cur := c }
  let r := s.heldNow
  s.modMyCore (fun y => { y with replay := some r })

/-- The stop point behind which the next bundle of core `c` waits has passed: a request that comes later waits for the next one, as it
does through a freeze (R20, R22, R30). -/
def State.passStop (s : State) (c : Nat) : State :=
  s.modCore c (fun y => { (y.modCtx y.issuing (fun x => { x with atStop := false })) with slowOld := false })

/-- The residue checks of the addresses of the bundle's memory slots (R216): after a first mismatch the address is computed again, which
holds the bundle for one cycle. -/
def State.checkAdders (s : State) : State :=
  [7, 8].foldl (fun (t : State) sl =>
    let n := Tab.get 0 t.core.upset sl
    if (n = 1 ∨ n = 2) ∧ (t.bun.bundle.words.any (fun e => e.1 == sl)) = true ∧ t.bun.done.testBit sl = false then
      (t.modBun (fun b => { b with recheck := true })).modMyCore
        (fun y => { y with upset := if n = 1 then y.upset.drop sl else y.upset.put sl 3 })
    else t) s

/-- The bundle of core `c` before any slot performs. -/
def State.prepare (c : Nat) (s : State) : State :=
  let s : State := { s with cur := c }
  ((s.loadBun.modBun (fun b => { b with begun := true })).checkAdders).passStop c

/-- The slots of the members' bundles in member order. -/
def State.attemptAll (run : Instr → State → Out) : List Nat → State → Out
  | [], s => .next s
  | c :: r, s =>
    match ({ s with cur := c } : State).attempt run with
    | .next t => t.attemptAll run r
    | e => e

/-- The bundles of the members end in member order. -/
def State.finishAll (run : Instr → State → Out) (svc : Bool) : List Nat → State → Out
  | [], s => .next s
  | c :: r, s =>
    match s.finish run svc c with
    | .next t => t.finishAll run svc r
    | e => e

/-- One bundle on every core of a unit, or on none (R49, R321, R325): a trap of any is taken by the lowest member, and the others
keep their bundles; a hold of any holds all. A refused reduction is taken by the first bundle that would issue (R186). -/
def State.issueAll (run : Instr → State → Out) (svc : Bool) (cs : List Nat) (s : State) : Out :=
  if cs.any (fun c => ({ s with cur := c } : State).due == .stall) then .next (cs.foldl (fun (t : State) c => t.passStop c) s)
  else
    let s := cs.foldl (fun (t : State) c => t.prepare c) s
    match s.attemptAll run cs with
    | .next t =>
      let buns := cs.map (fun c => (c, (t.coreAt c).bun))
      match buns.findSome? (fun e => e.2.trap.map (fun x => (e.1, x))) with
      | some (c, x) =>
        let s := (cs.filter (fun d => d != c)).foldl (fun (u : State) d => u.keepBun d) s
        .next (s.trapBun c x)
      | none =>
        if buns.all (fun e => e.2.holds.isEmpty) then
          (match (if svc then none else cs.find? (fun c => (s.ctxAt c (s.coreAt c).issuing).refused)) with
           | some c => .next (((cs.filter (fun d => d != c)).foldl (fun (u : State) d => u.keepBun d) s).takeRefused c)
           | none => t.finishAll run svc cs)
        else
          let soft := buns.any (fun e => e.2.holds.any (({ s with cur := e.1 } : State).interlocked))
          let s := if soft then cs.foldl (fun (u : State) c => u.endIdle c true) s else s
          .next (buns.foldl (fun (u : State) (e : Nat × Bun) => if e.2.holds.isEmpty then u else u.holdBun e.1 e.2.holds) s)
    | e => e

/-- A follower parks once its GJOIN's write has landed (R318). -/
def State.park (s : State) (n : Nat) (g : Gang) (m c k : Nat) : State :=
  let x := s.ctxAt c k
  if x.pend.isEmpty && x.land.isEmpty then s.setGang n { (g.setMember m .parked) with parking := g.parking.erase m } else s

/-- The end of a gang's cycle: in a broadcast the followers stand where the leader stands, and GEND takes effect (R320, R322). -/
def State.gangEnd (s : State) (n : Nat) : State :=
  match Tab.find s.gangs n with
  | some g =>
    match g.members with
    | l :: _ =>
      if g.states.any (fun st => st == .broadcast) && !(g.members.any (fun m => (s.ctxAt m.1 m.2).ticked)) then
        (let s := s.follow g
         if (s.coreAt l.1).bun.ctl = some .gend then
           (s.endBroadcast n g).modCore l.1 (fun c => { c with bun := {} })
         else s)
      else s
    | [] => s
  | none => s

/-- The members of a gang that issue now (R316, R324, R326): those that are not PARKED, DONE or stopped by a pre-emption, without the
leader while GISS holds it. -/
def State.activeMembers (s : State) (g : Gang) : List (Nat × Nat × Nat) :=
  (List.range g.members.length).filterMap (fun m =>
    match g.members[m]?, g.states[m]? with
    | some (c, k), some st =>
      let x := s.ctxAt c k
      if (st == .detached || st == .broadcast) && (x.status == .running || x.status == .held) && !x.escalating &&
          !(x.status == .held && x.cause.esc) &&
          !(s.coreAt c).freeze.contains .giss then some (m, c, k)
      else none
    | _, _ => none)

/-- A frozen core takes at once a fault that comes up while it is frozen (R21): that of a landing whose data has arrived, or that of the
held bundle, one of whose freezes has ended in a fault. The other freezes stay. -/
def State.retryCore (run : Instr → State → Out) (c : Nat) (s : State) : Out :=
  let k := (s.coreAt c).issuing
  if (s.coreAt c).svcTimer.isSome || (s.ctxAt c k).phase.rollback.isSome then .next s
  else
    let s := s.landCtx c k false true
    if (s.coreAt c).svcTimer.isSome || !(s.coreAt c).retry then .next s
    else
      let s := (s.modCore c (fun y => { y with retry := false })).prepare c
      match s.attempt run with
      | .next t => .next (match t.bun.trap with | some e => s.trapBun c e | none => s)
      | e => e

/-- The frozen cores of a unit in turn. -/
def State.retryAll (run : Instr → State → Out) : List Nat → State → Out
  | [], s => .next s
  | c :: r, s =>
    match (if (s.coreAt c).held.isNone && (s.coreAt c).frozen then s.retryCore run c else .next s) with
    | .next t => t.retryAll run r
    | e => e

/-- The followers of a broadcast issue from the leader's segments, which its engine alone fetches and expands (R320). -/
def State.shareBuf (s : State) (g : Gang) : State :=
  match g.members with
  | [] => s
  | l :: r => r.foldl (fun (t : State) m => t.modCtx m.1 m.2 (fun y => { y with buf := (s.ctxAt l.1 l.2).buf, past := (s.ctxAt l.1 l.2).past })) s

/-- One cycle of a running gang (R319 to R325). -/
def State.gangCycle (run : Instr → State → Out) (n : Nat) (g : Gang) (s : State) : Out :=
  let ms := s.activeMembers g
  let cs := ms.map (fun e => e.2.1)
  if cs.any (fun c => (s.coreAt c).held.isSome || (s.coreAt c).frozen) then s.retryAll run cs
  else
    let s := if g.states.any (fun st => st == .broadcast) then s.shareBuf g else s
    let mid := ms.filter (fun e => (s.ctxAt e.2.1 e.2.2).ticked)
    let go := if mid.isEmpty then ms else mid
    let s := go.foldl (fun (t : State) (e : Nat × Nat × Nat) => t.beginCycle e.2.1) s
    if cs.any (fun c => (s.coreAt c).frozen) then .next s
    else if 0 < g.delay then
      .next ((go.foldl (fun (t : State) (e : Nat × Nat × Nat) => t.endIdle e.2.1 false) s).setGang n { g with delay := g.delay - 1 })
    else
      let parking := go.filter (fun e => g.parking.contains e.1)
      let s := parking.foldl (fun (t : State) (e : Nat × Nat × Nat) =>
        let g' := (Tab.find t.gangs n).getD g
        (t.park n g' e.1 e.2.1 e.2.2).endIdle e.2.1 false) s
      match s.issueAll run false ((go.filter (fun e => !g.parking.contains e.1)).map (fun e => e.2.1)) with
      | .next t => .next (t.gangEnd n)
      | e => e

/-- One cycle of a core outside a running gang, or of its service context (R49). -/
def State.coreCycle (run : Instr → State → Out) (c : Nat) (s : State) : Out :=
  if (s.coreAt c).frozen then s.retryCore run c
  else
    let svc := (s.coreAt c).held.isSome
    let s := s.beginCycle c
    if (s.coreAt c).frozen || ((s.coreAt c).held.isSome != svc) then .next s
    else s.issueAll run svc [c]

/-- A pre-emption request taken at a stop point (R22, R60, R215): the context waits for Thyme's save, a gang member PARKED (R326); with
writes in flight it counts as escalated. -/
def State.stopPreempt (s : State) : State :=
  let k := s.core.issuing
  let s := match s.me.bind.gang, s.gangOf s.me with
    | some n, some g =>
      let m := s.me.bind.member
      s.setGang n { (g.setMember m .parked) with stopped := g.stopped ++ [(m, (g.states[m]?).getD .detached)] }
    | _, _ => s
  if s.me.pend.isEmpty && s.me.land.isEmpty then s.modMyCore (Core.giveUp k .ready)
  else
    let s := s.modMe (fun x => { x with escalating := true, ticked := false, cause := { x.cause with esc := true } })
    s.modMyCore (Core.giveUp k .held)

/-- The running gang to which a core belongs, with its context (R17). -/
def State.coreGang (s : State) (c : Nat) : Option (Nat × Gang × Nat) :=
  (s.coreAt c).ctxs.findSome? (fun e =>
    match e.2.bind.gang with
    | some n => match Tab.find s.gangs n with
      | some g => if g.started then some (n, g, e.1) else none
      | none => none
    | none => none)

/-- The cores of a core's unit: the active members of its gang, or the core itself. -/
def State.unit (s : State) (c : Nat) : List Nat :=
  match s.coreGang c with
  | some (_, g, _) => (s.activeMembers g).map (fun e => e.2.1)
  | none => [c]

/-- The exposed writes of context `k` of core `c` drain into its shadow result buffer as an interrupt is taken behind a stop point; they
land at their offsets when it resumes (R60). A slot that one aims at is written at once (R213). -/
def State.drainWrites (s : State) (c k : Nat) : State :=
  let s := s.landAll c k ((s.ctxAt c k).pend.filter (fun p => p.w.toSlot))
  s.modCtx c k (fun x => { x with pend := [], shadow := x.shadow ++ x.pend.filter (fun p => !p.w.toSlot) })

/-- A cause enters the service context of core `c` at a stop point; the other members of its gang keep their bundles (R325). -/
def State.enterAt (c : Nat) (take : State → State) (s : State) : State :=
  let others := (s.unit c).filter (fun d => d != c)
  let s := others.foldl (fun (t : State) d => (({ t with cur := d } : State).loadBun).keepBun d) s
  let s : State := ({ s with cur := c } : State).loadBun
  take (if s.me.atStop then s.drainWrites c s.core.issuing else s)

/-- An asynchronous cause, or the SSTEP entry, that some context of the unit still has to take. -/
def Ctx.entryDue (x : Ctx) : Bool := (!x.async.isEmpty && (x.atStop || x.now)) || (x.atStop && x.hdbg.getLsbD 1 && !x.stepped)

/-- What is taken at a stop point before the next bundle issues, in order: an asynchronous cause, the SSTEP entry, a pre-emption
request (R58, R207, R208); and an asynchronous cause that is taken at once (R271). -/
def State.stopEvents (c : Nat) (s : State) : State :=
  let s : State := { s with cur := c }
  let x := s.me
  if (x.atStop || x.now) && !x.async.isEmpty then s.enterAt c State.takeAsync
  else if x.atStop && x.hdbg.getLsbD 1 && !x.stepped then
    s.enterAt c (fun t => (t.modMe (fun y => { y with stepped := true })).takeCause .trap 15 0x3FF false x.pc)
  else if x.atStop && x.preempt.isSome then
    (if (s.unit c).any (fun d => (s.ctxAt d (s.coreAt d).issuing).entryDue) then s else s.stopPreempt)
  else if x.now then s.modMe (fun y => { y with now := false })
  else s

/-- The READY context that next takes the issue width (R15 to R17). -/
def State.selectCtx (s : State) (c : Nat) : Option Nat :=
  let y := s.coreAt c
  let own := (s.coreGang c).map (fun e => e.2.2)
  ((List.range 4).map (fun i => (y.next + i) % 4)).find? (fun k =>
    let x := y.ctx k
    x.status == .ready && x.preempt.isNone && x.phase.rollback.isNone && (match own with | some g => g == k | none => x.bind.gang.isNone))

/-- The selector gives the issue width to a READY context; the switch costs 2 cycles (R15, R16). A leader that was saved in the hold of its
GISS comes back to it (R319, R326). -/
def State.selector (s : State) (c : Nat) : State :=
  match s.selectCtx c with
  | some k =>
    let giss := (s.ctxAt c k).bind.member == 0 && (match s.gangOf (s.ctxAt c k) with | some g => g.giss | none => false)
    s.modCore c (fun y =>
      { (y.modCtx k (fun x => { x with status := .running, starve := 0 })) with
        running := some k, switchLeft := 1, freeze := if giss then y.freeze ++ [.giss] else y.freeze })
  | none => s

/-- The counts of a core that follow the 1.2 GHz clock: the delay before the service context begins (R209), the hold of a clock
switch (R358), the expansion of segments (R29), the starvation count (R16) and the pre-emption limit (R22). -/
def Core.wallTick (c : Core) : Core :=
  let c := { c with svcTimer := c.svcTimer.map (fun n => n - 1), clkHold := c.clkHold - 1,
                    ctxs := c.ctxs.map (fun (e : Nat × Ctx) => (e.1, e.2.expandTick)) }
  match c.running with
  | some k =>
    let other := c.otherReady k
    c.modCtx k (fun x => { x with starve := if other && x.status == .running then x.starve + 1 else x.starve,
                                  preempt := if 0 < c.clkHold then x.preempt else x.preempt.map (fun n => n + 1) })
  | none => c

/-- The sequencer of one core before its issue (R15, R16, R58): stop-point events, the selection of a context, the cycles of a
switch. -/
def State.preIssue (c : Nat) (s : State) : State :=
  let s := (s.coreAt c).ctxs.foldl (fun (t : State) e => if e.2.async.isEmpty then t else t.lateWait c e.1) s
  let y := s.coreAt c
  if y.out || y.held.isSome then s
  else match y.running with
    | none => s.selector c
    | some k =>
      if 0 < y.switchLeft then s.modCore c (fun y => { y with switchLeft := y.switchLeft - 1 })
      else if y.frozen || (s.unit c).any (fun d => (s.coreAt d).held.isSome || (s.coreAt d).frozen) || (y.ctx k).phase.next.isSome then s
      else if (y.ctx k).atStop || (y.ctx k).now then s.stopEvents c
      else s

/-- A core may issue in this cycle: it has a context that runs, past its switch, not stopped for the starvation guard (R15, R16). -/
def Core.mayIssue (c : Core) (before : Core) : Bool :=
  c.held.isSome ||
    (match before.running, c.running with
     | some j, some k => j == k && before.switchLeft == 0 && (c.ctx k).status == .running &&
         !((c.ctx k).atStop && decide (65536 ≤ (c.ctx k).starve) && c.otherReady k && (c.ctx k).bind.gang.isNone)
     | _, _ => false)

/-- The issue domain of a derated core runs at 1.0 GHz: five cycles in six (R19, R358). A throttle of n sixteenths
holds issue in n of 16 cycles (R414). -/
def State.clocked (s : State) (c : Nat) : Bool :=
  (!(s.coreAt c).slow || decide (s.cycle % 6 ≠ 5)) && decide (s.mgmt.thr ≤ s.cycle % 16)

/-- No member of a gang that is to issue still waits for the issue width of its core, so that all issue in one cycle (R317, R326). -/
def State.gangReady (s : State) (g : Gang) : Bool :=
  (g.members.zip g.states).all (fun e => !((e.2 == .detached || e.2 == .broadcast) && (s.ctxAt e.1.1 e.1.2).status == .ready))

/-- The cores issue in turn; the members of a running gang together, with the first of them. On a core where none may issue, the issue
domain clocks (R18). -/
def State.issueCores (run : Instr → State → Out) (old : Tab Core) : List Nat → State → Out
  | [], s => .next s
  | c :: r, s =>
    let y := s.coreAt c
    let one : Out :=
      if !s.clocked c then .next s
      else if y.held.isSome then s.coreCycle run c
      else match s.coreGang c with
        | some (n, g, _) =>
          let ms := s.activeMembers g
          if !ms.any (fun e => e.2.1 == c) then
            .next (if ms.any (fun e => (s.coreAt e.2.1).held.isSome || (s.coreAt e.2.1).frozen) then s else s.idleCycle c)
          else (match ms with
           | (_, d, _) :: _ =>
             if d = c ∧ s.gangReady g = true ∧ ms.all (fun e => s.clocked e.2.1 && (s.coreAt e.2.1).mayIssue (Tab.get Core.idle old e.2.1)) then s.gangCycle run n g
             else .next s
           | [] => .next s)
        | none => if y.mayIssue (Tab.get Core.idle old c) then s.coreCycle run c else .next (s.idleCycle c)
    match one with
    | .next t => t.issueCores run old r
    | e => e

/-- One cycle of the 1.2 GHz clock for every core (R18, R19). -/
def State.clock (run : Instr → State → Out) (s : State) : Out :=
  let cs := s.cores.map (fun e => e.1)
  let s : State := { s with cycle := s.cycle + 1 }
  let t := cs.foldl (fun (u : State) c => (u.modCore c Core.wallTick).preIssue c) s
  t.issueCores run s.cores cs

end Sys2Proof.Machine
end

