-- ==== Sys2Proof/Machine/System.lean ====
section
/-!
DEFINITION. WAITC and the system registers (R204 to R207, R363).
-/
namespace Sys2Proof.Machine

/-- WAITC (R204): the checks of a bypassing 8-byte load, and a wait until the object at its home is at least B, unsigned. An object in another package
is read over the transport, so that its first value too is waited for (R388); a FENCE with EN after it that is not complete holds the observation back
(R144). -/
def execWaitc (w : RForm) (s : State) : Out :=
  runSlot w.g
    (fun s => do
      let a := (s.sreg w.a).toNat
      let b := (s.opB w).toNat
      let s ← checkAccess .bypass a 8 8 s
      let s ← require ((s.piecesOf .bypass a 8).isEmpty || (s.piecesOf .bypass a 8).all (fun p => s.inReach (s.cur / 96) p.pa)) .linkDown s
      .ok (match s.piecesOf .bypass a 8 with
        | p :: _ =>
          if !s.bun.holds.isEmpty then s
          else if (s.payWaitc p.pa).isNone then s.hold (.freeze .late)
          else if s.enFenced s.cur s.core.issuing then s.wait (.object p.pa b)
          else if s.remote p.pa then
            (match s.me.met with | some m => if m.1 = p.pa ∧ b ≤ m.2 then s else s.wait (.object p.pa b) | none => s.wait (.object p.pa b))
          else if leNat (s.homeBytes p.pa 8) < b then s.wait (.object p.pa b)
          else s
        | [] => s))
    (fun s => match readRegs (rReads w) s with
      | .error e => .error e
      | .ok s => .ok (match s.piecesOf .bypass (s.sreg w.a).toNat 8 with | p :: _ => (s.payWaitc p.pa).getD s | [] => s)) s

/-- The accepted launch to which a context's task belongs, where it has one. -/
def State.launchOfCtx (s : State) (x : Ctx) : Option Launch := Tab.find s.thyme.launches x.bind.lkey

/-- TRAPCAUSE as a word (R206). -/
def TrapCause.word (t : TrapCause) : Word :=
  BitVec.ofNat 64 (t.cause.toNat + t.slot.toNat * 2 ^ 5 + (if t.esc then 2 ^ 9 else 0) + (if t.res then 2 ^ 10 else 0) +
    t.detail.toNat * 2 ^ 16 + t.rollbk.toNat * 2 ^ 32)

/-- TRAPCAUSE with its writable fields taken from a word (R206). -/
def TrapCause.set (t : TrapCause) (v : Word) : TrapCause :=
  { t with cause := v.extractLsb' 0 5, slot := v.extractLsb' 5 4, esc := v.getLsbD 9, res := v.getLsbD 10,
           detail := v.extractLsb' 16 10 }

/-- The lifetime record of a core (R354). -/
def State.sageOf (s : State) (c : Nat) : Sage := Tab.get {} s.sage c

/-- WEAR (R363). -/
def State.wearWord (s : State) (c : Nat) : Word :=
  let r := s.sageOf c
  BitVec.ofNat 64 (r.st % 8 + (if r.eccs then 8 else 0) + (if (s.coreAt c).slow then 16 else 0) + r.cause % 8 * 32 +
    r.margin % 65536 * 65536 + r.wufine / 3600000 % 2 ^ 32 * 2 ^ 32)

/-- NCTX (R205, R266). -/
def Ctx.nctx (x : Ctx) : Nat :=
  if x.bind.isNotify then 0
  else x.bind.notify.length % 4 +
    ((List.range 3).foldl (fun n i => n + (x.bind.notify.getD i 0) % 4 * 4 ^ (i + 1)) 0)

/-- SLIPCNT (R338). -/
def Launch.slipcnt (l : Launch) : Nat := l.sticks % 2 ^ 32 + min l.sevents 65535 * 2 ^ 32

/-- The shadow entries that an escalation would make now (R205). -/
def Ctx.shadows (x : Ctx) : Nat := x.shadow.length + (x.pend.filter (fun p => !p.w.toSlot)).length

/-- The value of a system register (R205 to R207). -/
def State.sysValue (s : State) (n : Nat) : Word :=
  let x := s.data
  let nat (v : Nat) : Word := BitVec.ofNat 64 v
  if 0x40 ≤ n ∧ n < 0x60 then x.regs.sreg (n - 0x40)
  else match n with
    | 0x00 => nat s.core.issuing
    | 0x01 => nat (s.cur % 96)
    | 0x02 => nat (s.cur % 96 / 4)
    | 0x03 => nat (s.cur / 96)
    | 0x04 => nat s.pkgid
    | 0x05 => s.podid.setWidth 64
    | 0x08 => nat s.cycle
    | 0x09 => nat ((s.launchOfCtx x).map (fun l => l.frame) |>.getD 0)
    | 0x10 => s.wearWord s.cur
    | 0x18 => x.cause.word
    | 0x19 => x.addr
    | 0x1A => nat 0x30000130000
    | 0x20 => x.hdbg.setWidth 64
    | 0x21 => nat x.bind.stopmax
    | 0x22 => nat ((s.launchOfCtx x).map Launch.slipcnt |>.getD 0)
    | 0x23 => nat x.nctx
    | 0x60 => (x.regs.p ||| 1).setWidth 64
    | 0x61 => (match s.core.replay with | some r => r.addr | none => x.pc)
    | 0x62 => nat (match s.core.replay with | some r => r.done | none => 0)
    | _ => nat x.shadows

/-- The checks that SYSRD and SYSWR share (R205): HS0 to HSHAD exist in the service context only, HDBG is privileged. -/
def sysCheck (n : Nat) (s : State) : Except Stop State := do
  let s ← require (s.inService || decide (n < 0x40)) .priv s
  require (n != 0x20 || s.privileged) .priv s

/-- SYSRD (R205): a latency of one cycle. -/
def execSysrd (w : RForm) (s : State) : Out :=
  runSlot w.g (sysCheck w.b.toNat) (fun s => .ok (s.put (.s w.d.toNat (s.sysValue w.b.toNat)) 1)) s

/-- The effect of SYSWR on the context it refers to: the issuing one, or the held one (R205, R210). HDBG changes as the bundle
ends. -/
def State.sysWrite (s : State) (n : Nat) (v : Word) : State :=
  match n with
  | 0x18 => s.modData (fun x => { x with cause := x.cause.set v })
  | 0x19 => s.modData (fun x => { x with addr := v })
  | 0x20 => s.modBun (fun b => { b with acts := b.acts ++ [.hdbg (v.setWidth 2)] })
  | 0x60 => s.modData (fun x => { x with regs := { x.regs with p := v.setWidth 8 &&& 0xFE } })
  | n => if 0x40 ≤ n ∧ n < 0x60 then s.modData (fun x => x.write (.s (n - 0x40) v)) else s

/-- SYSWR (R205): TRAPCAUSE and TRAPADDR are read-only outside the service context. -/
def execSyswr (w : RForm) (s : State) : Out :=
  let n := w.b.toNat
  runSlot w.g
    (fun s => do
      let s ← sysCheck n s
      require (s.inService || n == 0x20) .illegal s)
    (fun s => match readRegs [w.a.toNat] s with
      | .error e => .error e
      | .ok s => .ok (s.sysWrite n (s.sreg w.a))) s

end Sys2Proof.Machine
end

