-- ==== Sys2Proof/Machine/Image.lean ====
section
/-!
DEFINITION. A context as bytes (R14, R77, R197, R213): its image, its shadow and landing entries, its replay record, and what a restored
context takes from them.
-/
namespace Sys2Proof.Machine

/-- A queue descriptor as its 512 bits (R77). -/
def QDesc.word (d : QDesc) : Nat :=
  let bit (b : Bool) (n : Nat) : Nat := if b then 2 ^ n else 0
  d.base + d.ssz * 2 ^ 12 + d.capm1 * 2 ^ 16 + d.head.bits * 2 ^ 24 + d.tail.bits * 2 ^ 33 + d.mode.code * 2 ^ 42 + bit d.pend 44 +
    bit d.refused 45 + bit d.ownf 46 + d.hwm * 2 ^ 48 + d.occm1 * 2 ^ 64 + d.rcapm1 * 2 ^ 72 + d.mirror.bits * 2 ^ 80 + bit d.mpar 89 +
    d.pcore * 2 ^ 96 + d.pdie * 2 ^ 103 + d.pctx * 2 ^ 105 + d.pq * 2 ^ 107 + d.rcapw * 2 ^ 111 + d.pmap.toNat * 2 ^ 256

/-- A pointer from its nine descriptor bits (R77, R78). -/
def QPtr.ofBits (v : Nat) : QPtr := { idx := v % 256, wrap := v.testBit 8 }

/-- The contents of a queue that its descriptor's bits hold (R77); its mode, its splice and what the model keeps beside them stay. -/
def QDesc.ofWord (d : QDesc) (v : Nat) : QDesc :=
  { d with base := fld v 0 12, ssz := fld v 12 4, capm1 := fld v 16 8, head := .ofBits (fld v 24 9), tail := .ofBits (fld v 33 9),
           hwm := fld v 48 9, occm1 := fld v 64 8, rcapm1 := fld v 72 8, mirror := .ofBits (fld v 80 9), mpar := v.testBit 89,
           rcapw := fld v 111 8, pmap := BitVec.ofNat 256 (fld v 256 256) }

/-- The lane predicates of lane `j` as the image holds them (R14). -/
def Regs.lpByte (r : Regs) (j : Nat) : Byte :=
  BitVec.ofNat 8 ((List.range 7).foldl (fun n i => if (r.lpreg (i + 1)).getLsbD j then n + 2 ^ i else n) 0)

/-- Entry `e` of the loop stack in the image, as 256 bits: the value of X_e and stack level e, of which level 0 is the outermost (R197). -/
def Ctx.loopEntry (x : Ctx) (e : Nat) : Nat :=
  (x.regs.xreg e).toNat +
    (match x.loops.reverse[e]? with
     | some l => l.rem % 2 ^ 33 * 2 ^ 64 + l.start.toNat * 2 ^ 128 + l.endIdx % 512 * 2 ^ 192 + l.xn % 8 * 2 ^ 201 + l.stg % 16 * 2 ^ 204 +
         2 ^ 208 + l.step.toNat * 2 ^ 224
     | none => 0)

/-- Image offsets 0 to 0x487F (R14). Bytes 0x4180 to 0x41BF, whose exact layout the spec leaves open, are free (assumption 10). -/
def Ctx.image (x : Ctx) (fresh : Nat) : List Byte :=
  (List.range 128).flatMap (fun j => (List.range 32).flatMap (fun n => leBytes (laneAt (x.regs.lreg n).toNat j) 4)) ++
    (List.range 128).map x.regs.lpByte ++ (List.range 32).flatMap (fun n => leBytes (x.regs.sreg n).toNat 8) ++
    (List.range 64).map (fun i => Config.freeByte fresh (0x4180 + i)) ++ (List.range 6).flatMap (fun e => leBytes (x.loopEntry e) 32) ++
    (List.range 16).flatMap (fun q => leBytes (x.queue q).word 64) ++ (List.range 16).flatMap (fun d => leBytes (x.regs.dreg d).toNat 32)

/-- Bytes of a range of memory, by offset. -/
def Memory.cut (m : Memory) (a n : Nat) : Memory :=
  (m.filter (fun c => decide (a ≤ c.1) && decide (c.1 < a + n))).map (fun c => (c.1 - a, c.2))

/-- A range of memory with the listed bytes in it. -/
def Memory.paste (m : Memory) (a n : Nat) (p : Memory) : Memory :=
  p.foldl (fun (t : Memory) c => t.write (a + c.1) c.2) (m.filter (fun c => !(decide (a ≤ c.1) && decide (c.1 < a + n))))

/-- A number of `n` bytes at offset `o` of a block of memory. -/
def Memory.num (m : Memory) (o n : Nat) : Nat := leNat (m.readBytes o n)

/-- A loop level from its entry (R197); none where VALID is clear. -/
def levelOf (m : Memory) (e : Nat) (old : Option Level) : Option Level :=
  let v := m.num (0x41C0 + 32 * e) 32
  if v.testBit 208 then
    some { rem := fld v 64 33, start := BitVec.ofNat 64 (fld v 128 64), endIdx := fld v 192 9, xn := fld v 201 3, stg := fld v 204 4,
           step := BitVec.ofNat 32 (fld v 224 32), after := old.bind (fun l => l.after) }
  else none

/-- A context with what image offsets 0 to 0x487F hold of it, but for the bytes whose layout is open (R14). -/
def Ctx.ofImage (x : Ctx) (m : Memory) : Ctx :=
  let lane (n : Nat) : Lanes := lanesOf (fun j => m.num (128 * j + 4 * n) 4)
  let pred (n : Nat) : LaneMask := maskOf (fun j => (m.num (0x4000 + j) 1).testBit n)
  let s := (List.range 31).foldl (fun (t : Tab Word) i => t.put (i + 1) (BitVec.ofNat 64 (m.num (0x4080 + 8 * (i + 1)) 8))) x.regs.s
  let xs := (List.range 6).foldl (fun (t : Tab Word) e => t.put e (BitVec.ofNat 64 (m.num (0x41C0 + 32 * e) 8))) x.regs.x
  let ls := (List.range 32).foldl (fun (t : Tab Lanes) n => t.put n (lane n)) x.regs.l
  let lps := (List.range 7).foldl (fun (t : Tab LaneMask) n => t.put (n + 1) (pred n)) x.regs.lp
  let ds := (List.range 16).foldl (fun (t : Tab (BitVec 256)) d => t.put d (BitVec.ofNat 256 (m.num (0x4680 + 32 * d) 32))) x.regs.d
  { x with regs := { x.regs with s := s, x := xs, l := ls, lp := lps, d := ds },
           loops := ((List.range 6).filterMap (fun e => levelOf m e (x.loops.reverse[e]?))).reverse,
           q := x.q.map (fun e => (e.1, e.2.ofWord (m.num (0x4280 + 64 * e.1) 64))) }

/-- A frame with what the bytes of its snapshot hold of it (R219, R221). -/
def Frame.ofImage (f : Frame) (m : Memory) : Frame :=
  let y : Ctx := ({ regs := f.regs, loops := f.loops, q := f.qs } : Ctx).ofImage m
  { f with regs := y.regs, loops := y.loops, qs := y.q }

/-- A write whose value lies in a block of the shadow value store (R213). -/
def Write.wide : Write → Bool
  | .l .. => true
  | .lp .. => true
  | _ => false

/-- The value of a write to a register (R213). -/
def Write.value : Write → Nat
  | .s _ v => v.toNat
  | .p _ v => if v then 1 else 0
  | .x _ v => v.toNat
  | .l _ _ v => v.toNat
  | .lp _ _ v => v.toNat
  | _ => 0

/-- The write with another value. -/
def Write.withValue (w : Write) (v : Nat) : Write :=
  match w with
  | .s n _ => .s n (BitVec.ofNat 64 v)
  | .p n _ => .p n (v.testBit 0)
  | .x n _ => .x n (BitVec.ofNat 64 v)
  | .l n m _ => .l n m (BitVec.ofNat 4096 v)
  | .lp n m _ => .lp n m (BitVec.ofNat 128 v)
  | w => w

/-- The destination field of an entry (R213): kind, lane-mask selector, number. -/
def Write.dest (w : Write) (sel : Nat) : Nat :=
  match w with
  | .s n _ => n
  | .p n _ => 0x2000 + n
  | .l n _ _ => 0x4000 + sel * 256 + n
  | .lp n _ _ => 0x6000 + sel * 256 + n
  | .x n _ => 0x8000 + n
  | _ => 0

/-- What a shadow or landing entry holds: the write, its lane-mask selector, its remaining count, and its canonical slot with its order
within the cycle. -/
structure Shadowed where
  w : Write
  sel : Nat
  count : Nat
  slot : Nat
  order : Nat
  deriving DecidableEq, Repr

/-- The shadow entries of a context (R213). -/
def Ctx.shadowed (x : Ctx) : List Shadowed :=
  let ps := x.pend.filter (fun p => !p.w.toSlot)
  (List.zip (List.range ps.length) ps).map (fun e => ⟨e.2.w, e.2.sel, e.2.due, e.2.slot, e.1⟩)

/-- The landing entries of a context (R213). -/
def Ctx.landed (x : Ctx) : List Shadowed :=
  (List.zip (List.range x.land.length) x.land).map (fun e => ⟨e.2.w, e.2.sel, e.2.due, e.2.slot, e.1⟩)

/-- The blocks of the shadow value store that a context uses (R213). -/
def Ctx.blocks (x : Ctx) : List Nat := ((x.shadowed ++ x.landed).filter (fun e => e.w.wide)).map (fun e => e.w.value)

/-- An entry as its 16 bytes, with its block number (R213). The order within the cycle lies in the high half of byte 12 (DESIGN CHOICE,
assumption 43). -/
def Shadowed.bytes (e : Shadowed) (block : Nat) : List Byte :=
  leBytes (if e.w.wide then block else e.w.value) 8 ++ leBytes (e.w.dest e.sel) 2 ++ leBytes (e.count % 512) 2 ++
    leBytes (e.slot % 16 + e.order % 16 * 16) 1 ++ leBytes 0 3

/-- Entries as bytes, their blocks numbered from `b`. -/
def entryBytes : Nat → List Shadowed → List Byte
  | _, [] => []
  | b, e :: r => e.bytes b ++ entryBytes (if e.w.wide then b + 1 else b) r

/-- Bytes padded with zeros. -/
def padded (n : Nat) (bs : List Byte) : List Byte := bs ++ List.replicate (n - bs.length) 0

/-- Image offsets 0x4880 to 0x4FFF of a context (R14, R213); `rec` says that a replay record lies beside the image. -/
def Ctx.imageTail (x : Ctx) (rec : Bool) : List Byte :=
  let wide := (x.shadowed.filter (fun e => e.w.wide)).length
  padded 1024 (entryBytes x.vbase x.shadowed) ++ padded 512 (entryBytes (x.vbase + wide) x.landed) ++
    leBytes x.cause.word.toNat 8 ++ leBytes x.addr.toNat 8 ++ leBytes x.spacing 2 ++ leBytes x.land.length 1 ++
    leBytes (if rec then 1 else 0) 1 ++ List.replicate 364 0

/-- The value of entry `i` at offset `o` of a saved image, whose wide values lie from block `b` on at offset `v` (R213). -/
def savedValue (m : Memory) (o v b : Nat) (w : Write) : Nat :=
  if w.wide then m.num (v + 512 * (m.num o 8 - b)) 512 else m.num o 8

/-- A context with what offsets 0x4880 to 0x4E8F of its saved image hold of it (R14, R213); its blocks lie at offset `v`. -/
def Ctx.ofTail (x : Ctx) (m : Memory) (v : Nat) : Ctx :=
  let ps := x.pend.filter (fun p => !p.w.toSlot)
  let qs := x.pend.filter (fun p => p.w.toSlot)
  let ps := (List.zip (List.range ps.length) ps).map (fun e => { e.2 with w := e.2.w.withValue (savedValue m (0x4880 + 16 * e.1) v x.vbase e.2.w) })
  let ls := (List.zip (List.range x.land.length) x.land).map
    (fun e => { e.2 with w := e.2.w.withValue (savedValue m (0x4C80 + 16 * e.1) v x.vbase e.2.w) })
  { x with pend := ps ++ qs, land := ls, cause := x.cause.set (BitVec.ofNat 64 (m.num 0x4E80 8)), addr := BitVec.ofNat 64 (m.num 0x4E88 8),
           spacing := m.num 0x4E90 2 }

/-- The stored words of a bundle without the fields of its stored header (R27). -/
def Bundle.expanded (b : Bundle) : List Nat :=
  let codes := b.words.foldl (fun n e => n + 4 ^ e.1) 0
  let wc := b.words.foldl (fun n e => n + slotWords e.1) 0
  (codes + (if b.stop then 16777216 else 0) + wc * 134217728) ::
    b.words.flatMap (fun e => if slotWords e.1 = 1 then [e.2] else [e.2 % 4294967296, e.2 / 4294967296])

/-- The bytes of the replay record (R213). The operands that follow are those that the unperformed slots read; which they are, and so their
number and their bytes, the spec leaves open, and they are free (assumption 43). -/
def Replay.bytes (r : Replay) (fresh : Nat) : List Byte :=
  leBytes r.addr.toNat 8 ++ leBytes (r.done % 1024) 2 ++ [Config.freeByte fresh 10, Config.freeByte fresh 11] ++ leBytes 0 4 ++
    padded 72 (r.bundle.expanded.flatMap (fun w => leBytes w 4)) ++ leBytes 0 8 ++
    (List.range 12192).map (fun i => Config.freeByte fresh (96 + i))

end Sys2Proof.Machine
end

