-- ==== Sys2Proof/Machine/CoreEvents.lean ====
section
/-!
DEFINITION. The events of a core (R13 to R22, R49, R204, R209, R213, R215, R219 to R221, R326, R327): interlock holds, thaws, waits that are met,
the starvation guard, pre-emption, service entry, the drain of an escalation, snapshots and rollbacks.
-/
namespace Sys2Proof.Machine

/-- Bytes put into memory, over what was there. -/
def State.putBytes (s : State) (pa : Nat) (bs : List Byte) : State :=
  ({ s with mem := s.mem.writeBytes pa bs } : State).covered (pa, bs)

/-- INTERLOCK_HOLD: the next issue-domain cycle of an interlock hold begins, for every core of the unit (R49, R321). -/
def execInterlockHold (c : Nat) (s : State) : Out :=
  if (s.coreAt c).ilock then
    .next ((((s.unit c) ++ [c]).eraseDups.filter (fun d => (s.coreAt d).ilock)).foldl (fun (t : State) d =>
      (t.beginCycle d).modCore d (fun y => { y with ilock := false })) s)
  else idle s

/-- A wait for a queue slot, or for the slots of a queue, still holds (R15, R90). -/
def Ctx.slotHolds (x : Ctx) (q idx : Nat) : Bool :=
  let d := x.queue q
  !d.pmap.getLsbD idx && (d.mode == .spliceIn || (d.mode == .localQ && (List.range d.used).any (fun k => d.at k == idx)))

/-- A splice-out queue still has fewer than `n` free slots, with nothing about it that would trap (R20, R85). -/
def Ctx.roomHolds (x : Ctx) (q n : Nat) : Bool :=
  let d := x.queue q
  d.mode == .spliceOut && d.outTrap.isNone && decide (d.freeOut < n)

/-- A blocking wait of a context is not yet met as far as its core sees; completion objects and barriers are seen through COMPLETION_REREAD and
BARRIER_RELEASE. -/
def Ctx.waitHolds (x : Ctx) (w : Wait) : Bool :=
  match w with
  | .slot q k => x.slotHolds q ((x.queue q).at k)
  | .room q n => x.roomHolds q n
  | _ => true

/-- A freeze of context `k` of core `c`, whose queues are those of context `j`, has not cleared (R20). -/
def State.freezeHolds (s : State) (c k j : Nat) (f : Freeze) : Bool :=
  let x := s.ctxAt c j
  match f with
  | .absent q idx => x.slotHolds q idx && !x.now
  | .late => (s.ctxAt c k).land.any (fun l => l.due == 0 && !l.arrived)
  | .requests => decide (1024 ≤ s.outstanding c) || decide (256 ≤ s.portWaiting c (s.shareClass c k))
  | .noRoom q => x.roomHolds q 1
  | .wait w => x.waitHolds w && !x.now
  | .unsplice q => (x.queue q).pend && !(x.queue q).refused && !(x.queue q).down
  | .latch i => !((s.coreAt c).latch i).ready && !x.now
  | .walk => (s.coreAt c).walks.any (fun w => !w.failed && w.asn == x.bind.asn)
  | _ => true

/-- A freeze of context `k` of core `c`, with the queues of context `j`, has cleared because the held bundle now traps: an absent slot
that nothing fills any more, a splice that takes no append, a walk that has failed (R20, R90, R124). -/
def State.clearsFaulty (s : State) (c j : Nat) (f : Freeze) : Bool :=
  let x := s.ctxAt c j
  match f with
  | .absent q idx => !(x.queue q).pmap.getLsbD idx
  | .noRoom q => (x.queue q).mode != .spliceOut || (x.queue q).outTrap.isSome
  | .wait (.slot q k) => !(x.queue q).pmap.getLsbD ((x.queue q).at k)
  | .wait (.room q _) => (x.queue q).mode != .spliceOut || (x.queue q).outTrap.isSome
  | .walk => (s.coreAt c).walks.any (fun w => w.failed && w.asn == x.bind.asn)
  | _ => false

/-- FREEZE_THAW: the freeze causes of a core that have cleared are removed; with none left its issue domain resumes (R20, R21). Where others
hold, a fault with which one has cleared is taken at once. -/
def execFreezeThaw (c : Nat) (s : State) : Out :=
  let y := s.coreAt c
  let k := y.running.getD 0
  let own := y.freeze.filter (s.freezeHolds c k k)
  let svc := y.svcFreeze.filter (s.freezeHolds c 4 y.dataIdx)
  if own = y.freeze ∧ svc = y.svcFreeze then idle s
  else
    let bad := if y.held.isSome then svc != [] && y.svcFreeze.any (fun f => !svc.contains f && s.clearsFaulty c y.dataIdx f)
      else own != [] && y.freeze.any (fun f => !own.contains f && s.clearsFaulty c k f)
    .next (s.modCore c (fun y => { y with freeze := own, svcFreeze := svc, retry := y.retry || bad }))

/-- The value of a completion object at its home, in this package, has reached B (R204). -/
def State.objectMet (s : State) (w : Wait) : Bool :=
  match w with
  | .object pa b => !s.remote pa && decide (b ≤ leNat (s.homeBytes pa 8))
  | _ => false

/-- A WAITING context becomes READY (R15). -/
def Ctx.wake (x : Ctx) : Ctx := { x with wait := none, status := if x.status = .waiting then .ready else x.status }

/-- WAIT_CONDITION_MET: the condition of a WAITING context is met, and it becomes READY (R15, R16). A wait on a completion
object ends with COMPLETION_REREAD, one on a barrier with BARRIER_RELEASE. -/
def execWaitConditionMet (c k : Nat) (s : State) : Out :=
  let x := s.ctxAt c k
  match x.wait with
  | some w =>
    if x.status = .waiting ∧ !x.waitHolds w then .next (s.modCtx c k Ctx.wake) else idle s
  | none => idle s

/-- COMPLETION_REREAD: a core reads again the completion object on which a context waits or its issue domain is frozen (R204); the port
charges 64 bytes for it (R395). A FENCE with EN after it that is not complete holds the observation back (R144). -/
def execCompletionReread (c k : Nat) (s : State) : Out :=
  let reads (w : Wait) : Nat := match w with | .object pa _ => if s.targetOf pa = .scratch c then 0 else 64 | _ => 0
  let n := (match (s.ctxAt c k).wait with | some w => reads w | none => 0) +
    (if (s.coreAt c).running = some k then ((s.coreAt c).freeze.map (fun f => match f with | .wait w => reads w | _ => 0)).foldl (fun a b => a + b) 0
     else 0)
  let cls := s.shareClass c k
  match (if n = 0 then some s else s.takePort c cls n) with
  | none => .next (s.setPortCls c cls { s.portCls c cls with active := true })
  | some s =>
  if s.enFenced c k then .next s
  else
  let s := match (s.ctxAt c k).wait with
    | some w => if s.objectMet w then s.modCtx c k Ctx.wake else s
    | none => s
  if (s.coreAt c).running = some k then
    .next (s.modCore c (fun y => { y with freeze := y.freeze.filter (fun f => match f with | .wait w => !s.objectMet w | _ => true) }))
  else .next s

/-- STARVATION_GUARD: a context whose count has reached 65,536 is switched out at its stop point as if by YIELD (R16). -/
def execStarvationGuard (c k : Nat) (s : State) : Out :=
  let y := s.coreAt c
  let x := y.ctx k
  if y.running = some k ∧ x.status = .running ∧ 65536 ≤ x.starve ∧ x.atStop ∧ y.held.isNone ∧ x.bind.gang.isNone ∧ x.phase.next.isNone ∧
      y.freeze.isEmpty ∧ y.otherReady k then
    .next (s.modCore c (Core.giveUp k .ready))
  else idle s

/-- The members of the running gang of a context, or the context alone. -/
def State.unitCtxs (s : State) (c k : Nat) : List (Nat × Nat) :=
  match s.gangOf (s.ctxAt c k) with
  | some g => if g.started then g.members else [(c, k)]
  | none => [(c, k)]

/-- A pre-emption request at one context (R22, R215, R326): a RUNNING or HELD one takes it at its next stop point, a READY or
WAITING one is stopped at once with its wait unperformed. -/
def Ctx.requested (x : Ctx) : Ctx :=
  if x.preempt.isSome then x
  else match x.status with
    | .running => { x with preempt := some 0 }
    | .held => { x with preempt := some 0 }
    | .ready => { x with preempt := some 0 }
    | .waiting => { x with preempt := some 0, status := .ready, wait := none }
    | _ => x

/-- The units of the pool of a context's launch queue (R400). -/
def State.poolOf (s : State) (x : Ctx) : Nat := match s.launchOfCtx x with | some l => (s.lq l.src.q).spsize | none => 0

/-- The task context behind a context: that of its task, where it is a notify context. -/
def State.taskCtx (s : State) (c k : Nat) : Nat :=
  if (s.ctxAt c k).bind.isNotify then
    (((s.coreAt c).ctxs.find? (fun e => !e.2.bind.isNotify && e.2.bind.notify.contains k && e.2.status != .free)).map (fun e => e.1)).getD k
  else k

/-- The placed tasks on other cores that hold or share a region of a task's span (R180). -/
def State.borrowers (s : State) (c k : Nat) : List (Nat × Nat) :=
  let b := (s.ctxAt c k).bind
  let lo := scratchPA c + b.spanBase
  let rs := s.own.regions.filter (fun e => decide (lo ≤ e.1) && decide (e.1 < lo + b.spanBytes))
  let ps := rs.flatMap (fun e => e.2.owner :: (s.own.shares.filter (fun h => h.1 == e.1)).map (fun h => h.2))
  ((ps.filter (fun p => p != b.party)).filterMap s.coreOfParty).map (fun e => (e.1, s.taskCtx e.1 e.2))

/-- Some tasks with those that hold regions of their spans, each with its gang, and so on. -/
def State.withBorrowers (s : State) : Nat → List (Nat × Nat) → List (Nat × Nat)
  | 0, ms => ms
  | f + 1, ms =>
    let all := (ms ++ (ms.flatMap (fun m => s.borrowers m.1 m.2)).flatMap (fun m => s.unitCtxs m.1 m.2)).eraseDups
    if all.length = ms.length then ms else s.withBorrowers f all

/-- The tasks that migrate together with a task: its gang, and those to which regions of their scratchpads are lent (R180, R326). -/
def State.together (s : State) (c k : Nat) : List (Nat × Nat) := s.withBorrowers 1536 (s.unitCtxs c k)

/-- The worst wear state of the cores of some tasks (R354). -/
def State.worstWear (s : State) (ms : List (Nat × Nat)) : Nat := ms.foldl (fun n m => max n (s.sageOf m.1).st) 0

/-- Tasks that migrate together may be pre-empted (R332, R346, R360, R361, R400): their entries do not forbid it, or a core of theirs is RETIRING; and
there are pools to save them, or a core of theirs is being drained or retired. -/
def State.mayPreempt (s : State) (ms : List (Nat × Nat)) : Bool :=
  ms.all (fun m =>
    let x := s.ctxAt m.1 m.2
    (!x.bind.nopre || decide (3 ≤ s.worstWear ms)) && (decide (0 < s.poolOf x) || decide (2 ≤ s.worstWear ms)))

/-- Thyme asks for a task with its notify contexts, and tells its gang. -/
def State.ask (s : State) (c k : Nat) : State :=
  let s := (k :: (s.ctxAt c k).bind.notify).foldl (fun (t : State) j => t.modCtx c j Ctx.requested) s
  match (s.ctxAt c k).bind.gang, s.gangOf (s.ctxAt c k) with
  | some n, some g => s.setGang n { g with preempt := true }
  | _, _ => s

/-- PREEMPTION_REQUEST: Thyme asks for a task with its notify contexts, and with it for all that migrate together with it (R22, R180, R266, R326,
R346). -/
def execPreemptionRequest (c k : Nat) (s : State) : Out :=
  let k := s.taskCtx c k
  let ms := s.together c k
  if 4 ≤ k ∨ !s.mayPreempt ms then idle s
  else .next (ms.foldl (fun (t : State) (m : Nat × Nat) => t.ask m.1 m.2) s)

/-- The bundle that is held or due next on core `c` enters the replay buffer (R22); of one whose segment is not expanded its address
does. -/
def State.holdDue (s : State) (c : Nat) : State :=
  let cur := s.cur
  let s := (({ s with cur := c } : State).loadBun).keepBun c
  { s with cur := cur }

/-- PREEMPTION_LIMIT_EXPIRY: a running context that reached no stop point within PLIMIT cycles escalates (R22). A PARKED member has taken
the request at once (R318). -/
def execPreemptionLimitExpiry (c k : Nat) (s : State) : Out :=
  let y := s.coreAt c
  let x := y.ctx k
  let late := match x.preempt with | some n => decide (max s.thyme.plimit 256 ≤ n) | none => false
  let parked := s.memberState x == some .parked || s.memberState x == some .done
  if y.running = some k ∧ x.status = .running ∧ y.held.isNone ∧ late = true ∧ !x.finishing ∧ parked = false then
    .next ((s.holdDue c).modCore c (fun y => y.escalate k))
  else idle s

/-- The held bundle has still to pop slot `idx` of queue `q` (R210). -/
def Ctx.stillNamed (x : Ctx) (r : Option Replay) (q idx : Nat) : Bool :=
  match r.bind (fun r => r.pops) with
  | some ps => ps.any (fun e => e.1 == q && (List.range e.2).any (fun k => (x.queue q).at k == idx))
  | none => false

/-- The writes of a context's exposed pipelines that aim at queue slots, but for one whose storage the held bundle, with replay record `r`, has
still to read and to pop (R210, R213; assumption 86). -/
def Ctx.slotPends (x : Ctx) (r : Option Replay) : List Pend :=
  x.pend.filter (fun p => match p.w with | .slot q i _ _ => !x.stillNamed r q i | .remote .. => true | _ => false)

/-- The first block of the shadow value store that no other escalated context of a core uses (R213). -/
def Core.freeBlock (c : Core) (k : Nat) : Nat :=
  (c.ctxs.filter (fun e => e.1 != k && e.2.status == .held && e.2.cause.esc && !e.2.escalating)).foldl
    (fun n e => max n (e.2.vbase + e.2.blocks.length)) 0

/-- The lane values of an escalated context go into its blocks of the shadow value store, at the top of the core scratchpad (R213). -/
def State.storeBlocks (s : State) (c k : Nat) : State :=
  let b := (s.coreAt c).freeBlock k
  let bs := (s.ctxAt c k).blocks
  let pa := scratchPA c + 0x178000
  let s := (List.zip (List.range bs.length) bs).foldl (fun (t : State) e => t.putBytes (pa + 512 * (b + e.1)) (leBytes e.2 512)) s
  s.modCtx c k (fun x => { x with vbase := b })

/-- ESCALATION_DRAIN_COMPLETE: the pipelines of an escalating context have drained and its awaited data has arrived (R213). Its
slot results are written at once, and so are its stream registers, for which an entry has no kind (DEDUCED, assumption 86); its lane values
go into the shadow value store; its replay buffer goes with it, and Thyme may save it. -/
def execEscalationDrainComplete (c k : Nat) (s : State) : Out :=
  let y := s.coreAt c
  let x := y.ctx k
  let first := y.ctxs.all (fun e => !(decide (e.1 < k) && e.2.escalating))
  if x.escalating && first && x.land.all (fun l => l.arrived) && x.barNo.isNone then
    let rep := if y.running = some k then y.replay else x.replay
    let ws := x.slotPends rep
    let s := s.landAll c k ws
    let ds := x.pend.filter (fun p => match p.w with | .d .. => true | _ => false)
    let s := s.modCtx c k (fun x => ds.foldl (fun (y : Ctx) p => y.write p.w)
      { x with escalating := false, pend := x.shadow ++ x.pend.filter (fun p => !ws.contains p && !ds.contains p), shadow := [],
               replay := rep })
    let s := s.storeBlocks c k
    if y.running = some k then
      .next (s.modCore c (fun y =>
        { y with running := none, next := (k + 1) % 4, replay := none, svcTimer := none, switchLeft := 0,
                 freeze := y.freeze.filter (fun f => f == .clock) }))
    else .next s
  else idle s

/-- A lower member of a context's gang is in, or still waits for, its service (R325). -/
def State.serviceBehind (s : State) (c k : Nat) : Bool :=
  let x := s.ctxAt c k
  (s.unitCtxs c k).any (fun m => m.1 != c &&
    ((s.coreAt m.1).held.isSome ||
      ((s.coreAt m.1).svcTimer.isSome && decide ((s.ctxAt m.1 m.2).bind.member < x.bind.member))))

/-- SERVICE_ENTRY: four cycles after a cause the service context begins at the firmware's entry (R209). -/
def execServiceEntry (c : Nat) (s : State) : Out :=
  let y := s.coreAt c
  match y.running with
  | some k =>
    if y.svcTimer = some 0 ∧ (y.ctx k).status = .held ∧ y.held.isNone ∧ !s.serviceBehind c k then
      .next (s.modCore c (fun y =>
        { (y.modCtx 4 (fun x => { (x.enter (segOf (BitVec.ofNat 64 s.mgmt.svcEntry))) with
            pc := BitVec.ofNat 64 s.mgmt.svcEntry, loops := [], pend := [], land := [], ticked := false, status := .running })) with
          held := some k, svcTimer := none, svcFreeze := [] }))
    else idle s
  | none => idle s

/-- The CORE barrier slots of core `c` that a launch binds (R327). -/
def State.coreBars (s : State) (c : Nat) (launch : Word) : Tab BarSlot :=
  s.bars.filter (fun e => e.1 / 64 == 1024 + c && e.2.launch == launch)

/-- What the ending phase has popped becomes free, and its head may be sent (R219, R220). -/
def Ctx.freePopped (x : Ctx) : Ctx :=
  { x with q := x.q.map (fun e => (e.1, { e.2 with popped := 0, headDue := e.2.headDue || (e.2.mode == .spliceIn && decide (0 < e.2.popped)) })) }

/-- The accesses of a context that have not performed, or whose data has not landed (R219). -/
def State.accessesOut (s : State) (c k : Nat) : Bool :=
  s.flight.any (fun e => e.2.core == c && e.2.ctx == k && (match e.2.msg with
    | .access a => !a.performed || a.dst != .none
    | .token _ => true
    | .append .. => true
    | _ => false))

/-- The snapshot of one context into the frame that the last PHASE did not use, which becomes current (R219, R268, R327). -/
def State.snapshot (s : State) (c k base n : Nat) : State :=
  let f := 1 - (s.ctxAt c k).phase.frame
  let s := s.modCtx c k Ctx.freePopped
  let x := s.ctxAt c k
  let fr : Frame := { regs := x.regs, pc := x.pc, sig := x.sig, loops := x.loops, qs := x.q, out := base, blocks := n,
                      input := x.phase.reg, bars := s.coreBars c x.bind.launch,
                      gang := if x.bind.member = 0 then s.gangOf x else none }
  let bytes := x.image s.fresh ++ padded 384 (leBytes base 8 ++ leBytes n 8)
  let pa := spanPA c x (x.bind.snap + 18944 * f)
  let s := ({ s with mem := s.mem.writeBytes pa bytes, fresh := s.fresh + 1 } : State).covered (pa, bytes)
  let s : State := { s with ops := s.ops.map (fun e => if e.2.core = c ∧ e.2.ctx = k then (e.1, { e.2 with phase := false }) else e) }
  s.modCtx c k (fun x =>
    { x with frames := (if f = 0 then fr :: x.frames.drop 1 else x.frames.take 1 ++ [fr]),
             phase := { x.phase with out := base, blocks := n, frame := f, input := x.phase.reg, reg := [], next := none } })

/-- PHASE_SNAPSHOT: with its stores, landings and accesses performed, PHASE writes its snapshot (R219); in a gang each member for
itself. -/
def execPhaseSnapshot (c k : Nat) (s : State) : Out :=
  let x := s.ctxAt c k
  match x.phase.next with
  | some (b, n) =>
    if x.pend.isEmpty && x.land.isEmpty && !s.accessesOut c k then .next (s.snapshot c k b n) else idle s
  | none => idle s

/-- Engine operations of a context that a rollback waits for: its copies of this phase, or its refetches (R221). -/
def State.rollbackWaits (s : State) (c k : Nat) (refetch : Bool) : Bool :=
  s.ops.any (fun e => e.2.core == c && e.2.ctx == k && (match e.2.body with
    | .copy o => if refetch then o.kind == .refetch else e.2.phase
    | .sparse _ => false))

/-- The queue descriptor that a rollback restores (R220, R221). The slots that a splice has delivered since stay: present, behind the
restored head (DEDUCED). -/
def QDesc.restored (old now : QDesc) : QDesc :=
  if old.mode = .spliceIn ∧ now.mode = .spliceIn then
    let n := qcount old.tail now.tail old.cap
    { old with tail := now.tail, hwm := now.hwm, failing := now.failing, headDue := now.headDue, nextHead := now.nextHead,
               headNo := now.headNo, cuts := now.cuts, pinned := now.pinned,
               pmap := (List.range n).foldl (fun (m : BitVec 256) i => m ||| (1#256 <<< (qadvance old.tail i old.cap).idx)) old.pmap }
  else { old with pinned := now.pinned }

/-- A context as its frame holds it (R221). -/
def Ctx.rolledBack (x : Ctx) (f : Frame) : Ctx :=
  { x with regs := f.regs, pc := f.pc, sig := f.sig, loops := f.loops, q := f.qs.map (fun e => (e.1, e.2.restored (x.queue e.1))),
           buf := [], rstack := [], pend := [], land := [], shadow := [], past := false, doubt := none, finishing := false,
           replay := none, spacing := 0, ticked := false, atStop := false,
           badS := [], badL := [], barNo := none, wait := none, status := if x.status = .waiting then .ready else x.status,
           phase := { x.phase with out := f.out, blocks := f.blocks, input := f.input, reg := [], next := none, refetched := true } }

/-- The array without its pending beats, its staging and its open slots (R305). -/
def MArray.emptied (a : MArray) : MArray :=
  { a with staging := none, next := [], beats := [], b0 := { a.b0 with drain := none, load := none }, b1 := { a.b1 with drain := none, load := none } }

/-- Everything of a context on its way that a rollback discards (R221, R282, R305). -/
def State.discardPhase (s : State) (c k : Nat) : State :=
  let sx := (s.ops.filter (fun e => e.2.core == c && e.2.ctx == k && e.2.phase && e.2.copy?.isNone))
  let s := sx.foldl (fun (t : State) (e : Nat × EngOp) => t.endOp e.1 e.2) s
  let s : State := { s with flight := s.flight.filter (fun e => !(e.2.core == c && e.2.ctx == k && (match e.2.msg with
    | .access a => a.dst != .none
    | .arrive .. => true
    | _ => false))) }
  let s := if (s.ctxAt c k).bind.array then s.modCore c (fun y => { y with arr := y.arr.emptied }) else s
  s.modCore c (fun y =>
    if y.running = some k then
      { y with replay := none, freeze := y.freeze.filter (fun f => f == .clock || f == .rollback),
               svcTimer := none }
    else y)

/-- A rollback that cannot be made escalates the context with ECC_UE and ESC (R221). -/
def State.rollbackFails (s : State) (c k : Nat) : State :=
  (s.modCtx c k (fun x => { (x.trapped .eccUe 15 0 false x.addr) with
    phase := { x.phase with rollback := none, refetched := false, failed := false } })).modCore c (fun y => y.escalate k)

/-- The rollback of a context cannot be made: its frame is damaged or missing, or a refetch has stopped (R221). -/
def State.rollbackBad (s : State) (c k : Nat) : Bool :=
  let x := s.ctxAt c k
  x.phase.failed || (x.frames[x.phase.frame]?).isNone || s.badRange (spanPA c x (x.bind.snap + 18944 * x.phase.frame)) 18944

/-- A computation over context `k` of core `c` as if it issued there. -/
def State.asRunning (s : State) (c k : Nat) (f : State → State) : State :=
  let cur := s.cur
  let run := (s.coreAt c).running
  let held := (s.coreAt c).held
  let s := f (({ s with cur := c } : State).modCore c (fun y => { y with running := some k, held := none, bun := {} }))
  { (s.modCore c (fun y => { y with running := run, held := held })) with cur := cur }

/-- One registered input fetched again (R268): its descriptor is read and its copy repeated, without its completion. -/
def State.refetch (s : State) (a : Nat) : State :=
  let d := copyDesc (s.descriptor a)
  let op := s.copyOp .refetch d
  let s := s.issueOp none false d.inc (op.src ++ op.dst) (.copy op)
  { s with ops := s.ops.map (fun e => if e.1 + 1 = s.seq then (e.1, { e.2 with phase := false }) else e) }

/-- The translation that the refetch of a context's inputs still misses (R126). -/
def State.refetchMiss (s : State) (inputs : List Nat) : Option Nat :=
  inputs.findSome? (fun a =>
    let d := copyDesc (s.descriptor a)
    (List.range d.rows).findSome? (fun r => match s.resolve false (rowAt d.src d.spitch r) d.len with
      | .miss va => some va
      | _ => none))

/-- The first half of a rollback for one context: discard, restore, refetch (R221), after the walks that the
refetch needs. -/
def State.rollOne (s : State) (c k : Nat) : State :=
  let x := s.ctxAt c k
  match x.frames[x.phase.frame]? with
  | none => s
  | some f =>
    match (({ s with cur := c } : State).modCore c (fun y => { y with running := some k, held := none })).refetchMiss f.input with
    | some va => s.startWalk c x.bind.asn x.bind.root va
    | none =>
      let s := s.discardPhase c k
      let f := f.ofImage (Memory.cut s.mem (spanPA c x (x.bind.snap + 18944 * x.phase.frame)) 18944)
      let s := s.modCtx c k (fun x => x.rolledBack f)
      let s : State := { s with bars := f.bars.foldl (fun (t : Tab BarSlot) (e : Nat × BarSlot) => t.put e.1 e.2) s.bars }
      f.input.foldl (fun (t : State) a => t.asRunning c k (fun u => u.refetch a)) s

/-- The gang's state as the leader's frame holds it (R327). -/
def Gang.rolledBack (g : Gang) (f : Gang) : Gang :=
  { g with states := f.states, parking := f.parking, comp := f.comp, owed := f.owed, delay := f.delay, kept := f.kept, stopped := [],
           giss := f.giss }

/-- The gang of a rolled-back unit takes the state that the leader's frame holds (R327). -/
def State.rollGang (s : State) (c k : Nat) : State :=
  match (s.ctxAt c k).bind.gang, s.gangOf (s.ctxAt c k) with
  | some n, some g =>
    (match g.members with
     | l :: _ =>
       let x := s.ctxAt l.1 l.2
       (match (x.frames[x.phase.frame]?).bind (fun f => f.gang) with
        | some h => s.setGang n (g.rolledBack h)
        | none => s)
     | [] => s)
  | _, _ => s

/-- The end of a rollback for one context: it is counted, and the context resumes (R221). -/
def State.resumeOne (s : State) (c k : Nat) : State :=
  (s.modCtx c k (fun x =>
    { x with cause := { x.cause with rollbk := if x.cause.rollbk = 65535 then 65535 else x.cause.rollbk + 1 },
             phase := { x.phase with rollback := none, refetched := false } })).modCore c
    (fun y => if y.running = some k then { y with freeze := y.freeze.filter (fun f => !(f == .rollback)) } else y)

/-- PHASE_ROLLBACK: once the copies of the phase have joined, the phase of a context, or of every member of its gang, is rolled
back and its inputs are fetched again; once those have joined, the rollback is counted and logged and the unit resumes. A rollback that
cannot be made escalates the unit (R221, R327). -/
def execPhaseRollback (c k : Nat) (s : State) : Out :=
  let x := s.ctxAt c k
  match x.phase.rollback with
  | none => idle s
  | some e =>
    let ms := s.unitCtxs c k
    if ms.any (fun m => s.rollbackBad m.1 m.2) then
      .next (ms.foldl (fun (t : State) (m : Nat × Nat) => t.rollbackFails m.1 m.2) s)
    else if ms.any (fun m => !(s.ctxAt m.1 m.2).phase.refetched) then
      (if ms.any (fun m => s.rollbackWaits m.1 m.2 false) then idle s
       else
         let s := ms.foldl (fun (t : State) (m : Nat × Nat) =>
           if (t.ctxAt m.1 m.2).phase.refetched then t else t.rollOne m.1 m.2) s
         .next (s.rollGang c k))
    else if ms.any (fun m => s.rollbackWaits m.1 m.2 true) then idle s
    else
      .next (ms.foldl (fun (t : State) (m : Nat × Nat) => t.resumeOne m.1 m.2) (s.logFault c k e x.addr))

end Sys2Proof.Machine
end

