-- ==== Sys2Proof/Machine/Launch.lean ====
section
/-!
DEFINITION. The acceptance of launches (R329 to R341): LNCH, queue writes, the reading and checking of a record with its timetable, headers
and resource items, placement (R339), reservation (R336) and LAUNCH_ACCEPTANCE; and the journal (R407, R408).
-/
namespace Sys2Proof.Machine

/-- Bytes 8 to 63 of an entry (R407). -/
def JEntry.body (e : JEntry) : List Byte :=
  leBytes e.ty 1 ++ leBytes e.die 1 ++ leBytes e.core 2 ++ leBytes 0 4 ++ leBytes e.cycle 8 ++ leBytes e.payload 40

/-- JOURNAL_WRITE: the oldest entry not yet written goes to the ring: first SEQ all ones and its bytes, then its SEQ (R408). -/
def execJournalWrite (s : State) : Out :=
  let j := s.journal
  match j.pend with
  | [] => idle s
  | e :: r =>
    let pa := j.jbase + 64 * (e.seq % 1048576)
    if j.half then
      .next { s with mem := s.mem.writeBytes pa (leBytes e.seq 8), journal := { j with pend := r, half := false } }
    else
      .next { s with mem := s.mem.writeBytes pa (List.replicate 8 (255 : Byte) ++ e.body), journal := { j with half := true } }

/-- Host core `h` names a HOST party of this package in HSEL (R401). -/
def State.hostOk (s : State) (h : Nat) : Bool :=
  let v := (Tab.get {} s.hosts h).hsel.toNat
  decide (h < 32) && s.mgmt.released && fld v 20 4 == 2 && fld v 24 10 == s.pkgid

/-- Host core `h` is privileged (R401). -/
def State.hostPriv (s : State) (h : Nat) : Bool := s.hostOk h && (Tab.get {} s.hosts h).hsel.getLsbD 63

/-- LNCH (R341): the checks of a bypassing 64-byte load; the answer lands as a register load with stated arrival 0. -/
def execLnch (w : RForm) (s : State) : Out :=
  runSlot w.g
    (fun s => do
      let s ← require (!s.inService) .illegal s
      let s ← phaseNone s
      let s ← notBroadcast s
      let s ← checkAccess .bypass (s.sreg w.a).toNat 64 64 s
      landRoom 1 s)
    (fun s => match readRegs [w.a.toNat] s with
      | .error e => .error e
      | .ok s =>
        let a := (s.sreg w.a).toNat
        .ok ((s.awaitLanding 0 [.s w.d.toNat 0]).send
          (.launch a (ranges (s.piecesOf .bypass a 64)) s.data.bind.asn s.data.bind.party none))) s

/-- A walk of the tables from a root, as Thyme makes it (R122, R123). -/
def State.walkFrom (s : State) : Nat → Nat → Nat → Bool → Nat → Option TlbEntry
  | 0, _, _, _, _ => none
  | f + 1, level, table, group, va =>
    let idx := if group then fld va 12 9 / 16 * 16 else fld va (39 - 9 * level) 9
    match walkStep level group (pteOf (leNat (s.mem.readBytes (table + 8 * idx) 8))) with
    | .bad => none
    | .group => s.walkFrom f level table true va
    | .descend t => if s.targetOf (s.key t) = .hbm (fld t 37 2) then s.walkFrom f (level + 1) (s.key t) false va else none
    | .leaf bytes p =>
      if s.targetOf (s.key p.pa) = .nothing then none
      else some { asn := 0, va := va / bytes * bytes, bytes := bytes, pa := p.pa, w := p.w, x := p.x, nc := p.nc }

/-- The root of an address space (R123). -/
def State.rootOf (s : State) (asn : BitVec 16) : Nat := Tab.get 0 s.thyme.roots asn.toNat

/-- The translations that Thyme has created onto `n` bytes from `a` are rewritten to name the same place from `b`, or removed (R180, R361); what the
cores have kept of translations onto those bytes goes. -/
def State.mapMoved (s : State) (a n : Nat) (b : Option Nat) : State :=
  let on (t : State) (pa : Nat) : Bool := decide (a ≤ t.key pa) && decide (t.key pa < a + n)
  let s := s.thyme.maps.foldl (fun (t : State) p =>
    let e := leNat (t.mem.readBytes p 8)
    if e.testBit 0 && on t (pteOf e).pa then t.putBytes p (leBytes (match b with | some b => e + b - a | none => e - 1) 8) else t) s
  { s with cores := s.cores.map (fun y => (y.1, { y.2 with tlb := y.2.tlb.filter (fun e => !on s e.pa) })),
           thyme := { s.thyme with maps := if b.isSome then s.thyme.maps else s.thyme.maps.filter (fun p => (leNat (s.mem.readBytes p 8)).testBit 0) } }

/-- A virtual range of an address space as physical ranges, page by page. -/
def State.thymeVA (s : State) (asn : BitVec 16) : Nat → Nat → Nat → Option (List (Nat × Nat))
  | 0, _, n => if n = 0 then some [] else none
  | f + 1, va, n =>
    if n = 0 then some []
    else match s.walkFrom 6 0 (s.rootOf asn) false va with
      | none => none
      | some e =>
        let len := min n (4096 - va % 4096)
        (s.thymeVA asn f (va + len) (n - len)).map (fun r => (s.key (e.pa + (va - e.va)), len) :: r)

/-- A range that a launch names, as Thyme reaches it: in the submitter's address space, or in the local window of a task that
submits it (R331, R341). -/
def State.thymeRange (s : State) (asn : BitVec 16) (p : Word) (a n : Nat) : Option (List (Nat × Nat)) :=
  if a < 0x200000 then
    match s.coreOfParty p with
    | some (c, k) => let x := s.ctxAt c k; if a + n ≤ x.bind.spanBytes then some [(spanPA c x a, n)] else none
    | none => none
  else if a + n > 0x1000000000000 then none
  else s.thymeVA asn (n / 4096 + 2) a n

/-- The bits that lie there. -/
def State.thymeRead (s : State) (asn : BitVec 16) (p : Word) (a n : Nat) : Option Nat :=
  (s.thymeRange asn p a n).map (fun rs => leNat (rs.flatMap (fun r => s.mem.readBytes r.1 r.2)))

/-- LQ_PUSH: a host core writes a record's address to LQPUSH (R329): the record is copied and enqueued, or OVF is set. A record that
cannot be read is dropped (DEDUCED). -/
def execLqPush (h die q addr : Nat) (s : State) : Out :=
  let k := 64 * (die % 4) + q % 64
  if !s.hostPriv h || addr % 64 != 0 then idle s
  else
    let l := s.lq k
    if !l.takes then .next (s.modLq k (fun l => { l with ovf := true }))
    else
      let p := s.partyOf 2 l.asn.toNat
      match s.thymeRead l.asn p addr 64 with
      | some b => .next (s.enqueue { bits := b, party := p, q := k, addr := addr })
      | none => idle s

/-- LQ_CONTROL_WRITE: a write to LQPUSH whose low six bits are not all zero clears OVF where bit 7 is set (R329). -/
def execLqControlWrite (h die q : Nat) (v : Word) (s : State) : Out :=
  if s.hostPriv h && v.toNat % 64 != 0 && v.getLsbD 7 then
    .next (s.modLq (64 * (die % 4) + q % 64) (fun l => { l with ovf := false }))
  else idle s

/-- The fields of a launch record (R331). -/
structure Rec where
  tt : Nat
  n : Nat
  waitr : Bool
  pre : Bool
  irqen : Bool
  period : Nat
  frames : Nat
  inc : Nat
  coal : Nat
  comp : Nat
  stat : Nat
  res : Nat
  nres : Nat
  irqt : Nat
  deriving DecidableEq, Repr

def recOf (b : Nat) : Rec :=
  { tt := fld b 0 64, n := fld b 64 12 + 1, waitr := b.testBit 84, pre := b.testBit 85, irqen := b.testBit 86,
    period := fld b 96 32, frames := fld b 128 32 + 1, inc := fld b 160 16, coal := fld b 176 16, comp := fld b 192 64,
    stat := fld b 256 64, res := fld b 320 64, nres := fld b 384 12, irqt := fld b 396 16 }

/-- The fields of a timetable entry (R332). -/
structure TEntry where
  hdr : Nat
  psc : Nat
  pdie : Nat
  pquad : Nat
  pcore : Nat
  pos : Nat
  tight : Bool
  cfix : Bool
  ctx : Nat
  qgrp : Nat
  rel : Nat
  dl : Nat
  size : Nat
  nopre : Bool
  args : Nat
  zeros : Bool
  deriving DecidableEq, Repr

def teOf (b : Nat) : TEntry :=
  { hdr := fld b 0 64, psc := fld b 64 3, pdie := fld b 67 2, pquad := fld b 69 5, pcore := fld b 74 7, pos := fld b 81 4,
    tight := b.testBit 88, cfix := b.testBit 89, ctx := fld b 90 2, qgrp := fld b 92 4, rel := fld b 96 32, dl := fld b 128 32,
    size := fld b 160 2 + 1, nopre := b.testBit 162, args := fld b 192 64, zeros := fld b 85 3 == 0 && fld b 163 29 == 0 }

/-- The fields of a task header (R334). -/
structure Header where
  entry : Nat
  span : Nat
  priv : Nat
  stopmax : Nat
  array : Bool
  latch : Bool
  phaseb : Bool
  tkadm : Bool
  size : Nat
  lockq : Nat
  nnot : Nat
  snap : Nat
  out0 : Nat
  out0n : Nat
  queues : List Nat
  recv : List Nat
  hsig : Nat
  zeros : Bool
  deriving DecidableEq, Repr

def headerOf (b : Nat) : Header :=
  { entry := fld b 0 64, span := fld b 64 32, priv := fld b 96 16, stopmax := fld b 112 9, array := b.testBit 121,
    latch := b.testBit 122, phaseb := b.testBit 123, tkadm := b.testBit 124, size := fld b 125 2 + 1, lockq := fld b 128 16,
    nnot := fld b 144 2, snap := fld b 160 12, out0 := fld b 172 12, out0n := fld b 184 12,
    queues := (List.range 16).map (fun n => fld b (256 + 32 * n) 32), recv := (List.range 4).map (fun n => fld b (768 + 64 * n) 64),
    hsig := fld b 2016 32,
    zeros := !b.testBit 127 && fld b 146 14 == 0 && fld b 196 60 == 0 && fld b 1024 992 == 0 }

/-- A header passes R336. -/
def Header.ok (h : Header) (bits : Nat) : Bool :=
  h.zeros && decide (h.span ≤ 0x178000) && h.priv % 4 == 0 && decide (h.priv ≤ 2048) && decide (1 ≤ h.stopmax) &&
  decide (h.stopmax ≤ 256) && h.queues.all (fun v => v == 0 || cfgOk h.span v) &&
  (!h.phaseb || (decide (1 ≤ h.out0n) && decide (h.out0n ≤ 3072) && decide (512 * (h.snap + 74) ≤ h.span) &&
    decide (512 * (h.out0 + h.out0n) ≤ h.span))) &&
  h.hsig == crc32c (leBytes bits 252)

/-- A timetable entry passes R332 and R336 in a record of a period. -/
def TEntry.ok (t : TEntry) (period : Nat) : Bool :=
  t.zeros && t.hdr % 256 == 0 && decide (1 ≤ t.psc) && decide (t.psc ≤ 4) && decide (t.rel < t.dl) &&
  (period == 0 || (decide (t.dl ≤ period) && t.dl != 0xFFFFFFFF)) && (decide (2 < t.psc) || decide (t.pquad < 24)) && (t.psc != 1 || decide (t.pcore < 96))

/-- The fields of a resource item (R333). -/
structure Item where
  desig : Nat
  ent : Nat
  kind : Nat
  atom : Bool
  zero : Bool
  keep : Bool
  expect : Nat
  zeros : Bool
  deriving DecidableEq, Repr

def itemOf (b : Nat) : Item :=
  { desig := fld b 0 64, ent := fld b 64 12, kind := fld b 76 4, atom := b.testBit 80, zero := b.testBit 81, keep := b.testBit 82,
    expect := fld b 96 12, zeros := fld b 83 13 == 0 && fld b 108 20 == 0 }

/-- The physical base of a region that a launch names (R159, R336): within one page with W = 1. -/
def State.itemBase (s : State) (asn : BitVec 16) (d : Nat) : Option Nat :=
  let a := d / 4096 * 4096
  if !desOk d || a < 0x200000 then none
  else match s.walkFrom 6 0 (s.rootOf asn) false a with
    | some e => if e.w ∧ a + regionBytes (desSz d) ≤ e.va + e.bytes then some (s.key (e.pa + (a - e.va))) else none
    | none => none

/-- A resource item passes R336 in a launch of `n` entries. -/
def State.itemOk (s : State) (asn : BitVec 16) (n : Nat) (i : Item) : Bool :=
  i.zeros && (match i.kind with
    | 1 => decide (i.ent < n) && (s.itemBase asn i.desig).isSome
    | 2 => decide (i.ent < n) && (s.itemBase asn i.desig).isSome
    | 3 => decide (i.ent < n) && (s.itemBase asn i.desig).isSome
    | 4 => barOk (BitVec.ofNat 64 i.desig) && decide (1 ≤ i.expect)
    | _ => false)

/-- The timetable's entries with their headers and arguments, read one by one (R336). -/
def State.readEntries (s : State) (asn : BitVec 16) (p : Word) (period : Nat) : List Nat → Option (List Entry)
  | [] => some []
  | a :: r =>
    match s.thymeRead asn p a 32 with
    | none => none
    | some b =>
      let t := teOf b
      if !t.ok period then none
      else match s.thymeRead asn p t.hdr 256, (if t.args = 0 then some 0 else s.thymeRead asn p t.args 240) with
        | some h, some g =>
          if (headerOf h).ok h && (headerOf h).size == t.size then
            (s.readEntries asn p period r).map (fun l => { bits := b, hdr := h, args := g } :: l)
          else none
        | _, _ => none

/-- The resource items (R333). -/
def State.readItems (s : State) (asn : BitVec 16) (p : Word) (n : Nat) : List Nat → Option (List Nat)
  | [] => some []
  | a :: r =>
    match s.thymeRead asn p a 16 with
    | none => none
    | some b => if s.itemOk asn n (itemOf b) then (s.readItems asn p n r).map (fun l => b :: l) else none

/-- The first check of R336: the record's entries and items, or none where it is MALFORMED. -/
def State.readRecord (s : State) (r : LRec) : Option (List Entry × List Nat) :=
  let f := recOf r.bits
  let asn := (s.lq r.q).asn
  if !recordOk r.bits then none
  else match s.readEntries asn r.party f.period ((List.range f.n).map (fun i => f.tt + 32 * i)),
      s.readItems asn r.party f.n ((List.range (if f.res = 0 then 0 else f.nres)).map (fun i => f.res + 16 * i)) with
    | some es, some is => some (es, is)
    | _, _ => none

/-- The second check of R336: the submitter owns every LEND and GRANT region, unshared and not engaged. -/
def State.itemRights (s : State) (asn : BitVec 16) (p : Word) (i : Item) : Bool :=
  if i.kind = 1 ∨ i.kind = 2 then
    match s.itemBase asn i.desig with
    | some b => (match s.own.exact b (desSz i.desig) with
      | some r => heldBy p (some r) && decide (r.shares = 0) && !s.own.busy p b
      | none => false)
    | none => false
  else true

/-- A task's place and what its header reserves there (R336). -/
structure Held where
  place : Place
  hdr : Header
  deriving DecidableEq, Repr

/-- Every place that accepted launches hold, or that is kept for a launch which pre-empts (R336, R337). -/
def State.held (s : State) : List Held :=
  s.thyme.launches.flatMap (fun l => l.2.entries.flatMap (fun e => e.places.map (fun p => ⟨p, headerOf e.hdr⟩))) ++
    s.thyme.queues.flatMap (fun q => q.2.kept.map (fun p => ⟨p.1, headerOf p.2⟩))

/-- The contexts of a place. -/
def Place.ctxs (p : Place) : List Nat := p.ctx :: p.nots

/-- The span of a place as physical memory. -/
def Place.base (p : Place) : Nat := scratchPA p.core + p.span

/-- A span rounded up to 4 KiB, and the alignment that its regions need (R161). -/
def spanRound (n : Nat) : Nat := (n + 4095) / 4096 * 4096
def spanAlign (n : Nat) : Nat := if spanRound n = 0 then 4096 else 2 ^ Nat.log2 (spanRound n)

/-- The lowest offset, a multiple of `step`, at which `n` more units fit below `top` among intervals (offset, length). -/
def firstFit (step n top : Nat) (used : List (Nat × Nat)) : Option Nat :=
  (List.range (top / step + 1)).findSome? (fun i =>
    let o := i * step
    if o + n ≤ top ∧ !used.any (fun u => decide (u.1 < o + n) && decide (o < u.1 + u.2)) then some o else none)

/-- The splice credit of a header (R336). -/
def Header.credit (h : Header) : Nat :=
  (h.queues.filter (fun v => v != 0)).foldl (fun n v => n + (fld v 24 8 + 1) * (fld v 12 4 + 1)) 0

/-- The contexts of core `c` that are taken: those of the places held, and any other that is not FREE. -/
def State.takenCtxs (s : State) (hs : List Held) (c : Nat) : List Nat :=
  let ctxs (l : List Held) : List Nat := (l.filter (fun h => h.place.core == c)).flatMap (fun h => h.place.ctxs)
  ctxs hs ++ ((s.coreAt c).ctxs.filter (fun e => e.2.status != .free && !(ctxs s.held).contains e.1)).map (fun e => e.1)

/-- The place that a task would take on core `c` among reservations, where everything it needs is free there (R336, R339). -/
def State.fitOn (s : State) (hs : List Held) (t : TEntry) (h : Header) (c : Nat) : Option Place :=
  let here := hs.filter (fun e => e.place.core == c)
  let taken := s.takenCtxs hs c
  let free := (List.range 4).filter (fun k => !taken.contains k)
  match (if t.cfix then free.filter (fun k => k == t.ctx) else free) with
  | [] => none
  | k :: _ =>
    let nots := (free.filter (fun j => j != k)).take h.nnot
    let locks := (hs.filter (fun e => e.place.core / 96 == c / 96)).foldl (fun n e => n + e.hdr.lockq) h.lockq
    let credit := here.foldl (fun n e => n + e.hdr.credit) h.credit
    if nots.length < h.nnot ∨ (h.array ∧ here.any (fun e => e.hdr.array)) ∨ (h.latch ∧ here.any (fun e => e.hdr.latch)) ∨
        1024 < credit ∨ 65536 < locks then none
    else
      match firstFit (spanAlign h.span) (spanRound h.span) 0x178000 (here.map (fun e => (e.place.span, spanRound e.hdr.span))),
          firstFit 4 h.priv 2048 (here.map (fun e => (e.place.priv, e.hdr.priv))) with
      | some a, some b => some { core := c, ctx := k, nots := nots, span := a, priv := b }
      | _, _ => none

/-- A core lies within an entry's placement fields, of which PQUAD applies to PSC 1 too (assumption 19), and may take a new placement (R332, R339,
R357, R13); a core whose hub link is down is beyond the reach of Thyme (R392). -/
def State.eligible (s : State) (t : TEntry) (c : Nat) : Bool :=
  let r := s.sageOf c
  (t.psc == 4 || c / 96 == t.pdie) && (decide (2 < t.psc) || c % 96 / 4 == t.pquad) && (t.psc != 1 || c % 96 == t.pcore) &&
    (t.pos == 0 || t.pos.testBit (c % 4)) && decide (r.st ≤ 1) && (!t.tight || r.st == 0) && !(s.coreAt c).out &&
    s.linkUp (4 + c / 96)

/-- The lifetime wear by which cores compare, in 1/1024 WU (R339). -/
def State.wear (s : State) (c : Nat) : Nat := (s.sageOf c).wufine / 3600000

/-- The least-worn place, a tie going to the lowest core. -/
def State.least (s : State) (ps : List Place) : Option Place :=
  ps.foldl (fun (b : Option Place) p => match b with
    | none => some p
    | some q => if s.wear p.core < s.wear q.core then some p else b) none

/-- A task to be placed: its entry index, entry and header. -/
structure Want where
  ix : Nat
  te : TEntry
  hdr : Header
  deriving DecidableEq, Repr

/-- The place of a single entry over the whole package (R339). -/
def State.placeOne (s : State) (hs : List Held) (w : Want) : Option Place :=
  s.least ((List.range 384).filterMap (fun c => if s.eligible w.te c then s.fitOn hs w.te w.hdr c else none))

/-- The members of one entry placed in one quad, `m` still to place, on cores not yet used by it (R339). -/
def State.placeMembers (s : State) (quad : Nat) (w : Want) : Nat → List Held → List Nat → Option (List Place)
  | 0, _, _ => some []
  | m + 1, hs, used =>
    match s.least ((List.range 4).filterMap (fun p =>
      let c := 4 * quad + p
      if used.contains c || !s.eligible w.te c then none else s.fitOn hs w.te w.hdr c)) with
    | none => none
    | some p => (s.placeMembers quad w m (⟨p, w.hdr⟩ :: hs) (p.core :: used)).map (fun l => p :: l)

/-- Places by rising core number: a gang's members take the chosen positions in ascending order (R339). -/
def sortPlaces : List Place → List Place
  | [] => []
  | p :: r => insertPlace p (sortPlaces r)
where insertPlace (p : Place) : List Place → List Place
  | [] => [p]
  | q :: r => if p.core ≤ q.core then p :: q :: r else q :: insertPlace p r

/-- The entries of a group placed in one quad, in timetable and member order (R339). -/
def State.placeIn (s : State) (quad : Nat) : List Want → List Held → Option (List (Nat × List Place))
  | [], _ => some []
  | w :: r, hs =>
    match s.placeMembers quad w w.te.size hs [] with
    | none => none
    | some ps =>
      let ps := if w.te.size = 1 then ps else sortPlaces ps
      (s.placeIn quad r (ps.map (fun p => ⟨p, w.hdr⟩) ++ hs)).map (fun l => (w.ix, ps) :: l)

/-- The wear of the most-worn chosen core (R339). -/
def State.worst (s : State) (l : List (Nat × List Place)) : Nat :=
  (l.flatMap (fun e => e.2)).foldl (fun m p => max m (s.wear p.core)) 0

/-- A group placed in the quad whose most-worn chosen core is least worn, a tie going to the lowest quad (R339). -/
def State.placeGroup (s : State) (hs : List Held) (ws : List Want) : Option (List (Nat × List Place)) :=
  ((List.range 96).filterMap (fun q => s.placeIn q ws hs)).foldl (fun (b : Option (List (Nat × List Place))) l => match b with
    | none => some l
    | some k => if s.worst l < s.worst k then some l else b) none

/-- Entries placed in timetable order, the entries of a group together (R339). -/
def State.placeAll (s : State) : Nat → List Held → List Want → Option (List (Nat × List Place))
  | 0, _, _ => some []
  | _, _, [] => some []
  | f + 1, hs, w :: r =>
    let mates := if w.te.qgrp = 0 then [] else r.filter (fun v => v.te.qgrp == w.te.qgrp)
    let rest := if w.te.qgrp = 0 then r else r.filter (fun v => v.te.qgrp != w.te.qgrp)
    let got := if w.te.qgrp = 0 ∧ w.te.size = 1 then (s.placeOne hs w).map (fun p => [(w.ix, [p])]) else s.placeGroup hs (w :: mates)
    match got with
    | none => none
    | some l =>
      let new := l.flatMap (fun e => e.2.map (fun p => (⟨p, (((w :: mates).find? (fun v => v.ix == e.1)).getD w).hdr⟩ : Held)))
      (s.placeAll f (new ++ hs) rest).map (fun k => l ++ k)

/-- What the entries of a launch want. -/
def wantsOf (es : List Entry) : List Want :=
  (List.zip (List.range es.length) es).map (fun e => ⟨e.1, teOf e.2.bits, headerOf e.2.hdr⟩)

/-- The entries with their places. -/
def withPlaces (es : List Entry) (l : List (Nat × List Place)) : List Entry :=
  (List.zip (List.range es.length) es).map (fun e =>
    { e.2 with places := ((l.find? (fun p => p.1 == e.1)).map (fun p => p.2)).getD [] })

/-- The barrier slots that a BIND item names, one for each unit that holds a place (R306, R333). -/
def bindKeys (v : Nat) (es : List Entry) : List Nat :=
  ((es.flatMap (fun e => e.places.map (fun p => p.core))).map (fun c => barKey c (BitVec.ofNat 64 v))).eraseDups

/-- A LAUNCH index is free (R160): no live launch, token entry, chain or share record names it. -/
def State.launchFree (s : State) (i : Nat) : Bool :=
  let p := s.partyOf 3 i
  !s.own.live.contains p && !s.own.shares.any (fun e => e.2 == p) &&
    !s.own.regions.any (fun e => e.2.owner == p || e.2.dlaunch == p || e.2.chain.contains p)

/-- The first answer of `f` among `n` numbers from `i` on. -/
def findFrom (f : Nat → Option Nat) : Nat → Nat → Option Nat
  | 0, _ => none
  | n + 1, i => match f i with
    | some a => some a
    | none => findFrom f n (i + 1)

/-- The lowest free LAUNCH index (R160). -/
def State.launchIndex (s : State) : Option Nat := findFrom (fun i => if s.launchFree i then some i else none) 1048575 1

/-- Two regions meet. -/
def meets (a an b bn : Nat) : Bool := decide (a < b + bn) && decide (b < a + an)

/-- The least j with 2^j not below the number of parts (R317). -/
def partLog (n : Nat) : Nat := if n ≤ 1 then 0 else if n ≤ 2 then 1 else 2

/-- The designator of a receive item, without its mask (R317, R334). -/
def recvDes (v : Nat) : Nat := v / 512 * 512 + v % 32

/-- The other members that a receive item of member `m` names (R317). -/
def Entry.recvTo (e : Entry) (v m : Nat) : List Nat :=
  (List.range (teOf e.bits).size).filter (fun k => k != m && v.testBit (5 + k))

/-- The regions that member `m` lends at the start, as (offset, bytes) (R317). -/
def Entry.recvSpans (e : Entry) (m : Nat) : List (Nat × Nat) :=
  ((headerOf e.hdr).recv.filter (fun v => v != 0 && !(e.recvTo v m).isEmpty)).map (fun v =>
    (recvDes v / 4096 * 4096, regionBytes (desSz (recvDes v))))

/-- No two of some intervals meet. -/
def apart : List (Nat × Nat) → Bool
  | [] => true
  | a :: r => r.all (fun b => !meets a.1 a.2 b.1 b.2) && apart r

/-- A receive item can be lent by each member (R317): its region lies within one of the span's regions, and splits far enough. -/
def Entry.recvOk (e : Entry) (v : Nat) : Bool :=
  let n := spanRound (headerOf e.hdr).span
  let o := recvDes v / 4096 * 4096
  let b := regionBytes (desSz v)
  let within := (List.range 9).any (fun i =>
    let sz := 8 - i
    let at_ := n / 2 ^ (13 + sz) * 2 ^ (13 + sz)
    n.testBit (12 + sz) && decide (at_ ≤ o) && decide (o + b ≤ at_ + regionBytes sz))
  v == 0 || (List.range (teOf e.bits).size).all (fun m =>
    (e.recvTo v m).isEmpty || (desOk (recvDes v) && within && decide (partLog (e.recvTo v m).length ≤ desSz v)))

/-- An entry is that of a gang (R332). -/
def Entry.isGang (e : Entry) : Bool := decide (1 < (teOf e.bits).size)

/-- The regions that LEND and GRANT items name, with whether the item is a gang's (R333). -/
def State.lentBases (s : State) (asn : BitVec 16) (es : List Entry) (is : List Nat) : List (Nat × Bool) :=
  is.filterMap (fun b =>
    let i := itemOf b
    if i.kind = 1 ∨ i.kind = 2 then (s.itemBase asn i.desig).map (fun a => (a, ((es[i.ent]?).map Entry.isGang).getD false)) else none)

/-- Every lend that the launch's tasks will need can be made (R170, R317): chains have room for the LAUNCH party and the task, regions split
into their parts, no region that a gang is lent is lent twice, and no receive regions of a member meet. -/
def State.lendsFit (s : State) (asn : BitVec 16) (es : List Entry) (is : List Nat) : Bool :=
  let bs := s.lentBases asn es is
  bs.all (fun b => !b.2 || decide ((bs.filter (fun c => c.1 == b.1)).length ≤ 1)) &&
  es.all (fun e => !e.isGang || ((headerOf e.hdr).recv.all e.recvOk && (List.range (teOf e.bits).size).all (fun m => apart (e.recvSpans m)))) &&
  is.all (fun b =>
    let i := itemOf b
    if i.kind = 1 ∨ i.kind = 2 then
      (match s.itemBase asn i.desig with
       | some a => (match s.own.exact a (desSz i.desig) with | some r => decide (r.chain.length ≤ 2) | none => false)
       | none => false) &&
      (i.kind = 1 || (match es[i.ent]? with | some e => decide (partLog (teOf e.bits).size ≤ desSz i.desig) | none => false))
    else true)

/-- The regions of a scratchpad span: its binary decomposition, largest first, as (offset, size code) (R161). -/
def spanRegions (n : Nat) : List (Nat × Nat) :=
  let r := spanRound n
  ((List.range 9).foldl (fun (a : List (Nat × Nat) × Nat) i =>
    let sz := 8 - i
    if r.testBit (12 + sz) then (a.1 ++ [(a.2, sz)], a.2 + regionBytes sz) else a) ([], 0)).1

/-- The token entries that come to be over the spans of an entry's places when it starts (R161, R336). -/
def Entry.spanClaims (e : Entry) : List Nat :=
  e.places.flatMap (fun p => (spanRegions (headerOf e.hdr).span).map (fun r => p.base + r.1))

/-- The token entries that come to be when an entry first starts: over its spans, and for the further parts of its GRANT regions (R317, R336). -/
def State.claimsOf (s : State) (asn : BitVec 16) (is : List Nat) (ix : Nat) (e : Entry) : List Nat :=
  e.spanClaims ++ is.flatMap (fun b =>
    let i := itemOf b
    let j := partLog (teOf e.bits).size
    match (if i.kind = 2 ∧ i.ent = ix then s.itemBase asn i.desig else none) with
    | some a => (List.range (2 ^ j - 1)).map (fun k => a + (k + 1) * regionBytes (desSz i.desig - j))
    | none => [])

/-- Entries with their token entries reserved (R336). -/
def State.withClaims (s : State) (asn : BitVec 16) (is : List Nat) (es : List Entry) : List Entry :=
  (List.zip (List.range es.length) es).map (fun e => { e.2 with claims := s.claimsOf asn is e.1 e.2 })

/-- The regions that CREATE items name, as (base, bytes) (R333). -/
def State.created (s : State) (asn : BitVec 16) (is : List Nat) : List (Nat × Nat) :=
  is.filterMap (fun b =>
    let i := itemOf b
    if i.kind = 3 then (s.itemBase asn i.desig).map (fun a => (a, regionBytes (desSz i.desig))) else none)

/-- The tokens and barrier slots of R336 are free, for all items together. -/
def State.itemsFit (s : State) (asn : BitVec 16) (es : List Entry) (is : List Nat) : Bool :=
  let new := s.created asn is
  let keys := is.flatMap (fun b => if (itemOf b).kind = 4 then bindKeys (itemOf b).desig es else [])
  apart new && new.all (fun a => !s.own.regions.any (fun e => meets e.2.base e.2.bytes a.1 a.2)) &&
    s.entriesFit (new.map (fun a => a.1) ++ es.flatMap (fun e => e.claims)) &&
    keys.all (fun k => (s.bar k).launch == 0) && decide (keys.eraseDups.length = keys.length)

/-- The reservation of a launch, without some of the places now held: its entries with their places and the token entries that they will
need (R336). -/
def State.reserve (s : State) (asn : BitVec 16) (without : List (Nat × Nat)) (es : List Entry) (is : List Nat) : Option (List Entry) :=
  let hs := s.held.filter (fun h => !without.contains (h.place.core, h.place.ctx))
  match s.placeAll (es.length + 1) hs (wantsOf es), s.launchIndex with
  | some l, some _ =>
    let es := s.withClaims asn is (withPlaces es l)
    if s.itemsFit asn es is && s.lendsFit asn es is then some es else none
  | _, _ => none

/-- The running tasks that a launch of priority `p` may pre-empt, lowest priority first and latest accepted first, each as its places
(R337, R400). -/
def State.victims (s : State) (p : Nat) : List (List (Nat × Nat)) :=
  let ls := s.thyme.launches.filter (fun l => decide (p < l.2.prio) && decide (0 < (s.lq l.2.src.q).spsize))
  let rank (l : Nat × Launch) : Nat := l.2.prio * 2 ^ 64 + l.2.seq
  let order := ls.foldl (fun (o : List (Nat × Launch)) l => o.takeWhile (fun k => decide (rank l < rank k)) ++ [l] ++
    o.dropWhile (fun k => decide (rank l < rank k))) []
  order.flatMap (fun l => (l.2.entries.filter (fun e => e.st == .running && !(teOf e.bits).nopre)).map (fun e =>
    e.places.map (fun p => (p.core, p.ctx))))

/-- Victims left out where the launch fits without them, the last in their order first. -/
def State.fewer (s : State) (asn : BitVec 16) (es : List Entry) (is : List Nat) : List (List (Nat × Nat)) → List (List (Nat × Nat)) → List (List (Nat × Nat))
  | keep, [] => keep
  | keep, v :: r => if (s.reserve asn (keep ++ r).flatten es is).isSome then s.fewer asn es is keep r else s.fewer asn es is (keep ++ [v]) r

/-- The victims with which a launch fits, and its entries as they will be placed (R337): the shortest run in their order, less those that the
reservation does not need (DEDUCED, assumption 99). -/
def State.preempts (s : State) (asn : BitVec 16) (p : Nat) (es : List Entry) (is : List Nat) : Option (List (Nat × Nat) × List Entry) :=
  let vs := s.victims p
  (List.range vs.length).findSome? (fun i =>
    let all := vs.take (i + 1)
    if (s.reserve asn all.flatten es is).isSome then
      (let w := (s.fewer asn es is [] all.reverse).flatten
       (s.reserve asn w es is).map (fun es => (w, es)))
    else none)

/-- How Thyme judges the record at a queue's head (R336, R337). A gang's launch of which a lend would fail is refused at once (R317). -/
inductive Verdict where
  | malformed | noRights | refused | waits
  | preempt (ms : List (Nat × Nat)) (es : List Entry)
  | accept (es : List Entry) (is : List Nat)
  deriving DecidableEq, Repr

def State.judge (s : State) (r : LRec) : Verdict :=
  let f := recOf r.bits
  let l := s.lq r.q
  let s := s.modLq r.q (fun l => { l with kept := [] })
  match s.readRecord r with
  | none => .malformed
  | some (es, is) =>
    if !is.all (fun b => s.itemRights l.asn r.party (itemOf b)) then .noRights
    else if es.any Entry.isGang && !s.lendsFit l.asn es is then .refused
    else match s.reserve l.asn [] es is with
      | some es => .accept es is
      | none =>
        match (if f.pre then s.preempts l.asn l.prio es is else none) with
        | some (ms, es) => .preempt ms es
        | none => if f.waitr then .waits else .refused

/-- The queues in the order in which Thyme looks at them: by priority, and in rotation within one (R330). -/
def State.queueOrder (s : State) : List Nat :=
  (List.range 8).flatMap (fun p =>
    ((List.range 256).map (fun i => (Tab.get 0 s.thyme.rot p + i) % 256)).filter (fun q => (s.lq q).prio == p && !(s.lq q).recs.isEmpty))

/-- The record at the head of a queue is judged before that of queue `q`: it does not wait (R330). -/
def State.before (s : State) (q : Nat) : Bool :=
  ((s.queueOrder).takeWhile (fun k => k != q)).any (fun k => match (s.lq k).recs with
    | r :: _ => (match s.judge r with | .waits => false | .preempt .. => false | _ => true)
    | [] => false)

/-- The thread of an interrupt is told of some ends (R404): the notification word grows and its host core is interrupted. -/
def State.deliverIrq (t n : Nat) (s : State) : State :=
  let e := Tab.get 0 s.routes t
  if !e.testBit 5 then s
  else
    let a := fld e 6 52 * 64
    let v := (leNat (s.mem.readBytes a 8) + n) % 2 ^ 64
    let h := e % 32
    { s with mem := s.mem.writeBytes a (leBytes v 8),
             hosts := s.hosts.put h (let k := Tab.get {} s.hosts h; { k with irqs := k.irqs + 1 }) }

/-- An end aimed at a host thread (R343): it joins the open window, opens one, or is delivered at once. -/
def State.raiseEnd (r : Rec) (s : State) : State :=
  if !r.irqen then s
  else match Tab.find s.thyme.windows r.irqt with
    | some w => { s with thyme := { s.thyme with windows := s.thyme.windows.put r.irqt (w.1 + 1, w.2) } }
    | none =>
      if r.coal = 0 then s.deliverIrq r.irqt 1
      else { s with thyme := { s.thyme with windows := s.thyme.windows.put r.irqt (1, s.cycle + (r.coal * 6 + 4) / 5) } }

/-- COAL_WINDOW_EXPIRY: the window of a host thread closes and one interrupt carries its count (R343). -/
def execCoalWindowExpiry (t : Nat) (s : State) : Out :=
  match Tab.find s.thyme.windows t with
  | some w =>
    if s.cycle < w.2 then idle s
    else .next ((({ s with thyme := { s.thyme with windows := s.thyme.windows.drop t } } : State)).deliverIrq t w.1)
  | none => idle s

/-- Bytes stored where a launch names them. -/
def State.thymeWrite (s : State) (asn : BitVec 16) (p : Word) (a : Nat) (bs : List Byte) : State :=
  match s.thymeRange asn p a bs.length with
  | some rs => { s with mem := storeAll s.mem (cutAlong rs bs) }
  | none => s

/-- Steps 3 to 6 of an end (R342): the status block, the journal, COMP and the interrupt. -/
def State.endWith (src : LRec) (asn : BitVec 16) (status : Nat) (charges : List Nat) (s : State) : State :=
  let r := recOf src.bits
  let s := if r.stat = 0 then s else s.thymeWrite asn src.party r.stat (leBytes status 32)
  let s := s.journalAdd 2 0xFF 0xFFFF (status + charges.length * 2 ^ 256)
  let s := charges.foldl (fun (t : State) c => t.journalAdd 3 0xFF 0xFFFF c) s
  let s := if r.comp = 0 then s
    else match s.thymeRange asn src.party r.comp 8 with
      | some (q :: _) => (s.addAt q.1 r.inc false).dirtyAt q.1
      | _ => s
  s.raiseEnd r

/-- The status block (R342). -/
def statusBlock (status seq sticks pticks donecnt lost frames cycle : Nat) : Nat :=
  status + seq % 2 ^ 20 * 2 ^ 8 + sticks % 2 ^ 32 * 2 ^ 32 + pticks % 2 ^ 32 * 2 ^ 64 + donecnt % 2 ^ 32 * 2 ^ 96 +
    lost % 2 ^ 32 * 2 ^ 128 + frames % 2 ^ 32 * 2 ^ 160 + cycle % 2 ^ 64 * 2 ^ 192

/-- A launch ends at a failing acceptance (R342): its sequence number is that of its END entry. -/
def State.refuse (r : LRec) (st : Nat) (s : State) : State :=
  s.endWith r (s.lq r.q).asn (statusBlock st s.journal.jnext 0 0 0 0 0 s.cycle) []

/-- A free TASK index for `n` consecutive parties, at an open place among the free ones (R160; assumption 11). -/
def State.taskIndex (s : State) (n : Nat) : Nat :=
  let start := Config.freeNat s.fresh 1
  (findFrom (fun i =>
    let b := (start + i) % 1048576
    if b + n ≤ 1048576 ∧ (List.range n).all (fun j => let p := s.partyOf 1 (b + j)
        !s.own.live.contains p && !s.own.shares.any (fun e => e.2 == p) &&
          !s.own.regions.any (fun e => e.2.owner == p || e.2.chain.contains p)) then some b else none) 1048576 0).getD 0

/-- The TASK parties of an entry's places, consecutive and live (R160, R316); no earlier death of the same word stands against them. -/
def State.nameTasks (s : State) (e : Entry) : State × Entry :=
  let b := s.taskIndex e.places.length
  let ps := (List.zip (List.range e.places.length) e.places).map (fun p => { p.2 with party := s.partyOf 1 (b + p.1) })
  ({ s with fresh := s.fresh + 1, own := { s.own with
      live := s.own.live ++ ps.map (fun p => p.party),
      dead := s.own.dead.filter (fun d => !(ps.any (fun p => p.party == d.party))) } }, { e with places := ps })

def State.nameAll (s : State) : List Entry → State × List Entry
  | [] => (s, [])
  | e :: r =>
    let a := s.nameTasks e
    let b := a.1.nameAll r
    (b.1, a.2 :: b.2)

/-- What acceptance does with one resource item (R333, R337): a lend to the LAUNCH party, once where several items name the region, a
creation, the binding of slots. -/
def State.takeItem (s : State) (asn : BitVec 16) (launch : Word) (es : List Entry) (b : Nat) : State :=
  let i := itemOf b
  match i.kind with
  | 4 => (bindKeys i.desig es).foldl (fun (t : State) k => t.setBar k { expect := i.expect, launch := launch }) s
  | 3 => (match s.itemBase asn i.desig with
    | some a =>
      let s := if i.zero then s.zeroRange a (regionBytes (desSz i.desig)) else s
      s.putRegion { base := a, sz := desSz i.desig, owner := launch, atomic := i.atom }
    | none => s)
  | _ => (match s.itemBase asn i.desig with
    | some a => (match s.own.exact a (desSz i.desig) with
      | some r =>
        if r.owner = launch then s else
        let s := s.cores.foldl (fun (t : State) e => t.flushRegion e.1 a (regionBytes (desSz i.desig))) s
        s.putRegion { r with owner := launch, chain := r.owner :: r.chain, dirty := false }
      | none => s)
    | none => s)

/-- An accepted launch (R337): its number, its LAUNCH party, its journal entry, its lends and creations. -/
def State.accept (s : State) (r : LRec) (es : List Entry) (is : List Nat) : State :=
  let l := s.lq r.q
  let i := s.launchIndex.getD 0
  let p := s.partyOf 3 i
  let seq := s.journal.jnext
  let s := s.journalAdd 1 (r.q / 64) 0xFFFF (openPayload 1 [r.addr, r.q, r.party.toNat, i])
  let s : State := { s with own := { s.own with live := s.own.live ++ [p] } }
  let n := s.nameAll es
  let s := is.foldl (fun (t : State) b => t.takeItem l.asn p n.2 b) n.1
  let a : Launch := { src := r, prio := l.prio, asn := l.asn, seq := seq,
                      party := p, entries := n.2, items := is }
  { s with thyme := { s.thyme with launches := s.thyme.launches.put seq a } }

/-- The head record of a queue leaves it, and the rotation passes on (R330). -/
def State.dequeue (s : State) (q : Nat) : State :=
  let s := s.modLq q (fun l => { l with recs := l.recs.drop 1, kept := [] })
  { s with thyme := { s.thyme with rot := s.thyme.rot.put (s.lq q).prio ((q + 1) % 256) } }

/-- LAUNCH_ACCEPTANCE: Thyme judges the record at the head of a queue, in the order of R330, and accepts or refuses it (R336, R337). With
PRE it asks for the tasks whose room it needs, keeps that room, and judges again once they are saved. -/
def execLaunchAcceptance (die q : Nat) (s : State) : Out :=
  let k := 64 * (die % 4) + q % 64
  match (s.lq k).recs with
  | [] => idle s
  | r :: _ =>
    if s.thyme.update || s.before k then idle s
    else match s.judge r with
      | .waits => .next (if (s.lq k).kept.isEmpty then s else s.modLq k (fun l => { l with kept := [] }))
      | .malformed => .next ((s.dequeue k).refuse r 4)
      | .noRights => .next ((s.dequeue k).refuse r 5)
      | .refused => .next ((s.dequeue k).refuse r 1)
      | .accept es is => .next ((s.dequeue k).accept r es is)
      | .preempt ms es =>
        let keep := es.flatMap (fun e => e.places.map (fun p => (p, e.hdr)))
        .next (ms.foldl (fun (t : State) (m : Nat × Nat) =>
          match execPreemptionRequest m.1 m.2 t with
          | .next u => u
          | _ => t) (s.modLq k (fun l => { l with kept := keep })))

end Sys2Proof.Machine
end

