-- ==== Sys2Proof/Machine/Task.lean ====
section
/-!
DEFINITION. Tasks from their start to their end (R91, R161, R179, R265, R266, R283, R291, R304, R316, R317, R328, R333, R334, R338,
R342, R344, R346): DISPATCH, GANG_START, PACKAGE_TICK, DONE, DONE_FINISH, LAUNCH_END, and the loss of tasks.
-/
namespace Sys2Proof.Machine

/-- The launch with number `lk`, and an entry of it. -/
def State.launchAt (s : State) (lk : Nat) : Option Launch := Tab.find s.thyme.launches lk
def State.entryAt (s : State) (lk ix : Nat) : Option (Launch × Entry) :=
  match s.launchAt lk with
  | some l => (l.entries[ix]?).map (fun e => (l, e))
  | none => none

def State.setLaunch (s : State) (lk : Nat) (l : Launch) : State :=
  { s with thyme := { s.thyme with launches := s.thyme.launches.put lk l } }

def State.setEntry (s : State) (lk ix : Nat) (e : Entry) : State :=
  match s.launchAt lk with
  | some l => s.setLaunch lk { l with entries := l.entries.set ix e }
  | none => s

/-- The queues that a header declares: local and empty (R77, R334). -/
def Header.tasks (h : Header) : Tab QDesc :=
  (List.zip (List.range 16) h.queues).foldl (fun (t : Tab QDesc) (e : Nat × Nat) =>
    if e.2 = 0 then t else t.put e.1 (({} : QDesc).configured e.2)) []

/-- S1 to S30 from the argument block (R332). -/
def argRegs (args : Nat) : Tab Word :=
  (List.range 30).foldl (fun (t : Tab Word) i => t.put (i + 1) (BitVec.ofNat 64 (fld args (64 * i) 64))) []

/-- What Thyme binds to the contexts of a task (R160, R334). -/
def State.bindOf (s : State) (l : Launch) (lk ix : Nat) (e : Entry) (p : Place) (m : Nat) : Bind :=
  let h := headerOf e.hdr
  { party := p.party, launch := l.party, entry := h.entry, asn := l.asn, root := s.rootOf l.asn, spanBase := p.span,
    spanBytes := h.span, privBase := p.priv, privBytes := h.priv, stopmax := h.stopmax, array := h.array, latchUse := h.latch,
    phaseBound := h.phaseb, tkadm := h.tkadm, lockq := h.lockq, prio := l.prio, snap := 512 * h.snap, out0 := 512 * h.out0,
    out0n := h.out0n, notify := p.nots, gang := if 1 < e.places.length then some (4096 * lk + ix) else none, member := m,
    share := Tab.get 0 (s.dieAt (l.src.q / 64)).qcls (l.src.q % 64), lkey := lk, entryIx := ix, nopre := (teOf e.bits).nopre }

/-- A context as a fresh task finds it (R334); the wear counts of the context number go on. -/
def Ctx.fresh (x : Ctx) (b : Bind) (h : Header) (args : Nat) : Ctx :=
  { act := x.act, charge := x.charge, status := .ready, bind := b, pc := BitVec.ofNat 64 h.entry, regs := { s := argRegs args },
    q := h.tasks, phase := if h.phaseb then { frame := 1, next := some (b.out0, b.out0n) } else {} }

/-- A notify context before its first handler (R266). -/
def Ctx.freshNotify (x : Ctx) (b : Bind) : Ctx :=
  { act := x.act, charge := x.charge, status := .dormant,
    bind := { b with isNotify := true, gang := none, phaseBound := false, notify := [] } }

/-- Some core's access to a range of physical memory has not performed, so that no invalidation of it is acknowledged yet (R164). -/
def State.touching (s : State) (base n : Nat) : Bool := s.cores.any (fun e => s.oldAccess s.seq e.1 base n)

/-- The tokens over a range of physical memory are destroyed, and the lines of their regions leave every core (R164, R176, R179, R188); those that a
launch has still to report as lost stay where `keep` says so. -/
def State.destroyRange (s : State) (base n : Nat) (keep : Bool := false) : State :=
  let hit := s.own.regions.filter (fun e => meets e.2.base e.2.bytes base n && !(keep && e.2.lost))
  let s := hit.foldl (fun (t : State) (e : Nat × Region) =>
    t.cores.foldl (fun (u : State) (y : Nat × Core) => u.flushRegion y.1 e.2.base e.2.bytes) t) s
  let bs := hit.map (fun e => e.1)
  let rs := s.own.regions.filter (fun e => !bs.contains e.1)
  let hs := s.own.shares.filter (fun e => !bs.contains e.1)
  let s : State := { s with own := { s.own with regions := rs, shares := hs } }
  s.clearReports bs

/-- A covering region split down to the region that a designator names (R172, R317). -/
def State.carve (s : State) (base sz : Nat) : Nat → State
  | 0 => s
  | f + 1 => match s.own.regionAt base with
    | some r => if sz < r.sz then (s.tokenApply { op := .split, base := r.base, sz := r.sz, self := r.owner }).carve base sz f else s
    | none => s

/-- The regions within a range that a party holds unshared are lent to another (R170, R333). -/
def State.lendRange (s : State) (base n : Nat) (p q : Word) : State :=
  (s.own.regions.filter (fun e => decide (base ≤ e.2.base) && decide (e.2.base + e.2.bytes ≤ base + n) && e.2.owner == p &&
      e.2.st == .held && decide (e.2.shares = 0))).foldl (fun (t : State) (e : Nat × Region) =>
    t.tokenApply { op := .lend, base := e.2.base, sz := e.2.sz, self := p, target := q }) s

/-- A region split into 2^j parts, part i lent by its holder to the i-th of some parties (R317). -/
def State.lendParts (s : State) (base sz j : Nat) (p : Word) (qs : List Word) : State :=
  let s := (List.range (2 ^ j)).foldl (fun (t : State) i => t.carve (base + i * regionBytes (sz - j)) (sz - j) 20) s
  (List.zip (List.range qs.length) qs).foldl (fun (t : State) (e : Nat × Word) =>
    t.lendRange (base + e.1 * regionBytes (sz - j)) (regionBytes (sz - j)) p e.2) s

/-- The receive regions of each gang member lent to the others (R317). -/
def State.lendReceives (s : State) (e : Entry) : State :=
  let ms := List.zip (List.range e.places.length) e.places
  ms.foldl (fun (t : State) (m : Nat × Place) =>
    (headerOf e.hdr).recv.foldl (fun (t : State) v =>
      let ps := (e.recvTo v m.1).filterMap (fun k => (e.places[k]?).map (fun p => p.party))
      if v = 0 ∨ ps.isEmpty then t
      else t.lendParts (m.2.base + recvDes v / 4096 * 4096) (desSz v) (partLog ps.length) m.2.party ps) t) s

/-- The regions that the launch's resource items name for an entry are lent on to its tasks (R317, R333). -/
def State.lendItems (s : State) (l : Launch) (ix : Nat) (e : Entry) : State :=
  l.items.foldl (fun (t : State) b =>
    let i := itemOf b
    if i.ent ≠ ix then t
    else match i.kind, t.itemBase l.asn i.desig with
      | 1, some a => (match e.places with
        | p :: _ => t.lendRange a (regionBytes (desSz i.desig)) l.party p.party
        | [] => t)
      | 2, some a => t.lendParts a (desSz i.desig) (partLog e.places.length) l.party (e.places.map (fun p => p.party))
      | _, _ => t) s

/-- One task of an entry starts at its place: its contexts, its span's tags and tokens, and the units that its header declares
(R91, R161, R266, R283, R291). -/
def State.startPlace (s : State) (l : Launch) (lk ix : Nat) (e : Entry) (m : Nat) (p : Place) : State :=
  let h := headerOf e.hdr
  let b := s.bindOf l lk ix e p m
  let s := s.modCore p.core (fun y =>
    let y := y.modCtx p.ctx (fun x => x.fresh b h e.args)
    let y := p.nots.foldl (fun (y : Core) k => y.modCtx k (fun x => x.freshNotify b)) y
    let y := if h.array then { y with arr := {} } else y
    if h.latch then { y with latch0 := { y.latch0 with filled := none }, latch1 := { y.latch1 with filled := none } } else y)
  let n := spanRound h.span
  let s : State := { s with tags := s.tags.filter (fun t => !(decide (p.base ≤ t.1 * 512) && decide (t.1 * 512 < p.base + n))) }
  let s := s.destroyRange p.base n
  (spanRegions h.span).foldl (fun (t : State) (r : Nat × Nat) =>
    t.putRegion { base := p.base + r.1, sz := r.2, owner := p.party }) s

/-- The contexts of a place are free (R12). -/
def State.placeFree (s : State) (p : Place) : Bool := (p.ctx :: p.nots).all (fun k => (s.ctxAt p.core k).status == .free)

/-- A new place for an entry whose placement cannot stand (R339, R359, R360): in the quad of its group's other entries where they have
one. -/
def State.placeAfresh (s : State) (l : Launch) (ix : Nat) (e : Entry) : Option (List Place) :=
  let w : Want := ⟨ix, teOf e.bits, headerOf e.hdr⟩
  let hs := s.held.filter (fun h => !(e.places.any (fun p => p.core == h.place.core && p.ctx == h.place.ctx)))
  if w.te.qgrp = 0 ∧ w.te.size = 1 then (s.placeOne hs w).map (fun p => [p])
  else
    let mate := (List.zip (List.range l.entries.length) l.entries).findSome? (fun m =>
      if m.1 ≠ ix ∧ w.te.qgrp ≠ 0 ∧ (teOf m.2.bits).qgrp = w.te.qgrp then (m.2.places.head?).map (fun p => p.core / 4) else none)
    match (match mate with | some q => s.placeIn q [w] hs | none => s.placeGroup hs [w]) with
    | some ((_, ps) :: _) => some ps
    | _ => none

/-- The places at which a released instance starts: those it has, or new ones where a core of them takes no new placement (R360) or
is derated under a TIGHT entry (R359); none where it must wait. -/
def State.placesNow (s : State) (l : Launch) (ix : Nat) (e : Entry) : Option (List Place) :=
  let bad := e.places.isEmpty || e.places.any (fun p => decide (2 ≤ (s.sageOf p.core).st) || (s.coreAt p.core).out)
  let slow := (teOf e.bits).tight && e.places.any (fun p => decide (1 ≤ (s.sageOf p.core).st))
  if bad || slow then
    (match s.placeAfresh l ix e with
     | some ps => some ((List.zip (List.range ps.length) ps).map (fun (p : Nat × Place) =>
         let w := ((e.places[p.1]?).map (fun (q : Place) => q.party)).getD 0
         { p.2 with party := w }))
     | none => if bad then none else some e.places)
  else some e.places

/-- The parties of an entry whose task was lost are named anew (R160, R187). -/
def State.liveParties (s : State) (e : Entry) : State × Entry :=
  if e.places.all (fun p => s.own.live.contains p.party) then (s, e)
  else
    let s : State := { s with own := { s.own with live := s.own.live.filter (fun q => !(e.places.any (fun p => p.party == q))) } }
    s.nameTasks e

/-- A core can take a gang now: nothing runs there, or its running context stands at a stop point with nothing in flight (R17). -/
def State.coreYields (s : State) (c : Nat) : Bool :=
  let y := s.coreAt c
  match y.running with
  | none => true
  | some k => let x := y.ctx k
    x.atStop && y.held.isNone && y.freeze.isEmpty && x.status == .running && x.pend.isEmpty && x.land.isEmpty && x.phase.next.isNone

/-- The instance of an entry starts (R11, R317, R338). -/
def State.startEntry (s : State) (lk ix : Nat) (l : Launch) (e : Entry) (ps : List Place) : State :=
  let a := s.liveParties { e with places := ps }
  let e := a.2
  let s := (List.zip (List.range e.places.length) e.places).foldl (fun (t : State) (p : Nat × Place) =>
    t.startPlace l lk ix e p.1 p.2) a.1
  let s := if 1 < e.places.length then
      (let s := e.places.foldl (fun (t : State) p => t.modCore p.core (fun y =>
          match y.running with | some k => y.giveUp k .ready | none => y)) s
       let g : Gang := { members := e.places.map (fun p => (p.core, p.ctx)), states := e.places.map (fun _ => GState.detached),
                         launch := l.party, started := true }
       (s.setGang (4096 * lk + ix) g).lendReceives e)
    else s
  (s.lendItems l ix e).setEntry lk ix { e with st := .running, claims := [] }

/-- The start of entry `ix` of launch `lk`, as a single task or as a gang (R317, R338). -/
def State.startWhen (s : State) (gang : Bool) (lk ix : Nat) : Out :=
  match s.entryAt lk ix with
  | some (l, e) =>
    if e.st ≠ .released ∨ s.thyme.update = true ∨ decide (1 < (teOf e.bits).size) ≠ gang then idle s
    else match s.placesNow l ix e with
      | some ps => if ps.all s.placeFree && (!gang || ps.all (fun p => s.coreYields p.core)) then .next (s.startEntry lk ix l e ps) else idle s
      | none => idle s
  | none => idle s

/-- DISPATCH: Thyme starts a released instance of a single entry on its reserved core (R11, R338). -/
def execDispatch (l e : Nat) (s : State) : Out := s.startWhen false l e

/-- GANG_START: Thyme binds and starts every member of gang `n`, the entry n mod 4,096 of launch n div 4,096 (R317). -/
def execGangStart (n : Nat) (s : State) : Out := s.startWhen true (n / 4096) (n % 4096)

/-- The running instance of an entry has issued DONE (R338, R344). -/
def State.issuedDone (s : State) (e : Entry) : Bool :=
  e.st == .running && !e.places.isEmpty && e.places.all (fun p => (s.ctxAt p.core p.ctx).finishing)

/-- The deadline of an entry's instance has fallen before it has issued DONE, as `done` says of it (R338). -/
def Launch.overdue (l : Launch) (done : Entry → Bool) (e : Entry) : Bool :=
  let t := teOf e.bits
  t.dl != 0xFFFFFFFF && decide (e.frame * (recOf l.src.bits).period + t.dl ≤ l.frame) &&
    (e.st == .released || e.st == .running || e.st == .saved) && !done e

/-- An idle instance whose release tick FRAME has reached (R338). -/
def Launch.due (l : Launch) (e : Entry) : Bool :=
  e.st == .idle && decide (e.frame * (recOf l.src.bits).period + (teOf e.bits).rel ≤ l.frame)

/-- The releases of a tick (R338). -/
def Launch.releases (l : Launch) : Launch :=
  { l with entries := l.entries.map (fun e => if l.due e then { e with st := .released } else e) }

/-- The instances that are overdue now are counted, each once (R338). -/
def Launch.countOver (l : Launch) (done : Entry → Bool) : Launch :=
  let new (e : Entry) : Bool := l.overdue done e && !e.counted
  let n := (l.entries.filter new).length
  { l with sevents := l.sevents + n, slipped := l.slipped || decide (0 < n),
           entries := l.entries.map (fun e => if new e then { e with counted := true } else e) }

/-- One package tick of a launch's timetable (R338, R410). -/
def Launch.tickOne (l : Launch) (done : Entry → Bool) (update : Bool) : Launch :=
  if !l.started then (if update then l else ({ l with started := true, frame := 0 } : Launch).releases)
  else
    let pre := update || l.entries.any (fun e => e.st == .saved)
    if pre || l.entries.any (l.overdue done) then
      let hit (e : Entry) : Bool := l.overdue done e && e.st != .saved
      { l with sticks := l.sticks + (l.entries.filter hit).length, pticks := if pre then l.pticks + 1 else l.pticks,
               entries := l.entries.map (fun e => if hit e then { e with lateTicks := e.lateTicks + 1 } else e) }
    else
      let l : Launch := { l with frame := l.frame + 1 }
      (if l.entries.any (l.overdue done) then l else l.releases).countOver done

/-- The wear charge of a context is read and cleared, and added to that of its entry's instance (R352). -/
def State.collect (s : State) (lk ix c k : Nat) : State :=
  let n := (s.ctxAt c k).charge
  let s := match s.entryAt lk ix with
    | some (_, e) => s.setEntry lk ix { e with charge := e.charge + n }
    | none => s
  s.modCtx c k (fun x => { x with charge := 0 })

/-- A frame of a periodic timetable has ended (R338). -/
def Launch.frameEnds (old new : Launch) : Bool :=
  let p := (recOf new.src.bits).period
  decide (old.frame < new.frame) && decide (0 < p) && new.frame % p == 0

/-- The charges of every context of a launch are read and cleared (R352). -/
def State.collectAll (s : State) (lk : Nat) (l : Launch) : State :=
  (List.zip (List.range l.entries.length) l.entries).foldl (fun (t : State) (e : Nat × Entry) =>
    e.2.places.foldl (fun (t : State) (p : Place) => p.ctxs.foldl (fun (t : State) k => t.collect lk e.1 p.core k) t) t) s

/-- PACKAGE_TICK, every 64 cycles (R1): the frame counter of every timetable that is not held advances, instances are released, deadlines fall
(R338). -/
def execPackageTick (s : State) : Out :=
  if s.cycle / 64 ≤ s.tick then idle s
  else
    let ls := s.thyme.launches.map (fun l => (l.1, l.2.tickOne s.issuedDone s.thyme.update))
    let ends := (List.zip s.thyme.launches ls).filter (fun e => e.1.2.frameEnds e.2.2)
    .next (ends.foldl (fun (t : State) e => t.collectAll e.2.1 e.2.2) { s with tick := s.tick + 1, thyme := { s.thyme with launches := ls } })

/-- DONE (R344): it must stand at a stop point, and never in BROADCAST. Its steps follow in DONE_FINISH. -/
def execDone (w : RForm) (s : State) : Out :=
  runSlot w.g
    (fun s => do
      let s ← require (s.isStopPoint && !s.inService) .illegal s
      notBroadcast s)
    (fun s => .ok (s.setCtl .done)) s

/-- An access of a context that has not performed, or whose data is still to land (R179, R344). -/
def State.flightsOut (s : State) (c k : Nat) : Bool :=
  s.flight.any (fun e => e.2.core == c && e.2.ctx == k && (match e.2.msg with
    | .access a => !a.performed || a.dst != .none
    | .token _ => true
    | .append .. => true
    | .sxstop .. => true
    | .launch .. => true
    | .arrive .. => true
    | _ => false))

/-- The pending beats of an array run out (R304). -/
def MArray.runOut (a : MArray) : Nat → MArray
  | 0 => a
  | n + 1 => if a.beats.isEmpty && a.next.isEmpty then a else (a.tick.landDue).runOut n

/-- The open load slots of a core's array are released as by CLOSE (R299, R304). -/
def State.closeLoads (s : State) (c k : Nat) : State :=
  [0, 1].foldl (fun (t : State) b => match ((t.coreAt c).arr.bank b).load with
    | some o =>
      (t.modCore c (fun y => { y with arr := y.arr.setBank b { y.arr.bank b with load := none } })).modCtx c k
        (fun x => x.modQ o.q (fun d => d.consume 1 x.bind.phaseBound))
    | none => t) s

/-- A splice-in queue of an ending task is unbound: its producer is refused (R344). -/
def State.refuseProducer (s : State) (c k q : Nat) : State :=
  let d := (s.ctxAt c k).queue q
  let s := if (s.qEnd d.partner).mode == .spliceOut && (s.qEnd d.partner).partner == ⟨c, k, q⟩ then
      s.modEnd d.partner (fun d => { d with refused := true, ownf := false, pend := false }) else s
  s.modCtx c k (fun x => x.modQ q (fun d => { d with mode := .disabled, headDue := false }))

/-- Every splice of a context is ended (R344, step 3). -/
def State.endSplices (s : State) (c k : Nat) : State :=
  (List.range 16).foldl (fun (t : State) q => match ((t.ctxAt c k).queue q).mode with
    | .spliceOut => t.applyAct c k (.unsplice q)
    | .spliceIn => t.refuseProducer c k q
    | _ => t) s

/-- Steps 1 to 4 of DONE can be taken for a context (R344). -/
def State.canSettle (s : State) (c k : Nat) : Bool :=
  let x := s.ctxAt c k
  x.land.all (fun l => l.arrived) && s.ops.all (fun e => !(e.2.core == c && e.2.ctx == k)) &&
    x.q.all (fun e => !(e.2.mode == .spliceOut && e.2.pend && !e.2.refused && !e.2.down)) &&
    !s.flight.any (fun e => e.2.core == c && e.2.ctx == k && (match e.2.msg with | .access a => a.dst != .none | _ => false))

/-- Steps 1 to 4 of DONE for a context: writes in flight land, beats land, drain slots close, splices end, the last phase commits
(R304, R344). -/
def State.settle (s : State) (c k : Nat) : State :=
  let land (s : State) : State :=
    let x := s.ctxAt c k
    let ws := x.pend ++ x.land.map (fun l => ({ due := 0, slot := l.slot, w := l.w, no := l.flight } : Pend))
    (s.modCtx c k (fun x => { x with pend := [], land := [] })).landAll c k ws
  let s := land s
  let s := if (s.ctxAt c k).bind.array && !(s.ctxAt c k).bind.isNotify then
      (let s := s.modCore c (fun y => { y with arr := y.arr.runOut 64, asd := y.asd + 64 })
       land ((s.closeDrains c k none).closeLoads c k))
    else s
  let s := s.endSplices c k
  if (s.ctxAt c k).bind.phaseBound then s.modCtx c k Ctx.freePopped else s

/-- A context has been settled. -/
def State.settled (s : State) (c k : Nat) : Bool :=
  let x := s.ctxAt c k
  let a := (s.coreAt c).arr
  x.pend.isEmpty && x.land.isEmpty && x.q.all (fun e => e.2.mode == .localQ || e.2.mode == .disabled) &&
    (!x.bind.array || x.bind.isNotify || (a.beats.isEmpty && a.next.isEmpty && a.b0.drain.isNone && a.b1.drain.isNone && a.b0.load.isNone && a.b1.load.isNone))

/-- The frame in which an instance was lost counts as not completed. -/
def Launch.lose (l : Launch) (k : Nat) : Launch := { l with lostf := (k :: l.lostf).eraseDups }

/-- The instance of an entry has finished (R338, R342): its slip is journalled, and the entry waits for its next frame, or is over. -/
def State.finishInst (s : State) (lk ix : Nat) (lost : Bool) : State :=
  match s.entryAt lk ix with
  | some (l, e) =>
    let s := if e.counted then s.journalAdd 4 0xFF 0xFFFF (openPayload 4 [ix, e.frame, e.lateTicks]) else s
    let more := decide (e.frame + 1 < (recOf l.src.bits).frames)
    let n := max e.places.length (teOf e.bits).size
    let l : Launch := if lost then { l.lose e.frame with lost := l.lost + n } else { l with donecnt := l.donecnt + n }
    let e' : Entry := { e with st := if more then .idle else if lost then .lost else .done,
                               frame := if more then e.frame + 1 else e.frame, lateTicks := 0, counted := false,
                               claims := if more then e.spanClaims else [] }
    s.setLaunch lk { l with entries := l.entries.set ix e' }
  | none => s

/-- A context becomes FREE; its wear charge goes to its entry (R344, R352). -/
def State.freeCtx (s : State) (lk ix c k : Nat) : State :=
  (s.collect lk ix c k).modCore c (fun y =>
    let y := y.setCtx k { act := (y.ctx k).act }
    if y.running = some k then
      { y with running := none, next := (k + 1) % 4, replay := none, held := none, svcTimer := none, switchLeft := 0, ilock := false,
               freeze := y.freeze.filter (fun f => f == .clock), svcFreeze := [] }
    else y)

/-- The regions of a task's span that it has lent or shared and that are not yet back (R179). -/
def State.spanLent (s : State) (c k : Nat) : List Region :=
  let x := s.ctxAt c k
  ((s.own.regions.filter (fun e => meets e.2.base e.2.bytes (scratchPA c + x.bind.spanBase) (spanRound x.bind.spanBytes) &&
    (e.2.owner != x.bind.party || decide (0 < e.2.shares)))).map (fun e => e.2))

/-- Thyme seizes back what a task's span still has lent (R176, R179). -/
def State.seizeSpan (s : State) (c k : Nat) : State :=
  (s.spanLent c k).foldl (fun (t : State) r =>
    (t.clearShares r.base).putRegion { r with owner := (t.ctxAt c k).bind.party, chain := [], shares := 0, dirty := false, st := .held }) s

/-- An access to a task's span has still to perform before its tokens are destroyed (R164, R179). -/
def State.spanBusy (s : State) (c k : Nat) : Bool :=
  let b := (s.ctxAt c k).bind
  s.touching (scratchPA c + b.spanBase) (spanRound b.spanBytes)

/-- The tokens and locks of an ending task (R143, R179): its shares end as by UNSHR, the tokens that it owns go back as by RETN, those of its span are
destroyed. -/
def State.endTokens (s : State) (x : Ctx) (c : Nat) : State :=
  let p := x.bind.party
  let base := scratchPA c + x.bind.spanBase
  let s := (s.own.regions.filter (fun e => s.own.sharer e.1 p)).foldl (fun (t : State) (e : Nat × Region) => t.flushRegion c e.2.base e.2.bytes) s
  let s : State := { s with own := { s.own with
    regions := s.own.regions.map (fun e => (e.1, { e.2 with shares := e.2.shares - (s.own.shares.filter (fun h => h == (e.1, p))).length })),
    shares := s.own.shares.filter (fun e => e.2 != p) } }
  let s := s.destroyRange base (spanRound x.bind.spanBytes)
  let mine := s.own.regions.filter (fun e => e.2.owner == p && e.2.st == .held)
  mine.foldl (fun (t : State) (e : Nat × Region) =>
    (t.flushRegion c e.2.base e.2.bytes).putRegion { t.returned e.2 x.bind.launch with dirty := false }) s

/-- Locks released (R143). -/
def State.unlockAll (s : State) (c k : Nat) : State :=
  let ls := (s.ctxAt c k).locks
  ({ s with l2locks := ls.foldl (fun (r : List Nat) l => r.erase l) s.l2locks } : State).modCtx c k (fun x => { x with locks := [] })

/-- Steps 6 to 8 of DONE can be taken for a task (R179, R344). -/
def State.canEnd (s : State) (c k : Nat) : Bool :=
  (k :: (s.ctxAt c k).bind.notify).all (fun j => !s.flightsOut c j && s.ops.all (fun e => !(e.2.core == c && e.2.ctx == j))) &&
    (s.ctxAt c k).bind.notify.all (fun j => (s.ctxAt c j).status == .dormant && (s.ctxAt c j).notifies.isEmpty)

/-- Steps 7 and 8 of DONE for one task (R344). -/
def State.endTask (s : State) (c k : Nat) : State :=
  let x := s.ctxAt c k
  let ks := k :: x.bind.notify
  let s := (ks.foldl (fun (t : State) j => t.unlockAll c j) s).endTokens x c
  ks.foldl (fun (t : State) j => t.freeCtx x.bind.lkey x.bind.entryIx c j) s

/-- A notify context's DONE (R265, R344): it becomes DORMANT, or takes its next handler, keeping its state. -/
def State.doneNotify (s : State) (c k : Nat) : State :=
  s.modCore c (fun y =>
    let y := y.modCtx k (fun x => match x.notifies with
      | r :: rest => { (x.startHandler r) with notifies := rest, finishing := false, atStop := false, replay := none, spacing := 0,
                                               buf := [], rstack := [], starve := 0 }
      | [] => { x with status := .dormant, finishing := false, atStop := false, replay := none, spacing := 0, starve := 0 })
    { y with running := none, next := (k + 1) % 4, replay := none, freeze := y.freeze.filter (fun f => f == .clock) })

/-- A cause that arises while DONE waits is taken at its bundle: the DONE slot has not performed (R344). -/
def State.doneCause (s : State) (c k : Nat) (take : State → State) : State :=
  let s := (s.modCtx c k (fun x => { x with finishing := false })).modCore c (fun y =>
    { y with freeze := y.freeze.filter (fun f => !(f == .finish)) })
  let s := match (s.ctxAt c k).bind.gang, s.gangOf (s.ctxAt c k) with
    | some n, some g => s.setGang n (g.setMember (s.ctxAt c k).bind.member .detached)
    | _, _ => s
  let cur := s.cur
  { (take s) with cur := cur }

/-- A landing of a context came back with a cause, which DONE does not discard (R131, R208, R344). -/
def Ctx.landsBad (x : Ctx) : Bool := x.land.any (fun l => l.fault.isSome)

/-- The landings of a context land now, and the earliest of their causes is taken (R208, R344). -/
def State.landFault (s : State) (c k : Nat) : State :=
  (s.modCtx c k (fun x => { x with pend := x.pend.map (fun p => { p with due := 0 }), land := x.land.map (fun l => { l with due := 0 }) })).landCtx
    c k true true

/-- The members of a gang that must all stand at DONE, or the context alone (R328). -/
def State.allDone (s : State) (ms : List (Nat × Nat)) : Bool := ms.all (fun m => (s.ctxAt m.1 m.2).finishing)

/-- DONE_FINISH: DONE's steps, as far as they can be taken now (R304, R344). A gang member becomes DONE, and the last one ends every
member's task in the same cycle (R328), after the completions that its gang still owes (R323). -/
def execDoneFinish (c k : Nat) (s : State) : Out :=
  let x := s.ctxAt c k
  if !x.finishing || x.status != .running then idle s
  else if !x.async.isEmpty then .next (s.doneCause c k (State.enterAt c State.takeAsync))
  else if x.landsBad ∧ s.canSettle c k then .next (s.doneCause c k (fun t => t.landFault c k))
  else if x.bind.isNotify then
    (if s.canSettle c k then .next ((s.settle c k).doneNotify c k) else idle s)
  else
    let ms := s.unitCtxs c k
    if !s.allDone ms then
      (match x.bind.gang, s.gangOf x with
       | some n, some g => if g.states[x.bind.member]? = some .done then idle s else .next (s.setGang n (g.setMember x.bind.member .done))
       | _, _ => idle s)
    else if ms.any (fun m => !(s.ctxAt m.1 m.2).async.isEmpty || (s.ctxAt m.1 m.2).landsBad) then idle s
    else if ms.any (fun m => !s.settled m.1 m.2) then
      (if ms.all (fun m => s.canSettle m.1 m.2) then .next (ms.foldl (fun (t : State) (m : Nat × Nat) => t.settle m.1 m.2) s) else idle s)
    else if (s.gangOf x).any (fun g => g.owed.any (fun o => o.last.isSome)) then idle s
    else if !ms.all (fun m => s.canEnd m.1 m.2) then idle s
    else if ms.any (fun m => !(s.spanLent m.1 m.2).isEmpty) then .next (ms.foldl (fun (t : State) (m : Nat × Nat) => t.seizeSpan m.1 m.2) s)
    else if ms.any (fun m => s.spanBusy m.1 m.2) then idle s
    else
      let t := ms.foldl (fun (t : State) (m : Nat × Nat) => t.endTask m.1 m.2) s
      let t : State := match x.bind.gang with | some n => { t with gangs := t.gangs.drop n } | none => t
      .next (t.finishInst x.bind.lkey x.bind.entryIx false)

/-- The slot of a copy of a lost context, allocated on a splice that it has ended, is sent as that of a stopped operation: with every word marked bad
(R88). -/
def State.sendEnded (s : State) (o : EngOp) : State :=
  match o.body with
  | .copy c => (match c.slot with
    | some (q, i, some e) =>
      if !c.slotSent && s.flight.any (fun f => match f.2.msg with | .unsplice a b _ => a == ⟨o.core, o.ctx, q⟩ && b == e | _ => false) then
        s.launchFlight { core := o.core, ctx := o.ctx,
                         msg := .append ⟨o.core, o.ctx, q⟩ e i (tagByte c.d.tfmt c.d.tswz) (List.replicate c.d.bytes 0) (List.range (c.d.bytes / 32)) }
      else s
    | _ => s)
  | .sparse _ => s

/-- What is on its way for a lost context, and would be delivered to it, is dropped; its engine operations stop (R271, R346). -/
def State.dropCtx (s : State) (c k : Nat) : State :=
  let s : State := { s with flight := s.flight.filter (fun e => !(e.2.core == c && e.2.ctx == k && (match e.2.msg with
    | .access a => !(a.cls == .st)
    | .token _ => true
    | .fence .. => true
    | .sxstop .. => true
    | .launch .. => true
    | .arrive _ bar _ => bar
    | _ => false))) }
  (s.ops.filter (fun e => e.2.core == c && e.2.ctx == k)).foldl (fun (t : State) (e : Nat × EngOp) => (t.sendEnded e.2).endOp e.1 e.2) s

/-- One lost task (R187, R346, R347): its party dies, and its contexts become FREE. -/
def State.loseOne (s : State) (c k : Nat) : State :=
  let x := s.ctxAt c k
  let ks := k :: x.bind.notify
  let s := ks.foldl (fun (t : State) j => (t.dropCtx c j).unlockAll c j) s
  let s := (x.bind.notify.foldl (fun (t : State) j => t.unbindCtx c j) s).partyDies x.bind.party
  ks.foldl (fun (t : State) j => t.freeCtx x.bind.lkey x.bind.entryIx c j) s

/-- A core is dead, so that the memory of its scratchpad is lost (R188). -/
def State.dead (s : State) (c : Nat) : Bool := (s.sageOf c).failed || (s.coreAt c).failed

/-- The task of a context is lost, with its whole gang; the other tasks of its launch run on (R346). -/
def State.loseTask (s : State) (c k : Nat) (killed : Bool) : State :=
  let x := s.ctxAt c k
  if x.status = .free then s
  else
    let ms := s.unitCtxs c k
    let gone := (ms.filter (fun m => s.dead m.1)).map (fun m => (scratchPA m.1 + (s.ctxAt m.1 m.2).bind.spanBase, spanRound (s.ctxAt m.1 m.2).bind.spanBytes))
    let s := ms.foldl (fun (t : State) (m : Nat × Nat) => t.loseOne m.1 m.2) s
    let s : State := match x.bind.gang with | some n => { s with gangs := s.gangs.drop n } | none => s
    let s : State := { s with own := { s.own with regions := s.own.regions.map (fun e =>
      if gone.any (fun g => meets e.2.base e.2.bytes g.1 g.2) then (e.1, { e.2 with lost := true }) else e) } }
    let s := match s.launchAt x.bind.lkey with
      | some l => s.setLaunch x.bind.lkey { l with killed := l.killed || killed, gone := l.gone ++ gone }
      | none => s
    s.finishInst x.bind.lkey x.bind.entryIx true

/-- TASK_KILL: a privileged party kills a task: it is lost, and its launch ends KILLED (R187, R346). -/
def execTaskKill (c k : Nat) (s : State) : Out :=
  if 4 ≤ k ∨ (s.ctxAt c k).status = .free then idle s else .next (s.loseTask c (s.taskCtx c k) true)

/-- Every instance of the launch has finished. -/
def Launch.isOver (l : Launch) : Bool := l.entries.all (fun e => e.st == .done || e.st == .lost)

/-- The status of an ended launch (R342): a kill before a loss, a loss before a slip. -/
def Launch.status (l : Launch) : Nat := if l.killed then 6 else if 0 < l.lost then 3 else if l.slipped then 2 else 0

/-- CHARGE payloads: four pairs of an entry index and its charge in 1/1024 WU each (R352, R407). -/
def chargePayloads : Nat → List Nat → List Nat
  | 0, _ => []
  | _, [] => []
  | f + 1, ps => (ps.take 4).foldr (fun v n => v + 2 ^ 64 * n) 0 :: chargePayloads f (ps.drop 4)

def Launch.charges (l : Launch) : List Nat :=
  chargePayloads (l.entries.length + 1)
    ((List.zip (List.range l.entries.length) l.entries).map (fun e => e.1 % 65536 + 65536 * (e.2.charge / 3600000 % 2 ^ 48)))

/-- Steps 1 and 2 of an end (R188, R333, R342): the tokens go back, created ones are destroyed or passed on, slots are unbound, and the
launch's parties are live no longer. -/
def State.endLaunchTokens (s : State) (l : Launch) : State :=
  let sub := l.src.party
  let s := l.items.foldl (fun (t : State) b =>
    let i := itemOf b
    if i.kind ≠ 3 then t
    else match t.itemBase l.asn i.desig with
      | some a =>
        let n := regionBytes (desSz i.desig)
        if i.keep then
          { t with own := { t.own with regions := t.own.regions.map (fun e =>
            if meets e.2.base e.2.bytes a n ∧ e.2.owner = l.party then (e.1, { e.2 with owner := sub, chain := [], dirty := false }) else e) } }
        else t.destroyRange a n
      | none => t) s
  let s := l.gone.foldl (fun (t : State) (g : Nat × Nat) => t.destroyRange g.1 g.2) s
  let s := (s.own.regions.filter (fun e => e.2.owner == l.party)).foldl (fun (t : State) (e : Nat × Region) =>
    t.putRegion { t.returned e.2 sub with dirty := false }) s
  let ps := l.party :: l.entries.flatMap (fun e => e.places.map (fun p => p.party))
  { s with own := { s.own with live := s.own.live.filter (fun p => !ps.contains p) },
           bars := s.bars.filter (fun b => b.2.launch != l.party) }

/-- The regions that an ending launch destroys, as ranges (R188, R333, R342). -/
def State.doomed (s : State) (l : Launch) : List (Nat × Nat) :=
  l.gone ++ (l.items.map itemOf).filterMap (fun i =>
    if i.kind = 3 ∧ i.keep = false then (s.itemBase l.asn i.desig).map (fun a => (a, regionBytes (desSz i.desig))) else none)

/-- LAUNCH_END: the last instance of the last frame of a launch has finished, and Thyme ends it (R342), once the older accesses to the regions that it
destroys have performed (R164). -/
def execLaunchEnd (l : Nat) (s : State) : Out :=
  match s.launchAt l with
  | some a =>
    if !a.isOver || (s.doomed a).any (fun g => s.touching g.1 g.2) then idle s
    else
      let s := s.endLaunchTokens a
      let s : State := { s with thyme := { s.thyme with launches := s.thyme.launches.drop l } }
      .next (s.endWith a.src a.asn (statusBlock a.status a.seq a.sticks a.pticks a.donecnt a.lost
        ((recOf a.src.bits).frames - a.lostf.length) s.cycle) a.charges)
  | none => idle s

end Sys2Proof.Machine
end

