-- ==== Sys2Proof/Machine/Save.lean ====
section
/-!
DEFINITION. Saving and restoring tasks (R14, R89, R156, R180, R213 to R215, R272, R282, R284, R304, R326, R346, R362, R400):
CONTEXT_SAVE and CONTEXT_RESTORE.
-/
namespace Sys2Proof.Machine

/-- The end of a splice moved by `f`, wherever the state names it (R89). -/
def QDesc.moved (f : QEnd → QEnd) (d : QDesc) : QDesc :=
  match d.mode with
  | .spliceIn => let e := f d.partner; { d with pcore := e.core % 96, pdie := e.core / 96, pctx := e.ctx, pq := e.q }
  | .spliceOut => let e := f d.partner; { d with pcore := e.core % 96, pdie := e.core / 96, pctx := e.ctx, pq := e.q }
  | _ => d

def Write.moved (f : QEnd → QEnd) : Write → Write
  | .remote e q i t b => .remote (f e) q i t b
  | w => w

def qsMoved (f : QEnd → QEnd) (t : Tab QDesc) : Tab QDesc := t.map (fun e => (e.1, e.2.moved f))

def Ctx.moved (f : QEnd → QEnd) (x : Ctx) : Ctx :=
  { x with q := qsMoved f x.q, pend := x.pend.map (fun p => { p with w := p.w.moved f }),
           frames := x.frames.map (fun r => { r with qs := qsMoved f r.qs }) }

def Bank.moved (f : QEnd → QEnd) (k : Bank) : Bank :=
  { k with drain := k.drain.map (fun o => { o with rem := o.rem.map f }) }

def MArray.moved (f : QEnd → QEnd) (a : MArray) : MArray := { a with b0 := a.b0.moved f, b1 := a.b1.moved f }

def Msg.moved (f : QEnd → QEnd) : Msg → Msg
  | .access a => .access { a with dst := match a.dst with | .slot q i t r => .slot q i t (r.map f) | d => d }
  | .spliceReq a b n p => .spliceReq (f a) (f b) n p
  | .spliceAns a b ok own h t c v => .spliceAns (f a) (f b) ok own h t c v
  | .append a b i t d bad => .append (f a) (f b) i t d bad
  | .head a b p fl => .head (f a) (f b) p fl
  | .unsplice a b u => .unsplice (f a) (f b) u
  | .headReq a b => .headReq (f a) (f b)
  | .headAns a b p fl => .headAns (f a) (f b) p fl
  | m => m

def EngOp.moved (f : QEnd → QEnd) (o : EngOp) : EngOp :=
  match o.body with
  | .copy c => { o with body := .copy { c with slot := c.slot.map (fun e => (e.1, e.2.1, e.2.2.map f)) } }
  | .sparse _ => o

/-- Every splice end of the package moved (R89). -/
def State.moveEnds (s : State) (f : QEnd → QEnd) : State :=
  let cores := s.cores.map (fun e => (e.1, { e.2 with ctxs := e.2.ctxs.map (fun x => (x.1, x.2.moved f)), arr := e.2.arr.moved f }))
  let saved := s.thyme.saved.map (fun e =>
    (e.1, { e.2 with ctx := e.2.ctx.moved f, nots := e.2.nots.map (fun x => x.moved f), arr := e.2.arr.map (fun a => a.moved f) }))
  { s with cores := cores, flight := s.flight.map (fun e => (e.1, { e.2 with msg := e.2.msg.moved f })),
           ops := s.ops.map (fun e => (e.1, e.2.moved f)), thyme := { s.thyme with saved := saved } }

/-- Where the regions of the `n`-th saved task are listed while it has no scratchpad: addresses that name nothing (R121, R180). -/
def limbo (n : Nat) : Nat := 0x8000000000 + n * 0x200000

/-- The token entries of a scratchpad span moved with it: OWNER, CHAIN, SHARES and MODE stay (R180). -/
def State.rebase (s : State) (a b n : Nat) : State :=
  let go (x : Nat) : Nat := if a ≤ x ∧ x < a + n then b + (x - a) else x
  let hit := s.own.regions.filter (fun e => decide (a ≤ e.1) && decide (e.1 < a + n))
  let rest := s.own.regions.filter (fun e => !(decide (a ≤ e.1) && decide (e.1 < a + n)))
  let rs := hit.foldl (fun (t : Tab Region) (e : Nat × Region) => t.put (go e.1) { e.2 with base := go e.1 }) rest
  { s with own := { s.own with regions := rs, shares := s.own.shares.map (fun e => (go e.1, e.2)),
                               engaged := s.own.engaged.map (fun e => (go e.1, e.2)) } }

/-- A sparse-index operation parked (R282): its descriptor takes its state, and its physical addresses in the span become `go` of
them when it is reissued. -/
def SxOp.parked (x : SxOp) (go : Nat → Nat) : SxOp :=
  let i := if x.run then x.pos else x.pos / 64
  { x with words := [], asked := i, got := i, ending := none, src := x.src.map (fun r => { r with pa := go r.pa }) }

/-- The operations of a context parked (R282). -/
def State.parkOps (s : State) (c k : Nat) : State × List EngOp :=
  (s.ops.filter (fun e => e.2.core == c && e.2.ctx == k && e.2.copy?.isNone)).foldl
    (fun (a : State × List EngOp) (e : Nat × EngOp) =>
      match e.2.body with
      | .sparse x =>
        let pa := spanPA c (a.1.ctxAt c k) x.desc
        let s : State := { a.1 with mem := a.1.mem.writeBytes (pa + 48) (leBytes x.pos 4 ++ leBytes x.cnt 4 ++ leBytes x.crd 4) }
        (s.endOp e.1 e.2, a.2 ++ [{ e.2 with started := false, svc := false, turn := none, born := some (e.2.born.getD e.1) }])
      | _ => a) (s, [])

/-- The lines of an address space leave a core's L1, their dirty bytes written back (R156). -/
def State.flushSpace (s : State) (c : Nat) (asn : BitVec 16) : State :=
  let ls := (s.coreAt c).l1.filter (fun e => e.2.of asn)
  let s := ls.foldl (fun (t : State) e => t.writeBack e.1 e.2) s
  s.modCore c (fun k => { k with l1 := k.l1.filter (fun e => !e.2.of asn) })

/-- Slices of `n` bytes a lane, one lane after another, as lane-private bytes by lane × 2,048 and offset in the slice (R7). -/
def Memory.cutSlices (m : Memory) (n : Nat) : Memory := m.map (fun c => (c.1 / n * 2048 + c.1 % n, c.2))

def Memory.pasteLanes (m : Memory) (base n : Nat) (p : Memory) : Memory :=
  p.foldl (fun (t : Memory) c => t.write (base + c.1) c.2)
    (m.filter (fun c => !(decide (base ≤ c.1 % 2048) && decide (c.1 % 2048 < base + n))))

/-- A context as it is saved: stopped, with its wait unperformed and its segments to be expanded again (R31, R215). -/
def Ctx.stored (x : Ctx) : Ctx :=
  { x with pend := x.shadow ++ x.pend, shadow := [], status := (match x.status with | .dormant => .dormant | .running => if x.finishing then .running else .ready | _ => .ready),
           wait := none, buf := [], rstack := [], preempt := none, escalating := false, starve := 0, act := 0, charge := 0 }

/-- The context may be saved now as far as it alone goes: it is stopped for Thyme, or has escalated (R213, R215, R326, R346). -/
def State.stopped (s : State) (c k : Nat) : Bool :=
  let x := s.ctxAt c k
  let m := s.memberState x
  x.phase.rollback.isNone &&
    ((x.status == .held && x.cause.esc && !x.escalating) || (x.status == .ready && x.preempt.isSome) ||
      (x.status != .held && (m == some .parked || m == some .done)))

/-- A notify context may be saved with its task. -/
def Ctx.notifyStopped (x : Ctx) : Bool :=
  x.status == .dormant || x.status == .ready || x.status == .waiting || (x.status == .held && x.cause.esc && !x.escalating)

/-- Thyme may save the queues of a context that are spliced (R89): every append to them has landed, and the producer of a splice-in queue that is itself to be
saved, but for one of the same unit, has been saved. -/
def State.splicesSettled (s : State) (ms : List (Nat × Nat)) (c k : Nat) : Bool :=
  (s.ctxAt c k).q.all (fun e => match e.2.mode with
    | .spliceIn =>
      let p := e.2.partner
      let x := s.ctxAt p.core p.ctx
      !s.appendsTo p ⟨c, k, e.1⟩ &&
        (p.away || ms.contains (p.core, s.taskCtx p.core p.ctx) || (x.preempt.isNone && !(x.status == .held && x.cause.esc)))
    | .spliceOut => !s.appendsTo ⟨c, k, e.1⟩ e.2.partner
    | _ => true)

/-- Everything of a task is stopped, its copies have joined, and its accesses have performed (R89, R156, R177, R272); `ms` are the tasks that are
saved with it. -/
def State.savable (s : State) (ms : List (Nat × Nat)) (c k : Nat) : Bool :=
  let ks := k :: (s.ctxAt c k).bind.notify
  s.stopped c k && (s.ctxAt c k).bind.notify.all (fun j => (s.ctxAt c j).notifyStopped) &&
    ks.all (fun j => s.splicesSettled ms c j && !s.flightsOut c j && s.ops.all (fun e => !(e.2.core == c && e.2.ctx == j && e.2.copy?.isSome)))

/-- The sizes of the parts of a task's saved state (R14, R284, R346): images, span, lane-private bytes, array record, latches, replay record
and shadow blocks. -/
def State.savedParts (s : State) (c k : Nat) : List Nat :=
  let b := (s.ctxAt c k).bind
  let js := k :: b.notify
  [20480 * js.length, spanRound b.spanBytes, 128 * b.privBytes, if b.array then 32768 else 0, if b.latchUse then 32768 else 0,
   if (s.ctxAt c k).replay.isSome || (s.coreAt c).replay.isSome then 12288 else 0,
   512 * (js.flatMap (fun j => (s.ctxAt c j).blocks)).length]

/-- The bytes that a task's saved state takes (R14, R346, R362). -/
def State.savedBytes (s : State) (c k : Nat) : Nat := (s.savedParts c k).foldl (fun n m => n + m) 0

/-- The offset of part `i`: images 0, span 1, lanes 2, array 3, latches 4, replay record 5, shadow blocks 6. The parts lie in the order in which
R346 names them (DESIGN CHOICE, assumption 43). -/
def partAt (ps : List Nat) (i : Nat) : Nat := (ps.take i).foldl (fun n m => n + m) 0

/-- The first hole of `n` units below `top` among intervals (offset, length); it begins where another one ends, or at 0. -/
def firstHole (n top : Nat) (used : List (Nat × Nat)) : Option Nat :=
  (0 :: used.map (fun u => u.1 + u.2)).foldl (fun (b : Option Nat) o =>
    if decide (o + n ≤ top) && used.all (fun u => decide (u.1 + u.2 ≤ o) || decide (o + n ≤ u.1)) && (match b with | some a => decide (o < a) | none => true)
    then some o else b) none

/-- The pool units, or the 64 KiB units of the reserve, that saved tasks hold (R362, R400). -/
def State.poolUsed (s : State) (q : Option Nat) : List (Nat × Nat) :=
  s.thyme.saved.filterMap (fun e => match q with
    | some q => if e.2.q = q ∧ 0 < e.2.units then some ((e.2.base - (s.lq q).spbase) / 65536, e.2.units) else none
    | none => if 0 < e.2.reserve then some ((e.2.base - s.thyme.resvBase) / 65536, (e.2.reserve + 65535) / 65536) else none)

/-- Places for saves of some sizes, in pool units of queue `q` or in the reserve, one after another. -/
def holesFor (top : Nat) : List Nat → List (Nat × Nat) → Option (List Nat)
  | [], _ => some []
  | n :: r, used => match firstHole n top used with
    | some o => (holesFor top r ((o, n) :: used)).map (fun l => o :: l)
    | none => none

/-- A member of a unit has escalated, so that it cannot go on where it is and Thyme migrates it (R13, R213). -/
def State.escalatedOf (s : State) (ms : List (Nat × Nat)) : Bool :=
  ms.any (fun m => (s.ctxAt m.1 m.2).status == .held && (s.ctxAt m.1 m.2).cause.esc)

/-- Some tasks are saved whatever their pools hold: a core of theirs is drained or retired (R362), or one of them has escalated (R13; DEDUCED,
assumption 20). -/
def State.mustSave (s : State) (ms : List (Nat × Nat)) : Bool := decide (2 ≤ s.worstWear ms) || s.escalatedOf ms

/-- Where the saved state of a unit goes (R362, R400): the pool of its queue, or, where it must be saved, the migration reserve; none where neither has
room. Answers whether it is the pool, and the address of each task's state. -/
def State.saveRoom (s : State) (must : Bool) (q : Nat) (ms : List (Nat × Nat)) : Option (Bool × List Nat) :=
  let l := s.lq q
  let ns := ms.map (fun m => (s.savedBytes m.1 m.2 + 65535) / 65536)
  match (if l.spused + ns.foldl (fun n m => n + m) 0 ≤ l.spsize then holesFor l.spsize ns (s.poolUsed (some q)) else none) with
  | some os => some (true, os.map (fun o => l.spbase + 65536 * o))
  | none =>
    if must then
      (holesFor 512 ns (s.poolUsed none)).map (fun os => (false, os.map (fun o => s.thyme.resvBase + 65536 * o)))
    else none

/-- The lowest unused number of a saved task. -/
def State.saveKey (s : State) : Nat :=
  ((List.range (s.thyme.saved.length + 1)).find? (fun i => (Tab.find s.thyme.saved i).isNone)).getD 0

/-- The CORE barrier slots that move with a task (R326): those of its launch on its core, where no other task of the launch stays there. -/
def State.barsOf (s : State) (c k : Nat) : Tab BarSlot :=
  let x := s.ctxAt c k
  let others := (s.coreAt c).ctxs.any (fun e => e.1 != k && decide (e.1 < 4) && e.2.status != .free && e.2.bind.launch == x.bind.launch &&
    !e.2.bind.isNotify)
  if others && x.bind.gang.isNone then [] else s.coreBars c x.bind.launch

/-- Memory copied from `a` to `b` with the marks of its uncorrectable words. -/
def State.copyRange (s : State) (a b n : Nat) : State :=
  let hit (x : Nat) (w : Nat) : Bool := decide (x ≤ w * 32) && decide (w * 32 < x + n)
  { s with mem := Memory.paste s.mem b n (Memory.cut s.mem a n),
           bad := (s.bad.filter (hit a)).map (fun w => w - a / 32 + b / 32) ++ s.bad.filter (fun w => !hit b w),
           soft := s.soft.filter (fun e => !hit b (e.1 % 0x1000000000000000)) }

/-- The array as its record holds it: in a layout that the spec does not give, so that its bytes are free (R284; assumption 43). -/
def arrayRecord (fresh : Nat) : List Byte := (List.range 32768).map (fun i => Config.freeByte fresh i)

/-- A task's state written to its place in the pool or the reserve (R346). -/
def State.writeSaved (s : State) (c k base : Nat) : State :=
  let x := s.ctxAt c k
  let b := x.bind
  let js := k :: b.notify
  let ps := s.savedParts c k
  let y := s.coreAt c
  let rep := if y.running = some k then y.replay else x.replay
  let s := (List.zip (List.range js.length) js).foldl (fun (t : State) j =>
    let z := { (t.ctxAt c j.2) with pend := (t.ctxAt c j.2).shadow ++ (t.ctxAt c j.2).pend }
    { (t.putBytes (base + 20480 * j.1) (z.image t.fresh ++ z.imageTail (rep.isSome && j.2 == k))) with fresh := t.fresh + 1 }) s
  let s := s.copyRange (scratchPA c + b.spanBase) (base + partAt ps 1) (spanRound b.spanBytes)
  let lanes := (List.range 128).flatMap (fun j => y.lanes.readBytes (j * 2048 + b.privBase) b.privBytes)
  let s := s.putBytes (base + partAt ps 2) lanes
  let s := if b.array then { (s.putBytes (base + partAt ps 3) (arrayRecord s.fresh)) with fresh := s.fresh + 1 } else s
  let s := if b.latchUse then s.putBytes (base + partAt ps 4) (padded 16384 y.latch0.data ++ padded 16384 y.latch1.data) else s
  let s := match rep with
    | some r => { (s.putBytes (base + partAt ps 5) (r.bytes s.fresh)) with fresh := s.fresh + 1 }
    | none => s
  (js.foldl (fun (a : State × Nat) j =>
    let z := a.1.ctxAt c j
    let n := 512 * z.blocks.length
    (a.1.copyRange (scratchPA c + 0x178000 + 512 * z.vbase) (base + a.2) n, a.2 + n)) (s, partAt ps 6)).1

/-- One task of a unit saved (R346): its state leaves its core for `at`, its tokens and splice ends go with it. -/
def State.saveOne (s : State) (q : Nat) (pool : Bool) (at_ : Nat) (e : Entry) (c k : Nat) : State :=
  let x := s.ctxAt c k
  let b := x.bind
  let n := s.saveKey
  let bytes := s.savedBytes c k
  let js := k :: b.notify
  let a := js.foldl (fun (a : State × List EngOp) j => let r := a.1.parkOps c j; (r.1, a.2 ++ r.2)) (s, [])
  let s := a.1.flushSpace c b.asn
  let parts := s.savedParts c k
  let s := s.writeSaved c k at_
  let base := scratchPA c + b.spanBase
  let len := spanRound b.spanBytes
  let y := s.coreAt c
  let bars := s.barsOf c k
  let v : Saved :=
    { ctx := { ((y.ctx k).stored) with replay := if y.running = some k then y.replay else (y.ctx k).replay },
      nots := b.notify.map (fun j => (y.ctx j).stored),
      place := (e.places.find? (fun p => p.core == c && p.ctx == k)).getD { core := c, ctx := k },
      base := at_, parts := parts,
      tags := (s.tags.filter (fun t => decide (base ≤ t.1 * 512) && decide (t.1 * 512 < base + len))).map (fun t => (t.1 - base / 512, t.2)),
      arr := if b.array then some y.arr else none,
      latch0 := if b.latchUse then y.latch0 else {},
      latch1 := if b.latchUse then y.latch1 else {},
      parked := a.2, bars := bars, q := q,
      units := if pool then (bytes + 65535) / 65536 else 0,
      reserve := if pool then 0 else bytes }
  let s : State := { s with thyme := { s.thyme with saved := s.thyme.saved.put n v, reserve := s.thyme.reserve + v.reserve } }
  let s := s.modLq q (fun l => { l with spused := l.spused + v.units })
  let s : State := { s with bars := s.bars.filter (fun r => !(bars.any (fun o => o.1 == r.1))) }
  let s := (s.rebase base (limbo n) len).moveEnds (fun e => if e.core = c ∧ js.contains e.ctx then { e with core := 1000 + n } else e)
  js.foldl (fun (t : State) j => t.freeCtx b.lkey b.entryIx c j) s

/-- A unit that cannot be saved for want of room goes on where it is (R362, R400); one that its pre-emption has escalated goes on with its
replay record and its shadow entries, as after a restore (R214). -/
def State.unsaved (s : State) (c k : Nat) (ms : List (Nat × Nat)) : State :=
  let s := ms.foldl (fun (t : State) (m : Nat × Nat) =>
    (m.2 :: (t.ctxAt m.1 m.2).bind.notify).foldl (fun (t : State) j => t.modCtx m.1 j (fun x =>
      { x with preempt := none, status := if x.status = .held then .ready else x.status })) t) s
  match (s.ctxAt c k).bind.gang, s.gangOf (s.ctxAt c k) with
  | some n, some g => s.setGang n { (g.stopped.foldl (fun (h : Gang) (e : Nat × GState) => h.setMember e.1 e.2) g) with stopped := [], preempt := false }
  | _, _ => s

/-- The units among some tasks, each by its first member. -/
def State.heads (s : State) (ms : List (Nat × Nat)) : List (Nat × Nat) := ms.filter (fun m => (s.unitCtxs m.1 m.2).head? == some m)

/-- One unit saved with its notify contexts (R326, R346), where there is room for it. -/
def State.saveUnit (s : State) (must : Bool) (c k : Nat) : Option State :=
  let b := (s.ctxAt c k).bind
  let ms := s.unitCtxs c k
  match s.entryAt b.lkey b.entryIx with
  | none => none
  | some (l, e) =>
    match s.saveRoom must l.src.q ms with
    | none => none
    | some (pool, os) =>
      let s := (List.zip ms os).foldl (fun (t : State) (m : (Nat × Nat) × Nat) => t.saveOne l.src.q pool m.2 e m.1.1 m.1.2) s
      (s.entryAt b.lkey b.entryIx).map (fun a => s.setEntry b.lkey b.entryIx { a.2 with st := .saved, places := [] })

/-- Some units saved one after another: all of them, or none. -/
def State.saveUnits (must : Bool) : List (Nat × Nat) → State → Option State
  | [], s => some s
  | m :: r, s => match s.saveUnit must m.1 m.2 with
    | some t => t.saveUnits must r
    | none => none

/-- Thyme has asked for a task, or it has escalated. -/
def State.asked (s : State) (c k : Nat) : Bool := (s.ctxAt c k).preempt.isSome || (s.ctxAt c k).status == .held

/-- CONTEXT_SAVE: Thyme saves a stopped or escalated task, with its notify contexts and all that migrate together with it, which it first asks for
(R180, R326, R346). A task that took LINK_DOWN, or whose core does not answer, is lost instead, and so is one that has escalated and for which
there is no room. -/
def execContextSave (c k : Nat) (s : State) : Out :=
  let k := s.taskCtx c k
  let x := s.ctxAt c k
  let us := s.unitCtxs c k
  let ms := s.together c k
  let must := s.mustSave ms
  if x.status = .free ∨ 4 ≤ k then idle s
  else if x.status = .held ∧ x.cause.esc ∧ !x.escalating ∧ x.cause.cause.toNat = Cause.linkDown.code then .next (s.loseTask c k false)
  else if !us.all (fun m => s.stopped m.1 m.2) || !us.any (fun m => s.asked m.1 m.2) then idle s
  else if ms.any (fun m => !us.contains m && !s.asked m.1 m.2) then
    .next ((ms.filter (fun m => !us.contains m && !s.asked m.1 m.2)).foldl (fun (t : State) (m : Nat × Nat) => t.ask m.1 m.2) s)
  else if !ms.all (fun m => s.savable ms m.1 m.2) ||
      (s.heads ms).any (fun h => (s.unitCtxs h.1 h.2).all (fun m => (s.ctxAt m.1 m.2).finishing)) then idle s
  else match s.saveUnits must (s.heads ms) with
    | some t => .next t
    | none =>
      if decide (2 ≤ s.worstWear ms) && ms.any (fun m => (s.ctxAt m.1 m.2).status == .held) then idle s
      else
        match ms.find? (fun m => (s.ctxAt m.1 m.2).status == .held && (s.ctxAt m.1 m.2).preempt.isNone) with
        | some m =>
          let rest := (s.heads ms).filter (fun h => !(s.unitCtxs m.1 m.2).contains h)
          .next ((rest.foldl (fun (t : State) (h : Nat × Nat) => t.unsaved h.1 h.2 (s.unitCtxs h.1 h.2)) s).loseTask m.1 m.2 false)
        | none => .next ((s.heads ms).foldl (fun (t : State) (h : Nat × Nat) => t.unsaved h.1 h.2 (s.unitCtxs h.1 h.2)) s)

/-- The saved tasks of an entry, by member. -/
def State.savedOf (s : State) (lk ix : Nat) : List (Nat × Saved) :=
  let vs := s.thyme.saved.filter (fun e => e.2.ctx.bind.lkey == lk && e.2.ctx.bind.entryIx == ix)
  (List.range 4).flatMap (fun m => vs.filter (fun e => e.2.ctx.bind.member == m))

/-- A context restored at its new place (R89, R214): it begins with an expansion stall, and its splice-in queues send their heads. -/
def Ctx.restored (x : Ctx) (p : Place) (old : Ctx) : Ctx :=
  { x with act := old.act, charge := old.charge,
           bind := { x.bind with spanBase := p.span, privBase := p.priv, notify := if x.bind.isNotify then [] else p.nots },
           q := x.q.map (fun e => (e.1, { e.2 with headDue := e.2.headDue || e.2.mode == .spliceIn })),
           frames := x.frames.map (fun f => { f with bars := f.bars.map (fun b => ((1024 + p.core) * 64 + b.1 % 64, b.2)) }) }

/-- The receiver of a restored producer sends its head at once (R89). -/
def State.headAtOnce (s : State) (d : QDesc) : State :=
  if d.mode = .spliceOut ∧ (s.qEnd d.partner).mode = .spliceIn then s.modEnd d.partner (fun r => { r with headDue := true, nextHead := s.cycle }) else s

/-- One saved task put at a place (R346). -/
def State.restoreOne (s : State) (n : Nat) (v : Saved) (p : Place) : State :=
  let b := v.ctx.bind
  let len := spanRound b.spanBytes
  let base := p.base
  let go (pa : Nat) : Nat := let o := v.place.base; if o ≤ pa ∧ pa < o + len then base + (pa - o) else pa
  let at_ (i : Nat) : Nat := v.base + partAt v.parts i
  let s := s.copyRange (at_ 1) base len
  let m := s.mem
  let tags := s.tags.filter (fun t => !(decide (base ≤ t.1 * 512) && decide (t.1 * 512 < base + len)))
  let s : State := { s with tags := v.tags.foldl (fun (t : Tab Byte) (e : Nat × Byte) => t.put (base / 512 + e.1) e.2) tags }
  let latch (l : GLatch) (i : Nat) : GLatch :=
    { l with filled := l.filled.map (fun f => (p.ctx, f.2)), data := m.readBytes (at_ 4 + 16384 * i) l.data.length }
  let xs := v.ctx :: v.nots
  let offs := (List.range xs.length).map (fun i => 512 * ((xs.take i).flatMap (fun x => x.blocks)).length)
  let back (i : Nat) (x : Ctx) : Ctx :=
    let im := Memory.cut m (v.base + 20480 * i) 20480 ++ (Memory.cut m (at_ 6 + offs.getD i 0) (512 * x.blocks.length)).map (fun e => (e.1 + 20480, e.2))
    (x.ofImage im).ofTail im 20480
  let lanes := Memory.cutSlices (Memory.cut m (at_ 2) (128 * b.privBytes)) b.privBytes
  let js := List.zip p.nots (List.zip (List.range v.nots.length) v.nots)
  let s := s.modCore p.core (fun y =>
    let y := y.modCtx p.ctx (fun old => (back 0 v.ctx).restored p old)
    let y := js.foldl (fun (y : Core) (j : Nat × Nat × Ctx) => y.modCtx j.1 (fun old => (back (j.2.1 + 1) j.2.2).restored p old)) y
    let y := { y with lanes := Memory.pasteLanes y.lanes p.priv b.privBytes lanes }
    let y := match v.arr with | some a => { y with arr := a } | none => y
    let y := if b.latchUse then { y with latch0 := latch v.latch0 0, latch1 := latch v.latch1 1 } else y
    if v.ctx.finishing then { y with running := some p.ctx, replay := v.ctx.replay, freeze := y.freeze ++ [.finish] } else y)
  let s := v.bars.foldl (fun (t : State) (e : Nat × BarSlot) => t.setBar ((1024 + p.core) * 64 + e.1 % 64) e.2) s
  let ctxOf (k : Nat) : Nat := if k = v.place.ctx then p.ctx
    else (((List.zip v.place.nots p.nots).find? (fun e => e.1 == k)).map (fun e => e.2)).getD p.ctx
  let s := ((s.mapMoved v.place.base len (some base)).rebase (limbo n) base len).moveEnds (fun e => if e.core = 1000 + n then { e with core := p.core, ctx := ctxOf e.ctx } else e)
  let s := (p.ctx :: p.nots).foldl (fun (t : State) k => (t.ctxAt p.core k).q.foldl (fun (t : State) e => t.headAtOnce e.2) t) s
  v.parked.foldl (fun (t : State) (o : EngOp) => match o.body with
    | .sparse x =>
      let x := x.parked go
      let comp := o.comp.map go
      let cur := t.cur
      let eng := ({ t with cur := p.core } : State).engages [x.src] comp
      let o : EngOp := { o with core := p.core, ctx := ctxOf o.ctx, comp := comp, engaged := eng, body := .sparse x }
      { t with ops := t.ops.put t.seq o, seq := t.seq + 1, cur := cur,
               own := { t.own with engaged := t.own.engaged ++ eng.map (fun b => (b, o.party)) } }
    | _ => t) s

/-- A restored gang on its new cores: its members are in the states that they were saved in (R326); QUAD slots of the launch follow it to
another quad. -/
def State.restoreGang (s : State) (n : Nat) (vs : List (Nat × Saved)) (ps : List Place) : State :=
  match Tab.find s.gangs n with
  | some g =>
    let back := g.stopped.foldl (fun (h : Gang) (e : Nat × GState) => h.setMember e.1 e.2) g
    let marks := ps.map (fun p => (s.coreAt p.core).asd + 6)
    let s := s.setGang n { back with members := ps.map (fun p => (p.core, p.ctx)), stopped := [], preempt := false,
                                     owed := g.owed.map (fun o => if o.last.isSome then { o with beats := marks } else o) }
    (match vs, ps with
     | (_, v) :: _, p :: _ =>
       let old := v.place.core / 4
       let new := p.core / 4
       if old = new then s
       else
         let hit (e : Nat × BarSlot) : Bool := e.1 / 64 == 2048 + old && e.2.launch == v.ctx.bind.launch
         (s.bars.filter hit).foldl (fun (t : State) (e : Nat × BarSlot) => t.setBar ((2048 + new) * 64 + e.1 % 64) e.2)
           { s with bars := s.bars.filter (fun e => !hit e) }
     | _, _ => s)
  | none => s

/-- A saved state that waits in the migration reserve moves into its queue's pool once that has room (R362). -/
def State.moveIn (s : State) (q : Nat) : State :=
  s.thyme.saved.foldl (fun (t : State) (e : Nat × Saved) =>
    let n := (e.2.reserve + 65535) / 65536
    let l := t.lq q
    match (if e.2.q = q ∧ 0 < e.2.reserve ∧ l.spused + n ≤ l.spsize then firstHole n l.spsize (t.poolUsed (some q)) else none) with
    | some o =>
      let pa := l.spbase + 65536 * o
      let t := (t.copyRange e.2.base pa e.2.reserve).modLq q (fun l => { l with spused := l.spused + n })
      { t with thyme := { t.thyme with saved := t.thyme.saved.put e.1 { e.2 with base := pa, units := n, reserve := 0 },
                                       reserve := t.thyme.reserve - e.2.reserve } }
    | none => t) s

/-- Saved states leave the migration reserve for the pools that have gained room (R362). -/
def State.leaveReserve (s : State) : Out :=
  .next (((s.thyme.saved.map (fun v => v.2.q)).eraseDups).foldl (fun (t : State) q => t.moveIn q) s)

/-- A region of the span of saved task `v` is held or shared by saved task `w` (R180). -/
def State.savedLends (s : State) (v w : Nat × Saved) : Bool :=
  let p := w.2.ctx.bind.party
  v.1 != w.1 && s.own.regions.any (fun e => decide (limbo v.1 ≤ e.1) && decide (e.1 < limbo v.1 + 0x200000) && (e.2.owner == p || s.own.sharer e.1 p))

/-- Saved units, as (launch, entry), with those that hold regions of their spans or lend them some, and so on. -/
def State.savedTogether (s : State) : Nat → List (Nat × Nat) → List (Nat × Nat)
  | 0, us => us
  | f + 1, us =>
    let vs := s.thyme.saved.filter (fun v => us.contains (v.2.ctx.bind.lkey, v.2.ctx.bind.entryIx))
    let more := (s.thyme.saved.filter (fun w => vs.any (fun v => s.savedLends v w || s.savedLends w v))).map (fun w => (w.2.ctx.bind.lkey, w.2.ctx.bind.entryIx))
    let all := (us ++ more).eraseDups
    if all.length = us.length then us else s.savedTogether f all

/-- A saved unit restored at a place that R339 gives, which begins at `at_` where one is named; none where it has no place. -/
def State.restoreUnit (s : State) (lk ix : Nat) (at_ : Option (Nat × Nat)) : Option State :=
  let vs := s.savedOf lk ix
  match s.entryAt lk ix, vs with
  | some (l, e), (_, v) :: _ =>
    match s.placeAfresh l ix e with
    | none => none
    | some ps =>
      let ps := (List.zip ps vs).map (fun (p : Place × Nat × Saved) => { p.1 with party := p.2.2.ctx.bind.party })
      if ps.length ≠ vs.length ∨ !ps.all s.placeFree ∨ (at_.isSome && ps.head?.map (fun p => (p.core, p.ctx)) != at_) then none
      else
        let s := (List.zip vs ps).foldl (fun (t : State) (m : (Nat × Saved) × Place) => t.restoreOne m.1.1 m.1.2 m.2) s
        let s := match v.ctx.bind.gang with | some g => s.restoreGang g vs ps | none => s
        let s := vs.foldl (fun (t : State) (m : Nat × Saved) =>
          (({ t with thyme := { t.thyme with saved := t.thyme.saved.drop m.1, reserve := t.thyme.reserve - m.2.reserve } } : State).modLq m.2.q
            (fun q => { q with spused := q.spused - m.2.units }))) s
        some (s.setEntry lk ix { e with st := .running, places := ps })
  | _, _ => none

def State.restoreUnits : List (Nat × Nat) → State → Option State
  | [], s => some s
  | u :: r, s => match s.restoreUnit u.1 u.2 none with
    | some t => t.restoreUnits r
    | none => none

/-- CONTEXT_RESTORE: Thyme restores saved task `n`, and with it the rest of its gang and the tasks that migrate together with it (R180), at the place that
R339 gives, which begins at context `k` of core `c`; the room it took is free again (R346, R362). -/
def execContextRestore (n c k : Nat) (s : State) : Out :=
  match Tab.find s.thyme.saved n with
  | none => idle s
  | some v =>
    let u := (v.ctx.bind.lkey, v.ctx.bind.entryIx)
    let rest := (s.savedTogether 1536 [u]).filter (fun w => w != u)
    match (s.restoreUnit u.1 u.2 (some (c, k))).bind (State.restoreUnits rest) with
    | some t => .next t
    | none => idle s

end Sys2Proof.Machine
end

