-- ==== Sys2Proof/Machine/Wear.lean ====
section
/-!
DEFINITION. Wear and lifetime (R348 to R362): SAMPLE_INTERVAL, the states of a core and what follows from them, CLOCK_SWITCH,
CLOCK_SWITCH_END, SCRATCHPAD_SWEEP, SAGE_COMMIT, and a core that does not answer.
-/
namespace Sys2Proof.Machine

/-- kT of a temperature in 1/1000 of a degree (R350). -/
def kTemp (t : Int) : Nat :=
  if t < 60000 then 128 else if t < 70000 then 256 else if t < 80000 then 512 else if t < 90000 then 1024
  else if t < 100000 then 2048 else 4096

/-- kV of a supply in microvolts (R350). -/
def kVolt (v : Nat) : Nat :=
  if v < 675000 then 256 else if v < 725000 then 512 else if v < 775000 then 1024 else if v < 825000 then 2048 else 4096

/-- The stress factor of an interval (R350). -/
def stress (act : Nat) (r : Sample) : Nat :=
  let a := 102 + 922 * act / 1200000
  max (a * kTemp r.temp * kVolt r.volt / 2 ^ 20) (max r.eSup r.eBus * kTemp r.temp / 1024)

/-- The mean of some readings of one oscillator. -/
def meanOf (l : List Int) : Int := if l.isEmpty then 0 else l.foldl (fun a b => a + b) 0 / (l.length : Int)

/-- The margin from the last readings of the four oscillators, newest first (R349). -/
def marginOf (hist : List (List Int)) : Nat :=
  let ms := (List.range 4).map (fun i => meanOf (hist.map (fun r => r.getD i 0)))
  (ms.foldl (fun (a : Int) b => if b < a then b else a) (ms.headD 0)).toNat

/-- The part of an interval's wear that a context receives (R352). -/
def shareOf (f act : Nat) : Nat := f * act / 1200000

/-- Lifetime wear in 1/1024 WU (R351). -/
def Sage.life (r : Sage) : Nat := r.wufine / 3600000

/-- A record after one interval: wear, margin, EMMAX, hours and the idle account (R349, R351, R352, R354). -/
def Sage.charged (r : Sage) (f idle : Nat) (x : Sample) : Sage :=
  let h := (x.ro :: r.hist).take 16
  { r with wufine := r.wufine + f, margin := marginOf h, hist := h, emmax := max r.emmax (max x.eSup x.eBus), idle := r.idle + idle,
           poh := if r.part + 1 = 3600000 then r.poh + 1 else r.poh, part := if r.part + 1 = 3600000 then 0 else r.part + 1 }

/-- A record moved to a state, where that is further on, with the cause of leaving NOMINAL (R356). -/
def Sage.movedTo (r : Sage) (st cause : Nat) : Sage :=
  if r.st < st then { r with st := st, cause := if r.cause = 0 then cause else r.cause } else r

/-- A core that fails goes straight to RETIRING with CAUSE FAILED (R356). -/
def Sage.fails (r : Sage) : Sage := if r.st < 3 then { r with st := 3, cause := 3, failed := true } else { r with failed := true }

/-- The evaluation of a record at the end of an interval, or at power-up (R356). `free` says that every context of the core is FREE. -/
def Sage.evaluated (r : Sage) (failed free : Bool) : Sage :=
  let m6 := decide (r.margin ≤ 600)
  let m2 := decide (r.margin ≤ 200)
  let r' := if 87040000 ≤ r.life then r.movedTo 1 1 else if m6 && r.low6 then r.movedTo 1 2 else r
  let r' := if 97280000 ≤ r.life then r'.movedTo 2 1 else r'
  let r' := if failed then r'.fails
    else if 102400000 ≤ r.life then r'.movedTo 3 1 else if m2 && r.low2 then r'.movedTo 3 2 else if r.admin then r'.movedTo 3 4 else r'
  let r' := if r'.st = 3 ∧ free then { r' with st := 4 } else r'
  { r' with low6 := m6, low2 := m2 }

/-- Every context of a core is FREE. -/
def Core.allFree (c : Core) : Bool := c.ctxs.all (fun e => decide (4 ≤ e.1) || e.2.status == .free)

/-- The task contexts of a core that are bound, notify contexts apart. -/
def State.tasksOn (s : State) (c : Nat) : List Nat :=
  ((s.coreAt c).ctxs.filter (fun e => decide (e.1 < 4) && e.2.status != .free && !e.2.bind.isNotify)).map (fun e => e.1)

/-- A TIGHT entry whose core has become derated (R359): Thyme asks for its instance, or journals once that it stays. -/
def State.tightOn (s : State) (c k : Nat) : State :=
  let b := (s.ctxAt c k).bind
  match s.entryAt b.lkey b.entryIx with
  | some (l, e) =>
    if !(teOf e.bits).tight then s
    else if (s.placeAfresh l b.entryIx e).isSome && s.mayPreempt (s.together c k) then
      (match execPreemptionRequest c k s with | .next t => t | _ => s)
    else if e.tight then s
    else (s.setEntry b.lkey b.entryIx { e with tight := true }).journalAdd 9 (c / 96) c
      (fld l.party.toNat 0 20 + b.entryIx % 65536 * 2 ^ 32 + e.frame % 2 ^ 32 * 2 ^ 64 + c * 2 ^ 96)
  | none => s

/-- Thyme asks for every context of a core that is drained or retired (R360, R361). -/
def State.drain (s : State) (c : Nat) : State :=
  (s.tasksOn c).foldl (fun (t : State) k => match execPreemptionRequest c k t with | .next u => u | _ => t) s

/-- What follows from a core's new state: the journal, the capability list's UPDATE entry, the clock signal, migrations (R356 to R361,
R407, R409). -/
def State.wearStep (s : State) (c old : Nat) : State :=
  let r := s.sageOf c
  if r.st = old then s
  else
    let s := (s.journalAdd 7 (c / 96) c (openPayload 7 [c, r.st, r.cause])).journalAdd 10 0xFF 0xFFFF 4
    let s := if old = 0 then s.modCore c (fun y => if y.slow then y else { y with slowDue := true, slowOld := true }) else s
    if r.st = 1 then (s.tasksOn c).foldl (fun (t : State) k => t.tightOn c k) s
    else if r.st ≤ 3 then s.drain c
    else (s.mapMoved (scratchPA c) 0x178000 none).destroyRange (scratchPA c) 0x178000 true

def State.setSage (s : State) (c : Nat) (r : Sage) : State := { s with sage := s.sage.put c r }

/-- A sample interval of a core has ended on CYCLE that Sage has not read yet (R348). A retired core has none. -/
def State.sampleDue (s : State) (c : Nat) : Bool :=
  (s.sageOf c).st != 4 && decide (c < 384) && decide (Tab.get 0 s.ivals c < s.cycle / 1200000)

/-- SAMPLE_INTERVAL: an interval of a core ends: its wear is measured, charged and evaluated (R348 to R356). -/
def execSampleInterval (c : Nat) (r : Sample) (s : State) : Out :=
  let old := s.sageOf c
  if !s.sampleDue c then idle s
  else
    let y := s.coreAt c
    let s : State := { s with ivals := s.ivals.put c (Tab.get 0 s.ivals c + 1) }
    let f := stress y.act r
    let parts := (List.range 4).map (fun k => shareOf f (y.ctx k).act)
    let s := s.modCore c (fun y =>
      { y with act := 0, ctxs := y.ctxs.map (fun e => if e.1 < 4 then (e.1, { e.2 with act := 0, charge := e.2.charge + shareOf f e.2.act }) else e) })
    let n := (old.charged f (f - parts.foldl (fun a b => a + b) 0) r).evaluated (y.failed || old.failed) y.allFree
    .next ((s.setSage c n).wearStep c old.st)

/-- A sample interval that ends with no reading named: what the sensors show is free (assumption 98). -/
def execSampleFree (c : Nat) (s : State) : Out :=
  let n (i : Nat) : Nat := Config.freeNat s.fresh i
  let z (i : Nat) : Int := (n i : Int) - (n (i + 1) : Int)
  execSampleInterval c { ro := [z 0, z 2, z 4, z 6], eSup := n 8 % 65536, eBus := n 9 % 65536, temp := z 10, volt := n 12 } { s with fresh := s.fresh + 1 }

/-- The members of the running gang on a core, with the leader first; else the core's own running context. -/
def State.clockUnit (s : State) (c : Nat) : List (Nat × Nat) :=
  match s.coreGang c with
  | some (_, g, _) => g.members
  | none => (match (s.coreAt c).running with | some k => [(c, k)] | none => [])

/-- CLOCK_SWITCH: a core signalled by Sage switches to 1.0 GHz at a stop point that issued after the signal, or at once where nothing
runs or is HELD; a gang switches at its leader's (R358). The switch holds issue for 240 cycles; writes encode DEC-TED from now on. -/
def execClockSwitch (c : Nat) (s : State) : Out :=
  let y := s.coreAt c
  let unit := s.clockUnit c
  let quiet := unit.isEmpty && y.ctxs.all (fun e => e.2.status != .held)
  let at_ := match unit with
    | (d, k) :: _ => let z := s.coreAt d
      (z.ctx k).atStop && !z.slowOld && z.held.isNone && (z.ctx k).status == .running && !z.freeze.contains .fault
    | [] => false
  if y.slowDue && (quiet || at_) then
    let cs := (c :: unit.map (fun m => m.1)).eraseDups
    let s := cs.foldl (fun (t : State) d => t.modCore d (fun y =>
      { y with clkHold := 240, clkPend := true, freeze := if y.freeze.contains .clock then y.freeze else y.freeze ++ [.clock] })) s
    .next (s.modCore c (fun y => { y with slow := true, slowDue := false, strong := true, sweep := 0 }))
  else idle s

/-- CLOCK_SWITCH_END: the hold of 240 cycles is over (R358). -/
def execClockSwitchEnd (c : Nat) (s : State) : Out :=
  let y := s.coreAt c
  if y.clkPend && y.clkHold == 0 then
    .next (s.modCore c (fun y => { y with clkPend := false, freeze := y.freeze.filter (fun f => !(f == .clock)) }))
  else idle s

/-- The blocks that a core's sweeper re-encodes: those of its scratchpad, then those of its lane-private slice (R7, R358). -/
def sweepBlocks : Nat := 3584

/-- SCRATCHPAD_SWEEP: the sweeper re-encodes the next block, correcting what its code corrects; ECCS is set with the last one (R358). -/
def execScratchpadSweep (c : Nat) (s : State) : Out :=
  let y := s.coreAt c
  if !y.strong || decide (sweepBlocks ≤ y.sweep) then idle s
  else
    let pa := scratchPA c + 512 * y.sweep
    let hit (w : Nat) : Bool := decide (y.sweep < 3072) && decide (pa ≤ w * 32) && decide (w * 32 < pa + 512) && !s.bad.contains w
    let s : State := { s with soft := s.soft.filter (fun e => !hit e.1) }
    let s := s.modCore c (fun y => { y with sweep := y.sweep + 1 })
    .next (if y.sweep + 1 = sweepBlocks then s.setSage c { s.sageOf c with eccs := true } else s)

/-- SAGE_COMMIT: every 2^30 ticks the lifetime records go to the non-volatile store (R355). -/
def execSageCommit (s : State) : Out :=
  if s.tick / 2 ^ 30 ≤ s.commits then idle s else .next { s with stored := s.sage, commits := s.commits + 1 }

/-- CORE_UNRESPONSIVE: the management controller finds a core unresponsive: it fails, goes to RETIRING, and its contexts are lost (R346,
R356, R361). -/
def execCoreUnresponsive (c : Nat) (s : State) : Out :=
  let old := s.sageOf c
  if 384 ≤ c ∨ old.st = 4 then idle s
  else
    let s := s.setSage c old.fails
    let s := s.modCore c (fun y => { y with out := true, failed := true })
    let s := (s.tasksOn c).foldl (fun (t : State) k => t.loseTask c k false) s
    let s := s.modCore c (fun y => { y with running := none, held := none, svcTimer := none, freeze := [], svcFreeze := [] })
    .next (s.wearStep c old.st)

end Sys2Proof.Machine
end

