-- ==== Sys2Proof/Machine/Channel.lean ====
section
/-!
DEFINITION. Memory channels (R364 to R378, R416): the service of bank requests with the activation trackers and their alerts,
refresh and patrol, the sweepers of L2 and chip scratchpad, the strength of slices, the registers' commands, and soft errors.
-/
namespace Sys2Proof.Machine

/-- The row number that marks a free tracker entry. -/
def freeRow : Nat := 65536

/-- The index of the first entry of a tracker for a row. -/
def trackIdx (t : List (Nat × Nat)) (row : Nat) : Option Nat :=
  ((List.zip (List.range t.length) t).find? (fun (e : Nat × Nat × Nat) => e.2.1 == row)).map (fun (e : Nat × Nat × Nat) => e.1)

/-- The index of the entry of least count, the lowest on a tie. -/
def trackLeast (t : List (Nat × Nat)) : Nat :=
  let l : List (Nat × Nat) := (List.zip (List.range t.length) t).map (fun (e : Nat × Nat × Nat) => (e.1, e.2.2))
  (l.foldl (fun (b : Nat × Nat) (e : Nat × Nat) => if e.2 < b.2 then e else b) (l.headD (0, 0))).1

/-- An activation in a tracker of 256 entries: the tracker after it, the entry's index and count (R371). -/
def track (t : List (Nat × Nat)) (row : Nat) : List (Nat × Nat) × Nat × Nat :=
  match trackIdx t row with
  | some i => let n := (t.getD i (0, 0)).2 + 1
    (t.set i (row, n), i, n)
  | none =>
    match trackIdx t freeRow with
    | some i => (t.set i (row, 1), i, 1)
    | none =>
      if t.length < 256 then (t ++ [(row, 1)], t.length, 1)
      else
        let i := trackLeast t
        let n := (t.getD i (0, 0)).2 + 1
        (t.set i (row, n), i, n)

/-- The rows that the refresh management of an alert refreshes (R372). -/
def victims (row : Nat) : List Nat :=
  ((if 2 ≤ row then [row - 2] else []) ++ (if 1 ≤ row then [row - 1] else []) ++ [row + 1, row + 2]).filter (fun r => decide (r < 65536))

def State.stackAt (s : State) (n : Nat) : Stack := Tab.get {} s.hbmStacks n

def State.setStack (s : State) (n : Nat) (x : Stack) : State := { s with hbmStacks := s.hbmStacks.put n x }

/-- The word at channel offset 0x08 of a stack (R374). -/
def Stack.alertWord (k : Stack) : Nat := k.row + k.bank * 2 ^ 16 + k.pch * 2 ^ 20 + k.chan * 2 ^ 21 + k.time * 2 ^ 32

/-- The alert of bank `n` by an activation now (R372, R374): the block follows when the access ends; the registers of the stack name the row, and the
controller's log has an entry. -/
def State.alert (s : State) (n row idx : Nat) : State :=
  let b := s.bankAt n
  let k := s.stackAt (n / 1024)
  let k := { k with alerts := (k.alerts + 1) % 2 ^ 32, row := row, bank := n % 16, pch := n / 16 % 2, chan := n / 32 % 32,
                    time := s.cycle % 2 ^ 32 }
  ((s.setBankAt n { b with alerting := some idx }).setStack (n / 1024) k).journalAdd 6 (n / 2048) 0xFFFF k.alertWord

/-- An activation of a row of bank `n` (R371). -/
def State.activate (s : State) (n row : Nat) : State :=
  let b := s.bankAt n
  let t := track b.track row
  let s := s.setBankAt n { b with track := t.1, row := some row, hits := 0, last := some s.cycle }
  if t.2.2 = 2048 then s.alert n row t.2.1 else s

/-- Bank `n` may be activated now: tRC has passed (R368), and the recovery of a write (R416). -/
def DBank.mayActivate (b : DBank) (now : Nat) : Bool :=
  decide (b.pre ≤ now) && (match b.last with | some t => decide (t + 56 ≤ now) | none => true)

/-- The block of an alert begins as the data of its access leaves, and lasts 420 cycles (R372). -/
def DBank.blocked (b : DBank) (now : Nat) : DBank :=
  match b.alerting with
  | some i => { b with alerting := none, block := some (now + 420, i), row := none }
  | none => b

/-- Words that the controller of a stack reads from HBM (R375): those with one or two flipped bits are corrected and counted in CE, the
uncorrectable ones are counted in UE. -/
def State.readWords (s : State) (stack : Nat) (pick : Nat → Bool) : State :=
  let hit (e : Nat × Nat) : Bool := decide (e.1 < 0x400000000) && pick e.1 && !s.bad.contains e.1
  let ce := (s.soft.filter hit).length
  let ue := (s.bad.filter (fun w => decide (w < 0x400000000) && pick w)).length
  let k := s.stackAt stack
  ({ s with soft := s.soft.filter (fun e => !hit e) } : State).setStack stack
    { k with ce := (k.ce + ce) % 2 ^ 32, ue := min 65535 (k.ue + ue) }

/-- The requests that have reached the controller (R369). -/
def DBank.ready (b : DBank) (now : Nat) : List BReq := b.queue.filter (fun e => decide (e.from_ ≤ now))

/-- The request that a bank serves next and whether it finds its row open: up to 8 in a row to the open row, else the oldest (R368). -/
def DBank.pick (b : DBank) (now : Nat) : Option (BReq × Bool) :=
  let queue := b.ready now
  match b.row, queue with
  | some r, q :: _ =>
    if b.hits < 8 then
      (match queue.find? (fun e => e.row == r) with
       | some e => some (e, true)
       | none => some (q, q.row == r))
    else some (q, q.row == r)
  | none, q :: _ => some (q, false)
  | _, [] => none

/-- The bank after an access that ends in cycle `now`: its row stays open only while a request to it is queued (R368). -/
def DBank.served (b : DBank) (e : BReq) (now : Nat) : DBank :=
  let b : DBank := { b with queue := b.queue.erase e, serving := none }
  { b with row := if (b.ready now).any (fun x => x.row == e.row) then some e.row else none }

/-- The cycles of a request from its first command, behind the activation, to its end: the data leaving the controller, or the last byte written
(R369, R416). -/
def BKind.cycles : BKind → Nat
  | .read => 28
  | .write => 8
  | .merge => 28 + 2 + 8

/-- A read finds words with flipped bits, which the controller corrects and writes back before the bank's next request (R375). -/
def State.corrects? (s : State) (e : BReq) : Bool := e.kind != .write && s.soft.any (fun f => f.1 / 4 == e.line && !s.bad.contains f.1)

/-- The request that bank `n` serves ends in cycle `d` (R368, R372, R375, R416). -/
def State.bankDone (s : State) (n : Nat) (e : BReq) (d : Nat) : State :=
  let fix := s.corrects? e
  let b := ((s.bankAt n).served e d).blocked d
  let w := if fix then d + 8 else d
  let b := { b with busy := max b.busy w, pre := if e.kind != .read || fix then w + 24 else b.pre,
                    left := if e.kind = .read then Tab.put (b.left.filter (fun l => decide (d < l.2 + 180))) e.line d else b.left }
  let s := s.setBankAt n b
  if e.kind = .write then s else s.readWords (n / 1024) (fun w => w / 4 == e.line)

/-- BANK_ACCESS: bank `n` begins to serve a queued request, activating its row if needed, tRCD before its first command; or the request that it
serves has ended (R368, R369, R371, R375, R416). -/
def execBankAccess (n : Nat) (s : State) : Out :=
  let b := s.bankAt n
  match b.serving with
  | some (e, d) => if s.cycle < d then idle s else .next (s.bankDone n e d)
  | none =>
    if b.block.isSome || decide (s.cycle < b.busy) then idle s
    else match b.pick s.cycle with
      | none => idle s
      | some (e, hit) =>
        if !hit && !b.mayActivate s.cycle then idle s
        else
          let s := if hit then s else s.activate n e.row
          let b := s.bankAt n
          let t := s.cycle + (if hit then 0 else 20) + e.kind.cycles
          .next (s.setBankAt n { b with serving := some (e, t), hits := if hit && b.hits < 8 then b.hits + 1 else 0 })

/-- ALERT_BLOCK_END: the block of bank `n` ends; the rows beside the aggressor have been refreshed and its entry holds 0 (R372). -/
def execAlertBlockEnd (n : Nat) (s : State) : Out :=
  let b := s.bankAt n
  match b.block with
  | some (t, i) =>
    if s.cycle < t then idle s
    else
      let row := (b.track.getD i (0, 0)).1
      let k := s.stackAt (n / 1024)
      .next ((s.setBankAt n { b with block := none, track := b.track.set i (row, 0) }).setStack (n / 1024)
        { k with vict := (k.vict + (victims row).length) % 2 ^ 32 })
  | none => idle s

/-- A background command may reach bank `n`: no request is queued, no block, no other background command (R370). -/
def State.quietBank (s : State) (n : Nat) : Bool :=
  let b := s.bankAt n
  (b.ready s.cycle).isEmpty && b.block.isNone && decide (b.busy ≤ s.cycle) && decide (b.pre ≤ s.cycle)

/-- REFRESH: a due refresh of bank `n` covers its next 8 rows, frees the entries of the tracked rows among them, and holds the bank
for 144 cycles (R364, R370, R371). One falls due in every 4,687.5 cycles. -/
def execRefresh (n : Nat) (s : State) : Out :=
  let b := s.bankAt n
  if n < 8192 ∧ s.quietBank n = true ∧ b.done < s.cycle * 2 / 9375 then
    .next (s.setBankAt n { b with pos := (b.pos + 1) % 8192, done := b.done + 1, busy := s.cycle + 144, row := none,
                                  track := b.track.map (fun (e : Nat × Nat) => if e.1 < freeRow ∧ e.1 / 8 = b.pos then (freeRow, 0) else e) })
  else idle s

/-- PATROL_SCRUB: the patrol of a stack reads and corrects its next row, every 1,048,576 cycles while SCRUBEN is set (R376). -/
def execPatrolScrub (stack : Nat) (s : State) : Out :=
  let k := s.stackAt stack
  let n := stack * 1024 + k.prow / 65536
  let row := k.prow % 65536
  let b := s.bankAt n
  if stack < 8 ∧ k.scruben = true ∧ k.next ≤ s.cycle ∧ s.quietBank n = true ∧ b.mayActivate s.cycle = true then
    let s := s.activate n row
    let s := s.setBankAt n { (s.bankAt n).blocked (s.cycle + 48) with busy := s.cycle + 56, row := none }
    let s := s.readWords stack (fun w => dbankOf (w * 32) == n && rowOfPA (w * 32) == row)
    let k := s.stackAt stack
    .next (s.setStack stack { k with prow := (k.prow + 1) % 2 ^ 26, next := (s.cycle / 1048576 + 1) * 1048576,
                                     passes := (k.passes + (k.prow + 1) / 2 ^ 26) % 2 ^ 32 })
  else idle s

/-- The words of a slice's share of L2 and chip scratchpad (R7, R8, R377): 2,097,152 and 1,572,864 words over 96 slices. -/
def shareWords : Nat := 38230

/-- A word of the table of flipped bits lies in the share of a slice. -/
def State.inShare (s : State) (die slice key : Nat) : Bool :=
  let w := key % 0x1000000000000000
  (decide (0x1000000000000000 ≤ key) || (match s.targetOf (w * 32) with | .chip _ => true | _ => false)) &&
    s.homeDie (w * 32) == die && sliceOf (w * 32) == slice

/-- L2_SWEEP: the sweeper of a slice reads, corrects and re-encodes its next word (R377). Which word of its share lies at which
position is open, so the first word with a flipped bit is the one it meets (DEDUCED). At the end of a pass the count of corrected
words begins again, and a slice at DEC-TED has finished re-encoding. -/
def execL2Sweep (die slice : Nat) (s : State) : Out :=
  if die ≥ 4 ∨ slice ≥ 96 then idle s
  else
    let hit := s.soft.find? (fun (e : Nat × Nat) => s.inShare die slice e.1 && !s.bad.contains (e.1 % 0x1000000000000000))
    let s := match hit with | some e => s.correctWord e.1 (e.1 % 0x1000000000000000) | none => s
    let d := s.dieAt die
    let p := Tab.get 0 d.sweep slice + 1
    if p < shareWords then .next (s.setDie die { d with sweep := d.sweep.put slice p })
    else .next (s.setDie die { d with sweep := d.sweep.put slice 0, corrected := d.corrected.put slice 0,
                                      done := if d.strong.contains slice && !d.done.contains slice then slice :: d.done else d.done })

/-- CHANNEL_CLR: 1 is written to CLR of a stack (R374). -/
def execChannelClr (h stack : Nat) (s : State) : Out :=
  if s.hostPriv h = true ∧ stack < 8 then
    .next (s.setStack stack { s.stackAt stack with alerts := 0, vict := 0, ce := 0, ue := 0 })
  else idle s

/-- Every slice of a die moves to DEC-TED, which the capability list shows (R378, R409). -/
def State.forceStrong (s : State) (die : Nat) : State :=
  let d := s.dieAt die
  let new := (List.range 96).filter (fun i => !d.strong.contains i)
  let s := if new.isEmpty then s else s.journalAdd 10 0xFF 0xFFFF 4
  s.setDie die { d with strong := d.strong ++ new, done := d.done.filter (fun i => !new.contains i),
                        sweep := new.foldl (fun (t : Tab Nat) i => t.put i 0) d.sweep }

/-- FORCE: 1 is written to FORCE of a die (R378). -/
def execForce (h die : Nat) (s : State) : Out := if s.hostPriv h = true ∧ die < 4 then .next (s.forceStrong die) else idle s

/-- The bits in error that the code of a word corrects: two with DEC-TED, one with SEC-DED, the flips taken to lie in one code
(R358, R375, R377; DEDUCED). -/
def State.corrects (s : State) (key : Nat) : Nat :=
  let pa := key % 0x1000000000000000 * 32
  match s.targetOf pa with
  | .scratch c => let y := s.coreAt c
    if y.strong && decide (pa % 0x200000 / 512 < y.sweep) then 2 else 1
  | .chip d => if (s.dieAt d).strong.contains (sliceOf pa) then 2 else 1
  | .hbm d => if key < 0x1000000000000000 then 2 else if (s.dieAt d).strong.contains (sliceOf pa) then 2 else 1
  | _ => 0

/-- Bits flipped in the stored word that holds an address: beyond what its code corrects the word is uncorrectable (R375, R377). -/
def State.flipWord (s : State) (pa bits : Nat) : State :=
  let key := s.softKey (pa / 32)
  let n := Tab.get 0 s.soft key + bits
  let here := match s.targetOf pa with | .hbm _ => true | .chip _ => true | .scratch _ => true | _ => false
  if !here || bits = 0 || s.bad.contains (pa / 32) then s
  else if n ≤ s.corrects key then { s with soft := s.soft.put key n }
  else { s with soft := s.soft.drop key, bad := (pa / 32) :: s.bad }

/-- A bit of the mirror of a splice-out queue flipped (R77, R87): bits 0 to 8 of MIRROR, 9 to 16 of RCAPM1, 17 to 24 of RCAPW. -/
def QDesc.flip (d : QDesc) (bit : Nat) : QDesc :=
  if bit < 8 then { d with mirror := { d.mirror with idx := d.mirror.idx ^^^ 2 ^ bit } }
  else if bit = 8 then { d with mirror := { d.mirror with wrap := !d.mirror.wrap } }
  else if bit < 17 then { d with rcapm1 := d.rcapm1 ^^^ 2 ^ (bit - 9) }
  else if bit < 25 then { d with rcapw := d.rcapw ^^^ 2 ^ (bit - 17) }
  else { d with mpar := !d.mpar }

/-- SOFT_ERROR: bits flip in a stored word (R375, R377), a register's residue (R216), a lane register (R255), an accumulator, of which a
single flipped bit is corrected as it is read (R302), or a mirror (R87); or the residue check of a result of the scalar ALU or multiplier, or
of an address, disagrees (R216). -/
def execSoftError (e : SoftError) (s : State) : Out :=
  match e with
  | .word pa bits => .next (s.flipWord pa bits)
  | .sreg c k r => if r = 0 ∨ 32 ≤ r then idle s else .next (s.modCtx c k (fun x => { x with badS := r :: x.badS }))
  | .lreg c k r => if 32 ≤ r then idle s else .next (s.modCtx c k (fun x => { x with badL := r :: x.badL }))
  | .acc c bank i bits =>
    if bits < 2 ∨ 1024 ≤ i then idle s
    else .next (s.modCore c (fun y => { y with arr := y.arr.setBank bank { y.arr.bank bank with bad := i :: (y.arr.bank bank).bad } }))
  | .mirror c k q bit =>
    if ((s.ctxAt c k).queue q).mode = .spliceOut then .next (s.modCtx c k (fun x => x.modQ q (fun d => d.flip bit))) else idle s
  | .result c k i times =>
    let hit (p : Pend) : Bool := decide (p.slot < 2) && (p.lat == 1 || p.lat == 3) && (match p.w with | .s .. => true | _ => false)
    match (s.ctxAt c k).pend[i]? with
    | some p => if hit p && decide (1 ≤ times) && decide (times ≤ 2) then
        .next (s.modCtx c k (fun x => { x with pend := x.pend.set i { p with flaw := times } })) else idle s
    | none => idle s
  | .address c slot times =>
    if (slot = 7 ∨ slot = 8) ∧ 1 ≤ times ∧ times ≤ 2 then .next (s.modCore c (fun y => { y with upset := y.upset.put slot times })) else idle s

end Sys2Proof.Machine
end

