-- ==== Sys2Proof/Machine/Network.lean ====
section
/-!
DEFINITION. The network (R379 to R398, R417): admission at a core's port and its refill, flits and lanes, the failure of links, the
transport between packages, and the pod.
-/
namespace Sys2Proof.Machine

/-- An engine operation waits for data that another package holds. -/
def EngOp.asksFrom (o : EngOp) (hit : Nat → Bool) : Bool :=
  match o.body with
  | .copy c => c.asked.any (fun i => match c.src[(c.d.piece i).1]? with
      | some r => (cutRow r (c.d.piece i).2.1 (c.d.piece i).2.2).any (fun p => hit p.pa)
      | none => false)
  | .sparse x => decide (x.got < x.asked) && (x.wordRow x.got).any (fun p => hit p.pa)

/-- A request to a package is outstanding (R388, R393). -/
def State.awaits (s : State) (pkg : Nat) : Bool :=
  let hit (pa : Nat) : Bool := s.targetOf pa == .other pkg
  s.flight.any (fun e => e.2.admitted && e.2.msg.homes.any hit) || s.ops.any (fun e => e.2.asksFrom hit)

/-- A package to which nothing is outstanding is not silent (R393). -/
def State.quietPkgs (s : State) : State :=
  (s.pod.filter (fun p => p != s.pkgid && !s.awaits p)).foldl (fun (t : State) p => { t with heard := t.heard.put p t.cycle }) s

/-- Bytes sent to another package by a port that is up and enabled; which one the spraying takes is open (R388, R389; assumption 11). `again`
says that the packet is sent once more. -/
def State.sent (s : State) (n : Nat) (again : Bool := false) : State :=
  let ps := (List.range 16).filter (fun p => let x : Port := Tab.get {} s.ports p; x.up && x.en)
  match ps[Config.freeNat s.fresh 1 % ps.length]? with
  | some p => let x : Port := Tab.get {} s.ports p
    { s with fresh := s.fresh + 1,
             ports := s.ports.put p { x with txb := (x.txb + n) % 2 ^ 64, retx := if again then (x.retx + 1) % 2 ^ 32 else x.retx } }
  | none => s

/-- A packet of an outstanding request to another package is sent again (R387, R389): of at most 4,096 bytes. -/
def State.resent (s : State) (n : Nat) : State :=
  match Tab.find s.flight n with
  | some f => if f.admitted && s.afar f.msg then s.sent (min 4096 (s.charge f.core f.msg)) true else s
  | none => s

/-- REQUEST_ADMISSION: a core's port admits the oldest waiting request of its class, one a cycle, where the class's tokens and the pool
of 1,024 outstanding requests allow (R8, R396). -/
def execRequestAdmission (n : Nat) (s : State) : Out :=
  match Tab.find s.flight n with
  | some f =>
    let oldest := s.flight.all (fun e => e.2.admitted || e.2.core != f.core || e.2.cls != f.cls || decide (n ≤ e.1))
    let p := s.portCls f.core f.cls
    if f.admitted || !oldest || p.granted == some s.cycle || decide (1024 ≤ s.outstanding f.core) then idle s
    else match p.take (s.charge f.core f.msg) with
      | some q =>
        let t := (s.setPortCls f.core f.cls { q with granted := some s.cycle }).setFlight n { f with admitted := true }
        .next (if s.afar f.msg then t.sent (s.charge f.core f.msg) else t)
      | none => idle s
  | none => idle s

/-- SHARE of a class on a die (R398). -/
def Die.shareOf (d : Die) (c : Nat) : Nat := Tab.get 128 d.share c

/-- The allotment of a class (R397). -/
def Die.alloc (d : Die) (c : Nat) : Nat :=
  let a := d.portbud * d.shareOf c / 1024 / 64 * 64
  if 0 < d.shareOf c ∧ a = 0 then 64 else a

/-- The sum of a quantity over the eight classes. -/
def sum8 (f : Nat → Nat) : Nat := (List.range 8).foldl (fun n c => n + f c) 0

/-- The tokens that classes hand over: what idle classes leave of their allotments, and the share that no class has (R397). -/
def spareTokens (d : Die) (act : Nat → Bool) (unspent : Nat → Nat) : Nat :=
  let idleLeft := sum8 (fun c => if act c then 0 else min (unspent c) (d.alloc c))
  idleLeft + d.portbud - sum8 d.alloc

/-- A class after the refill (R397, R398): `b` tokens of which the debt takes its part first. -/
def PortCls.refill (p : PortCls) (alloc b : Nat) (act : Bool) : PortCls :=
  { p with alloc := alloc, bucket := b - p.debt, debt := p.debt - b, last := p.spent % 2 ^ 32, act := act, spent := 0, active := false }

/-- SHARE_REFILL: the refill of a core's port at a cycle that is a multiple of 1,024 (R397). -/
def execShareRefill (c : Nat) (s : State) : Out :=
  let y := s.coreAt c
  if 384 ≤ c ∨ s.cycle / 1024 ≤ y.refills then idle s
  else
    let d := s.dieAt (c / 96)
    let act (k : Nat) : Bool := (s.portCls c k).active || decide (0 < s.portWaiting c k)
    let spare := spareTokens d act (fun k => (s.portCls c k).bucket)
    let on (k : Nat) : Bool := act k && decide (0 < d.shareOf k)
    let total := sum8 (fun k => if on k then d.shareOf k else 0)
    let s := (List.range 8).foldl (fun (t : State) k =>
      let more := if on k then spare * d.shareOf k / total / 64 * 64 else 0
      t.setPortCls c k ((t.portCls c k).refill (d.alloc k) (d.alloc k + more) (act k))) s
    .next (s.modCore c (fun y => { y with refills := s.cycle / 1024 }))

/-- The capability list has changed: an UPDATE entry goes before it (R407, R409). -/
def State.capUpdate (s : State) : State := s.journalAdd 10 0xFF 0xFFFF 4

def State.setLink (s : State) (k : Nat) (l : Link) : State := { s with links := s.links.put k l }

/-- A LINK entry (R382, R407). -/
def State.linkEntry (s : State) (k : Nat) : State :=
  s.journalAdd 8 (k % 4) 0xFFFF (openPayload 8 [k, (s.link k).laneso.toNat, (s.link k).lanesi.toNat])

/-- A message may be on link `k` on its way between its core and one of its homes, before the link fails (R384). -/
def State.mayCross (s : State) (k : Nat) (f : Flight) : Bool :=
  f.msg.homes.any (fun h => (s.sprayed (f.core / 96) (s.homeDie h)).any (fun r => r.contains k))

/-- A request whose loss is seen: not yet performed, or a load or token request whose answer is under way (R392). -/
def Msg.losable : Msg → Bool
  | .access a => !a.performed || a.cls != .st
  | .token _ => true
  | .launch .. => true
  | _ => false

/-- The requests in flight on a link are lost: of those that may be on it, each by a free choice (R392; assumption 11), and those whose
answer can no longer return. `u` is the state before the failure. -/
def State.loseFlights (s u : State) (k : Nat) : State :=
  let hit (e : Nat × Flight) : Bool := e.2.msg.losable && u.mayCross k e.2 &&
    (Config.freeNat u.fresh e.1 % 2 == 1 || s.cutOff e.2)
  let s : State := { s with fresh := s.fresh + 1 }
  (u.flight.filter hit).foldl (fun (t : State) e => match Tab.find t.flight e.1 with | some f => t.loseRequest e.1 f | none => t) s

/-- The writes of engine pieces in flight on a link are lost, and their operations stop (R271, R392). -/
def State.losePieces (s u : State) (k : Nat) : State :=
  let hit (e : Nat × Flight) : Bool := match e.2.msg with
    | .piece _ ws _ _ => ws.any (fun w => (u.sprayed (e.2.core / 96) (u.homeDie w.1)).any (fun r => r.contains k)) &&
        (Config.freeNat u.fresh e.1 % 2 == 1 || ws.any (fun w => !s.inReach (e.2.core / 96) w.1))
    | _ => false
  (u.flight.filter hit).foldl (fun (t : State) e => match e.2.msg with
    | .piece op _ _ _ =>
      let t := t.dropFlight e.1
      (match Tab.find t.ops op with | some o => t.stopOp op o .linkDown | none => t)
    | _ => t) s

/-- Markers and acknowledgements on a failed link: an acknowledgement whose fixed path used it is lost, a marker by a free choice (R391,
R392). -/
def State.loseMarkers (s u : State) (k : Nat) : State :=
  u.flight.foldl (fun (t : State) e =>
    let d := e.2.core / 96
    match e.2.msg with
    | .marker n b => if (u.sprayed d b).any (fun r => r.contains k) && Config.freeNat u.fresh e.1 % 2 == 1 then t.loseMarker e.1 e.2 n b else t
    | .ack n b => if u.pathHas (1000 + b) e.2.core k then t.loseMarker e.1 e.2 n b else t
    | _ => t) s

/-- A splice's messages and appends between two ends, in either direction. -/
def Msg.between (a b : QEnd) (m : Msg) : Bool :=
  (match m.ends with | some e => e == (a, b) || e == (b, a) | none => false) || (match m with | .append x y .. => x == a && y == b | _ => false)

/-- The splices whose fixed path used a link fail (R90, R392): the producer's next use traps, the receiver's queue is unbound, and what
is on the way is lost. -/
def State.failSplices (s u : State) (k : Nat) : State :=
  let ends : List (QEnd × QEnd) := s.cores.flatMap (fun e => e.2.ctxs.flatMap (fun x => x.2.q.filterMap (fun q =>
    if q.2.mode == .spliceOut && !q.2.partner.away && (u.pathHas e.1 q.2.partner.core k || u.pathHas q.2.partner.core e.1 k) then
      some ((⟨e.1, x.1, q.1⟩ : QEnd), q.2.partner) else none)))
  ends.foldl (fun (t : State) (p : QEnd × QEnd) =>
    let t : State := { t with flight := t.flight.filter (fun e => !e.2.msg.between p.1 p.2) }
    let t := t.modEnd p.1 (fun d => { d with down := true })
    if (t.qEnd p.2).mode == .spliceIn && (t.qEnd p.2).partner == p.1 then t.unbindEnd p.2 true else t) s

/-- The parties of tasks that a token slice of one of their tokens can no longer reach die (R187, R392); a saved task is with Thyme, on the hub die
(assumption 77). -/
def State.loseParties (s : State) : State :=
  let ps := (s.own.regions.map (fun e => (e.1, e.2.owner)) ++ s.own.shares).filterMap (fun (e : Nat × Word) =>
    match s.coreOfParty e.2 with
    | some (c, _) => if s.targetOf e.1 != .nothing && !s.inReach (c / 96) e.1 then some e.2 else none
    | none => if s.thyme.saved.any (fun v => v.2.ctx.bind.party == e.2) && s.targetOf e.1 != .nothing && !s.inReach 4 e.1 then some e.2 else none)
  ps.eraseDups.foldl (fun (t : State) p => if t.own.live.contains p then t.partyDies p else t) s

/-- Every context of a die is lost, since Thyme no longer reaches it (R392). -/
def State.loseDie (s : State) (d : Nat) : State :=
  (List.range 96).foldl (fun (t : State) i => (t.tasksOn (96 * d + i)).foldl (fun (t : State) k => t.loseTask (96 * d + i) k false) t) s

/-- A link goes down (R382, R392). -/
def State.linkFails (s : State) (k : Nat) : State :=
  let u := s
  let s := (s.capUpdate.setLink k { s.link k with up := false }).linkEntry k
  let s := (((s.loseFlights u k).losePieces u k).loseMarkers u k).failSplices u k
  let s := s.loseParties
  if 4 ≤ k then s.loseDie (k - 4) else s

/-- LINK_FAILURE: a Phogil link goes down (R382, R392). -/
def execLinkFailure (k : Nat) (s : State) : Out := if k < 8 ∧ s.linkUp k = true then .next (s.linkFails k) else idle s

/-- The lanes in service of a direction. -/
def laneCount (v : BitVec 16) : Nat := ((List.range 16).filter (fun i => v.getLsbD i)).length

/-- A replay asked for on a lane; a lane that asks for more than 16 within 1,048,576 cycles is retired, and a link with fewer than 4
lanes in a direction goes down (R381, R382). -/
def State.replay (s : State) (k lane : Nat) (outw : Bool) : State :=
  let l := s.link k
  let i := if outw then lane else 16 + lane
  let rs := s.cycle :: (Tab.get [] l.recent i).filter (fun t => decide (s.cycle < t + 1048576))
  let l := { l with replays := (l.replays + 1) % 2 ^ 32, recent := l.recent.put i rs }
  if rs.length ≤ 16 then s.setLink k l
  else
    let cut (v : BitVec 16) : BitVec 16 := v &&& ~~~(1#16 <<< lane)
    let l := if outw then { l with laneso := cut l.laneso } else { l with lanesi := cut l.lanesi }
    let s := (s.setLink k l).linkEntry k
    if laneCount l.laneso < 4 ∨ laneCount l.lanesi < 4 then s.linkFails k else s

/-- FLIT_ARRIVAL: a flit arrives on a lane in service and is accepted, or it fails and a replay is asked for (R381, R383). -/
def execFlitArrival (k lane : Nat) (outw ok : Bool) (s : State) : Out :=
  let l := s.link k
  if 8 ≤ k ∨ 16 ≤ lane ∨ l.up = false ∨ (if outw then l.laneso else l.lanesi).getLsbD lane = false then idle s
  else if ok then .next (s.setLink k { l with flits := l.flits + 1 })
  else .next (s.replay k lane outw)

/-- The parties of a package that hold tokens or shares here. -/
def State.partiesOf (s : State) (pkg : Nat) : List Word :=
  ((s.own.regions.map (fun e => e.2.owner) ++ s.own.shares.map (fun e => e.2)).filter (fun p => p != 0 && partyPkg p == pkg)).eraseDups

/-- The barrier slots of a package of POD scope (R306, R417). -/
def podBar (pkg key : Nat) : Bool := key / 64 == 5 * 1024 + pkg

/-- A package leaves the pod: its parties die, its barrier slots are bound no longer, and every request in flight to it raises LINK_DOWN
(R187, R392, R393, R417). -/
def State.leavePod (s : State) (pkg : Nat) : State :=
  let there (f : Flight) : Bool := f.msg.homes.any (fun h => s.targetOf h == .other pkg)
  let s : State := { s.capUpdate with pod := s.pod.erase pkg, bars := s.bars.filter (fun e => !podBar pkg e.1) }
  let s := (s.flight.filter (fun e => there e.2 && e.2.msg.losable)).foldl (fun (t : State) e => t.loseRequest e.1 e.2) s
  let s := s.flight.foldl (fun (t : State) e => match e.2.msg with
    | .marker n 5 => t.loseMarker e.1 e.2 n 5
    | .piece op ws _ _ => if ws.any (fun w => t.targetOf w.1 == .other pkg) then
        (match Tab.find t.ops op with | some o => (t.dropFlight e.1).stopOp op o .linkDown | none => t) else t
    | .arrive v _ _ => if barScope v = 5 ∧ barPkg v = pkg then (t.dropFlight e.1).causeNow e.2.core (t.flightCtx e.2) { cause := .linkDown } true else t
    | _ => t) s
  (s.partiesOf pkg).foldl (fun (t : State) p => t.partyDies p) s

/-- No acknowledgement has come from a package for 1,200,000 cycles in which requests to it were outstanding (R393). -/
def State.silent (s : State) (pkg : Nat) : Bool := decide (Tab.get 0 s.heard pkg + 1200000 ≤ s.cycle) && s.awaits pkg

/-- TRANSPORT_TIMEOUT: no acknowledgement from a package for 1 ms: its transport context is torn down, and it has left the pod
(R393). -/
def execTransportTimeout (n : Nat) (s : State) : Out :=
  if s.pod.contains n && n != s.pkgid && s.silent n then .next ({ s with torn := n :: s.torn.erase n }.leavePod n) else idle s

def State.port (s : State) (p : Nat) : Port := Tab.get {} s.ports p

def State.setPort (s : State) (p : Nat) (x : Port) : State := { s with ports := s.ports.put p x }

/-- Bytes received at a port (R389). -/
def State.received (s : State) (p n : Nat) : State := s.setPort p { s.port p with rxb := ((s.port p).rxb + n) % 2 ^ 64 }

/-- What answers request `n`, of an access or an engine operation, comes from these packages: each is heard (R393). -/
def State.hears (s : State) (n : Nat) : State :=
  (s.pod.filter (fun p => p != s.pkgid && s.awaits p &&
    (((Tab.find s.flight n).any (fun f => f.msg.homes.any (fun h => s.targetOf h == .other p))) || (Tab.find s.ops n).isSome))).foldl
      (fun (t : State) p => { t with heard := t.heard.put p t.cycle }) s

/-- A store whose last packet another package has acknowledged: what it writes here performs, and the request is no longer outstanding
(R388). -/
def State.remoteAck (s : State) (n : Nat) : State :=
  match Tab.find s.flight n with
  | some f =>
    (match f.msg with
     | .access a =>
       if s.afar f.msg && f.admitted && a.cls == .st && a.report.isEmpty && s.mayPerform n f then
         (s.perform n f { a with writes := a.writes.filter (fun w => !s.remote w.1) }).dropFlight n
       else if s.afar f.msg && f.admitted && a.cls == .at && a.dst == .none && a.report.isEmpty && s.mayPerform n f then s.dropFlight n
       else s
     | .piece k ws sl rep => if rep.isEmpty && ws.any (fun w => s.remote w.1) then s.enginePerform n k (ws.filter (fun w => !s.remote w.1)) sl else s
     | _ => s)
  | none => s

/-- The answer of another package: to a load or atomic its bytes, to a token request its two result words, to an engine operation the
bytes of its oldest piece or metadata word that it has asked for there (R279, R388). -/
def State.remoteData (s : State) (n : Nat) (bs : List Byte) : State :=
  match Tab.find s.flight n with
  | some f =>
    (match f.msg with
     | .access a =>
       if s.afar f.msg && f.admitted && !a.performed && a.cls != .st && a.report.isEmpty && s.mayPerform n f then
         s.setFlight n { f with msg := .access { a with performed := true, data := bs } }
       else s
     | .token t =>
       if s.afar f.msg && f.admitted && !t.answered && s.mayPerform n f then
         s.setFlight n { f with msg := .token { t with answered := true, status := BitVec.ofNat 64 (leNat (bs.take 8)),
                                                       status2 := BitVec.ofNat 64 (leNat (bs.drop 8)) } }
       else s
     | _ => s)
  | none =>
    match Tab.find s.ops n with
    | some o =>
      (match o.body with
       | .copy c =>
         (match c.asked.find? (fun i => match c.src[(c.d.piece i).1]? with
            | some r => (cutRow r (c.d.piece i).2.1 (c.d.piece i).2.2).any (fun p => s.remote p.pa)
            | none => false) with
          | some i => if bs.length == (c.d.piece i).2.2 then
              (let t := s.sendPiece n o c i bs
               if c.todo.length = 1 then t.unpin o else t)
            else s
          | none => s)
       | .sparse x =>
         if o.started && decide (x.got < x.asked) && (x.wordRow x.got).any (fun p => s.remote p.pa) && bs.length == (if x.run then 4 else 8) then
           s.sxWord n o x bs false
         else s)
    | none => s

/-- The answer of another package to a WAITC's read of an object there (R204, R388): where the value has reached B, and no FENCE holds the observation
back, the context that waits for it goes on. -/
def State.remoteObject (s : State) (c k v : Nat) : State :=
  let hits (w : Wait) : Bool := match w with | .object pa b => s.remote pa && decide (b ≤ v) | _ => false
  let at_ (w : Option Wait) : Nat := match w with | some (.object pa _) => pa | _ => 0
  let w := match (s.ctxAt c k).wait with
    | some w => if hits w then some w else none
    | none => if (s.coreAt c).running = some k then
        (s.coreAt c).freeze.findSome? (fun f => match f with | .wait w => if hits w then some w else none | _ => none) else none
  if w.isNone || s.enFenced c k then s
  else
    let s := s.modCtx c k (fun x => { x.wake with met := some (at_ w, v) })
    if (s.coreAt c).running = some k then
      s.modCore c (fun y => { y with freeze := y.freeze.filter (fun f => match f with | .wait w => !hits w | _ => true) })
    else s

/-- A write of another package's party performs at its home here, where the party has the right (R165, R388). -/
def State.remoteWrite (s : State) (pa : Nat) (bs : List Byte) (p : Word) : State :=
  let here := match s.targetOf pa with | .hbm _ => true | .chip _ => true | _ => false
  if here && s.pod.contains (partyPkg p) && (s.rights .store p pa).isNone && (s.rights .store p (pa + bs.length - 1)).isNone then
    ((({ s with mem := s.mem.writeBytes pa bs } : State).covered (pa, bs)).useHome false true [(pa, bs.length)]).dirtyAt pa
  else s

/-- PACKET_RECEIVE: a transport packet arrives at a scale-out port that is up and enabled (R387 to R389). -/
def execPacketReceive (port : Nat) (p : Packet) (s : State) : Out :=
  let x := s.port port
  if 16 ≤ port ∨ x.up = false ∨ x.en = false then idle s
  else match p with
    | .ack n => .next ((s.hears n).remoteAck n)
    | .data n bs => .next (((s.received port bs.length).hears n).remoteData n bs)
    | .object c k v => .next ((s.received port 8).remoteObject c k v)
    | .write pa bs q => .next ((s.received port bs.length).remoteWrite pa bs q)
    | .trimmed => .next (s.setPort port { x with trim := (x.trim + 1) % 2 ^ 32 })
    | .again n => .next (s.resent n)

/-- PORT_LINK_UP: a port's link partner comes up (R389). -/
def execPortLinkUp (p : Nat) (s : State) : Out :=
  if p < 16 ∧ (s.port p).up = false then .next (s.capUpdate.setPort p { s.port p with up := true }) else idle s

/-- PORT_LINK_DOWN: a port's link goes down; the transport goes on over the others, or times out (R388, R393). -/
def execPortLinkDown (p : Nat) (s : State) : Out :=
  if p < 16 ∧ (s.port p).up = true then .next (s.capUpdate.setPort p { s.port p with up := false }) else idle s

/-- POD_REMOVE: the management controller removes a package from the pod (R411); of this package's own removal a pod of one is left
(R417). -/
def execPodRemove (n : Nat) (s : State) : Out :=
  if n = s.pkgid then .next ((s.pod.filter (fun p => p != n)).foldl (fun (t : State) p => t.leavePod p) s)
  else if s.pod.contains n then .next (s.leavePod n)
  else idle s

/-- POD_ADMIT: a package whose attestation report has passed its check is admitted to the pod, and a fresh transport context is opened
(R393, R411), once the scans for its parties that died have ended (R187); those parties may hold tokens again. -/
def execPodAdmit (n : Nat) (ok : Bool) (s : State) : Out :=
  let dead := s.own.dead.filter (fun d => partyPkg d.party == n)
  let due := dead.any (fun d => s.own.regions.any (fun r => r.2.owner == d.party && r.2.st == .held) || s.own.shares.any (fun h => h.2 == d.party))
  if ok && !due && !s.pod.contains n && decide (n < 1024) && decide (s.pod.length < 1024) then
    .next { s.capUpdate with pod := s.pod ++ [n], torn := s.torn.erase n,
                             own := { s.own with dead := s.own.dead.filter (fun d => partyPkg d.party != n) } }
  else idle s

end Sys2Proof.Machine
end

