-- ==== Sys2Proof/Machine/Hub.lean ====
section
/-!
DEFINITION. Hub space (R399): the registers of its blocks as they are read and written (R329, R354, R374, R378, R383, R389, R398, R400,
R402, R404, R407, R414).
-/
namespace Sys2Proof.Machine

/-- The first address of hub space (R399). -/
def hubBase : Nat := 0x30000000000

def bit (b : Bool) (n : Nat) : Nat := if b then 2 ^ n else 0

/-- The lifetime record of a core as its 256 bits (R354). -/
def Sage.bits (r : Sage) : Nat :=
  r.wufine % 2 ^ 64 + r.margin % 2 ^ 16 * 2 ^ 64 + r.margin0 % 2 ^ 16 * 2 ^ 80 + r.st % 8 * 2 ^ 96 + bit r.eccs 99 +
    r.cause % 16 * 2 ^ 104 + r.emmax % 2 ^ 16 * 2 ^ 128 + r.poh % 2 ^ 32 * 2 ^ 160 + r.idle % 2 ^ 64 * 2 ^ 192

/-- Word `i` of a stack's registers (R374). -/
def Stack.reg (k : Stack) (i : Nat) : Nat :=
  match i with
  | 0 => k.alerts + k.vict * 2 ^ 32
  | 1 => k.alertWord
  | 2 => k.ce + k.ue * 2 ^ 32
  | 3 => k.passes + k.prow * 2 ^ 32
  | 4 => bit k.scruben 0
  | _ => 0

/-- DONE of a slice: it has finished re-encoding, or is still at SEC-DED (R378). -/
def Die.doneBit (d : Die) (i : Nat) : Bool := !d.strong.contains i || d.done.contains i

/-- Word `i` of a die's strength registers (R378). -/
def Die.strength (d : Die) (i : Nat) : Nat :=
  match i with
  | 0 => bitsFrom 64 (fun j => d.strong.contains j)
  | 1 => bitsFrom 32 (fun j => d.strong.contains (64 + j)) + 2 ^ 32 * bitsFrom 32 d.doneBit
  | 2 => bitsFrom 64 (fun j => d.doneBit (32 + j))
  | _ => 0

/-- A word of the share registers of die `d` at an offset (R398). -/
def State.shareReg (s : State) (d o : Nat) : Nat :=
  let x := s.dieAt d
  if o = 0 then x.portbud + bit x.err 63
  else if 0x40 ≤ o ∧ o < 0x80 then x.shareOf ((o - 0x40) / 8)
  else if 0x100 ≤ o ∧ o < 0x300 then Tab.get 0 x.qcls ((o - 0x100) / 8)
  else if 0x1000 ≤ o ∧ o < 0x4000 then
    let p := s.portCls (96 * d + (o - 0x1000) / 0x80) ((o - 0x1000) % 0x80 / 0x10)
    if o % 16 = 0 then p.last + bit p.act 32 else p.total
  else 0

/-- A word of a link's or a port's registers at an offset of the network block (R383, R389). -/
def State.netReg (s : State) (o : Nat) : Nat :=
  if o < 0x10000 then s.shareReg (o / 0x4000) (o % 0x4000)
  else if o < 0x10200 then
    let l := s.link ((o - 0x10000) / 0x40)
    match o % 0x40 with
    | 0 => l.laneso.toNat + l.lanesi.toNat * 2 ^ 16 + bit l.up 32
    | 8 => l.replays + l.flits / 2 ^ 20 % 2 ^ 32 * 2 ^ 32
    | _ => 0
  else if 0x11000 ≤ o ∧ o < 0x11400 then
    let p := s.port ((o - 0x11000) / 0x40)
    match o % 0x40 with
    | 0 => bit p.up 0 + bit p.en 1
    | 8 => p.txb
    | 16 => p.rxb
    | 24 => p.retx + p.trim * 2 ^ 32
    | _ => 0
  else 0

/-- A word of the Thyme block (R329, R400). -/
def State.thymeReg (s : State) (o : Nat) : Nat :=
  if o = 0 then s.thyme.plimit
  else if 0x1000 ≤ o ∧ o < 0x2000 then
    let q := s.lq ((o - 0x1000) / 16)
    if o % 16 = 0 then bit q.en 0 + q.prio * 2 + q.asn.toNat * 16 else q.recs.length + bit q.ovf 7
  else if 0x3000 ≤ o ∧ o < 0x4000 then
    let q := s.lq ((o - 0x3000) / 16)
    if o % 16 = 0 then q.spbase else q.spsize + q.spused * 2 ^ 32
  else 0

/-- A host core's registers. -/
def State.host (s : State) (h : Nat) : HostCore := Tab.get {} s.hosts h

def State.setHost (s : State) (h : Nat) (x : HostCore) : State := { s with hosts := s.hosts.put h x }

/-- A word of a command port (R402). -/
def HostCore.reg (k : HostCore) (i : Nat) : Nat :=
  match i with
  | 1 => k.desig
  | 2 => k.party.toNat
  | 3 => k.len
  | 4 => k.status
  | 5 => k.result.toNat
  | 6 => k.result2.toNat
  | _ => 0

/-- A word of the power block (R414). -/
def Mgmt.reg (m : Mgmt) (i : Nat) : Nat :=
  match i with
  | 0 => m.pcap
  | 1 => m.pnow % 4096 + m.thr * 2 ^ 12 + m.tj % 256 * 2 ^ 15
  | 2 => m.areq
  | 3 => m.astat * 2
  | _ => 0

/-- An offset of hub space lies in one of its blocks (R399). -/
def hubHas (o : Nat) : Bool :=
  decide (o < 0x14000) || (decide (0x20000 ≤ o) && decide (o < 0x21000)) || (decide (0x40000 ≤ o) && decide (o < 0x60000)) ||
    (decide (0x80000 ≤ o) && decide (o < 0x81000)) || (decide (0x90000 ≤ o) && decide (o < 0x110000)) ||
    (decide (0x120000 ≤ o) && decide (o < 0x121000)) || (decide (0x130000 ≤ o) && decide (o < 0x131000)) ||
    (decide (0x140000 ≤ o) && decide (o < 0x141000))

/-- The 8-byte word at an offset of hub space (R399). What a block gives no register reads zero (DEDUCED). -/
def State.hubReg (s : State) (o : Nat) : Nat :=
  if o < 0x10000 then s.thymeReg o
  else if o < 0x14000 then
    if (o - 0x10000) / 32 < 384 then fld (Tab.get {} s.sage ((o - 0x10000) / 32) : Sage).bits (64 * (o % 32 / 8)) 64 else 0
  else if o < 0x20200 then (s.stackAt ((o - 0x20000) / 0x40)).reg (o % 0x40 / 8)
  else if 0x20400 ≤ o ∧ o < 0x20480 then (s.dieAt ((o - 0x20400) / 0x20)).strength (o % 0x20 / 8)
  else if 0x40000 ≤ o ∧ o < 0x60000 then s.netReg (o - 0x40000)
  else if 0x80000 ≤ o ∧ o < 0x80800 then (s.host ((o - 0x80000) / 0x40)).reg (o % 0x40 / 8)
  else if 0x90000 ≤ o ∧ o < 0x110000 then Tab.get 0 s.routes ((o - 0x90000) / 8)
  else if 0x120000 ≤ o ∧ o < 0x120018 then
    (match (o - 0x120000) / 8 with | 0 => s.journal.jbase | 1 => s.journal.jnext | _ => s.journal.jold)
  else if 0x130000 ≤ o ∧ o < 0x131000 then leNat ((s.capList.drop (o - 0x130000)).take 8)
  else if 0x140000 ≤ o ∧ o < 0x140020 then s.mgmt.reg ((o - 0x140000) / 8)
  else 0

/-- A write to a launch queue's registers or PLIMIT (R329, R400); LQPUSH has its own steps. -/
def State.writeThyme (s : State) (o v : Nat) : State :=
  if o = 0 then { s with thyme := { s.thyme with plimit := max 256 (v % 65536) } }
  else if 0x1000 ≤ o ∧ o < 0x2000 ∧ o % 16 = 0 then
    s.modLq ((o - 0x1000) / 16) (fun q => { q with en := v.testBit 0, prio := fld v 1 3, asn := BitVec.ofNat 16 (fld v 4 16) })
  else if 0x3000 ≤ o ∧ o < 0x4000 then
    s.modLq ((o - 0x3000) / 16) (fun q => if o % 16 = 0 then { q with spbase := fld v 16 36 * 65536 } else { q with spsize := v % 2 ^ 32 })
  else s

/-- A write to the share registers of a die (R398): one that breaks a range or the sum rule is ignored and sets ERR. -/
def Die.writeShare (d : Die) (o v : Nat) : Die :=
  if o = 0 then
    let b := fld v 0 21
    let d := if v.testBit 63 then { d with err := false } else d
    if b % 512 = 0 ∧ 4096 ≤ b ∧ b ≤ 1048576 then { d with portbud := b } else { d with err := true }
  else if 0x40 ≤ o ∧ o < 0x80 then
    let e := { d with share := d.share.put ((o - 0x40) / 8) (fld v 0 11) }
    if sum8 e.shareOf ≤ 1024 then e else { d with err := true }
  else if 0x100 ≤ o ∧ o < 0x300 then { d with qcls := d.qcls.put ((o - 0x100) / 8) (fld v 0 3) }
  else d

/-- A write to the network block (R389, R398). -/
def State.writeNet (s : State) (o v : Nat) : State :=
  if o < 0x10000 then
    let d := s.dieAt (o / 0x4000)
    let e := d.writeShare (o % 0x4000) v
    (if e.portbud = d.portbud then s else s.capUpdate).setDie (o / 0x4000) e
  else if 0x11000 ≤ o ∧ o < 0x11400 ∧ o % 0x40 = 0 then
    s.setPort ((o - 0x11000) / 0x40) { s.port ((o - 0x11000) / 0x40) with en := v.testBit 1 }
  else s

/-- A write to a command port's argument registers (R402). -/
def HostCore.write (k : HostCore) (i v : Nat) : HostCore :=
  match i with
  | 1 => { k with desig := v }
  | 2 => { k with party := BitVec.ofNat 64 v }
  | 3 => { k with len := v }
  | _ => k

/-- PCAP takes the nearer limit of 1,200 to 2,400 (R414). -/
def pcapOf (v : Nat) : Nat := min 2400 (max 1200 (fld v 0 12))

/-- A write of a privileged party to a register without a behaviour of its own, at an offset of hub space (R399). -/
def State.hubWrite (s : State) (o v : Nat) : State :=
  if o < 0x10000 then s.writeThyme o v
  else if 0x20000 ≤ o ∧ o < 0x20200 ∧ o % 0x40 = 0x20 then
    s.setStack ((o - 0x20000) / 0x40) { s.stackAt ((o - 0x20000) / 0x40) with scruben := v.testBit 0 }
  else if 0x40000 ≤ o ∧ o < 0x60000 then s.writeNet (o - 0x40000) v
  else if 0x90000 ≤ o ∧ o < 0x110000 then { s with routes := s.routes.put ((o - 0x90000) / 8) (v % 2 ^ 58) }
  else if o = 0x140000 then
    (if pcapOf v = s.mgmt.pcap then s else { s.capUpdate with mgmt := { s.mgmt with pcap := pcapOf v } })
  else if o = 0x140010 then { s with mgmt := { s.mgmt with areq := fld v 0 52 } }
  else s

end Sys2Proof.Machine
end

