-- ==== Sys2Proof/Machine/Host.lean ====
section
/-!
DEFINITION. The host cores (R401 to R404, R414): device accesses, HSEL, the command ports with the token commands and XINV, register
writes and the attestation mailbox.
-/
namespace Sys2Proof.Machine

/-- A host core of the 32 that runs: the controller releases the host cores at the end of secure boot (R405). -/
def State.hostThere (s : State) (h : Nat) : Bool := decide (h < 32) && s.mgmt.released

/-- HSEL_WRITE: hypervisor mode writes HSEL, of which bits [62:34] read zero (R401). -/
def execHselWrite (h : Nat) (v : Word) (s : State) : Out :=
  if s.hostThere h then .next (s.setHost h { s.host h with hsel := BitVec.ofNat 64 (v.toNat % 2 ^ 34 + bit (v.getLsbD 63) 63) }) else idle s

/-- The party word of a host core (R401). -/
def State.hostParty (s : State) (h : Nat) : Word := BitVec.ofNat 64 ((s.host h).hsel.toNat % 2 ^ 34)

/-- The request of a host command: on behalf of the party in HSEL, at POD scope (R402). A region returned past dead lenders stays with
the host's party, which has no launch (DEDUCED, R171). -/
def State.hostReq (s : State) (h : Nat) (op : TokOp) : TokReq :=
  let k := s.host h
  { op := op, base := k.desig / 4096 * 4096, sz := desSz k.desig, self := s.hostParty h, target := k.party,
    priv := k.hsel.getLsbD 63, scope := 5, launch := s.hostParty h }

/-- A host command ends with a status. -/
def State.hostEnds (s : State) (h st : Nat) : State := s.setHost h { s.host h with status := st, since := none, taken := [] }

/-- A designator of a host command has its shape (R159, R402). -/
def hostDesOk (d : Nat) : Bool := desOk d && decide (d < 2 ^ 52)

/-- A base that a host command may name: HBM, a chip scratchpad or a core scratchpad of this package (R402). -/
def State.hostTarget (s : State) (pa n : Nat) : Bool :=
  match s.targetOf pa, s.targetOf (pa + n - 1) with
  | .hbm _, .hbm _ => true
  | .chip a, .chip b => a == b
  | .scratch a, .scratch b => a == b
  | _, _ => false

/-- A command of host core `h` that stays pending, with the range whose rights it withdraws (R402, R403). -/
def State.hostWaits (s : State) (h op : Nat) (ps : List (Nat × Nat)) : State :=
  let k := s.host h
  s.setHost h { k with status := 0xFF, op := op, since := some (k.since.getD s.seq), taken := ps }

/-- An access of some core to a range, older than the command of host core `h`, has not performed (R164). -/
def State.accessesOn (s : State) (h base n : Nat) : Bool :=
  s.cores.any (fun e => s.oldAccess ((s.host h).since.getD s.seq) e.1 base n)

/-- The OP of a token command (R402). -/
def TokOp.hostOp : TokOp → Nat
  | .lend => 1 | .lendPass => 2 | .retn => 3 | .split => 4 | .join => 5 | .share => 6 | .unshr => 7 | .plain => 8 | .atomic => 9
  | .query => 10 | .clean => 11 | .reinit => 12 | .create => 13 | .destroy => 14 | .seize => 15 | _ => 0

/-- A token command of host core `h` (R402): the checks in the order of R168, then the judgement and the change at the token slice. A command
that withdraws rights stays pending until every core's older accesses have performed (R164), and one whose entry the slice is busy with until its turn
(R166); its event comes again. -/
def State.hostToken (s : State) (h : Nat) (op : TokOp) : State :=
  let t := s.hostReq h op
  let n := regionBytes t.sz
  if !s.hostOk h then s.hostEnds h 0xC0
  else if !hostDesOk (s.host h).desig then s.hostEnds h (0x80 + Cause.align.code)
  else if !s.hostTarget t.base n then s.hostEnds h (0x80 + Cause.xlate.code)
  else if (s.host h).taken.isEmpty && s.entryBusy s.seq t.base n then s.hostWaits h op.hostOp []
  else
    let s := if (s.host h).taken.isEmpty then s.setHost h { s.host h with since := none } else s
    match s.own.tokenCause t with
    | some c => s.hostEnds h (0x80 + c.code)
    | none =>
      if op = .query then
        let w := s.tokenResult t
        (s.hostEnds h 0).setHost h { (s.hostEnds h 0).host h with result := w.1, result2 := w.2 }
      else if s.tokenStatus t ≠ stOk then s.hostEnds h (s.tokenStatus t)
      else if op.withdraws && s.accessesOn h t.base n then s.hostWaits h op.hostOp [(t.base, n)]
      else
        let s := if op.withdraws then s.cores.foldl (fun (u : State) e => u.flushRegion e.1 t.base n) s else s
        (s.tokenApply t).hostEnds h 0

/-- One token command as an event. -/
def hostCommand (op : TokOp) (h : Nat) (s : State) : Out := if s.hostThere h then .next (s.hostToken h op) else idle s

def execHostLend (h : Nat) (s : State) : Out := hostCommand .lend h s
def execHostLendPass (h : Nat) (s : State) : Out := hostCommand .lendPass h s
def execHostRetn (h : Nat) (s : State) : Out := hostCommand .retn h s
def execHostSplit (h : Nat) (s : State) : Out := hostCommand .split h s
def execHostJoin (h : Nat) (s : State) : Out := hostCommand .join h s
def execHostShare (h : Nat) (s : State) : Out := hostCommand .share h s
def execHostUnshr (h : Nat) (s : State) : Out := hostCommand .unshr h s
def execHostTkmodePlain (h : Nat) (s : State) : Out := hostCommand .plain h s
def execHostTkmodeAtomic (h : Nat) (s : State) : Out := hostCommand .atomic h s
def execHostTkqry (h : Nat) (s : State) : Out := hostCommand .query h s
def execHostReclaimClean (h : Nat) (s : State) : Out := hostCommand .clean h s
def execHostReinit (h : Nat) (s : State) : Out := hostCommand .reinit h s
def execHostCreate (h : Nat) (s : State) : Out := hostCommand .create h s
def execHostDestroy (h : Nat) (s : State) : Out := hostCommand .destroy h s
def execHostSeize (h : Nat) (s : State) : Out := hostCommand .seize h s

/-- An access in flight, or an engine operation, issued under translations of an address space, before point `n` of the run (R164, R403). -/
def State.asnBusy (s : State) (n : Nat) (asn : BitVec 16) : Bool :=
  s.flight.any (fun e => decide (e.1 < n) && match e.2.msg with
    | .access a => !a.performed && (s.ctxAt e.2.core (s.flightCtx e.2)).bind.asn == asn
    | _ => false) ||
    s.ops.any (fun e => decide (e.1 < n) && (s.ctxAt e.2.core e.2.ctx).bind.asn == asn)

/-- A core drops translation entries, and writes back and drops L1 lines; its walks of the address space begin again, with the tables as they stand
(R403). -/
def State.xinvCore (s : State) (c : Nat) (asn : BitVec 16) (dropE : TlbEntry → Bool) (dropL : Line → Bool) : State :=
  let ls := (s.coreAt c).l1.filter (fun e => dropL e.2)
  let s := ls.foldl (fun (t : State) e => t.writeBack e.1 e.2) s
  s.modCore c (fun y => { y with tlb := y.tlb.filter (fun e => !dropE e), kept := y.kept.filter (fun e => !dropE e), l1 := y.l1.filter (fun e => !dropL e.2),
                                 walks := y.walks.filter (fun w => !w.failed && w.asn != asn) })

/-- An XINV command: PRIV first; the entries and lines are dropped at every core, and the status lands once every access that issued
under them has performed (R402, R403). -/
def State.xinv (s : State) (h op : Nat) (dropE : BitVec 16 → TlbEntry → Bool) (dropL : BitVec 16 → Line → Bool) : State :=
  let asn := BitVec.ofNat 16 (s.host h).desig
  if !s.hostOk h then s.hostEnds h 0xC0
  else if !(s.host h).hsel.getLsbD 63 then s.hostEnds h (0x80 + Cause.priv.code)
  else
    let s := s.cores.foldl (fun (u : State) e => u.xinvCore e.1 asn (dropE asn) (dropL asn)) s
    if s.asnBusy ((s.host h).since.getD s.seq) asn then s.hostWaits h op [] else s.hostEnds h 0

/-- XINV_ASN: every translation entry and L1 line of an address space is dropped (R403). -/
def execXinvAsn (h : Nat) (s : State) : Out :=
  if s.hostThere h then .next (s.xinv h 16 (fun asn e => e.asn == asn) (fun asn l => l.of asn)) else idle s

/-- XINV_RANGE: the entries of an address space that overlap a range, and the L1 lines that lie within it (R127, R403). -/
def execXinvRange (h : Nat) (s : State) : Out :=
  if s.hostThere h then
    let a := (s.host h).party.toNat
    let n := (s.host h).len
    .next (s.xinv h 17 (fun asn e => e.asn == asn && decide (e.va < a + n) && decide (a < e.va + e.bytes))
      (fun asn l => ((l.asn, l.va) :: l.users).any (fun u => u.1 == asn && decide (a ≤ u.2) && decide (u.2 + 128 ≤ a + n))))
  else idle s

/-- The pending command of a host core comes again (R164, R403). -/
def State.hostAgain (h : Nat) (s : State) : Out :=
  match (s.host h).op with
  | 1 => execHostLend h s
  | 2 => execHostLendPass h s
  | 3 => execHostRetn h s
  | 4 => execHostSplit h s
  | 5 => execHostJoin h s
  | 6 => execHostShare h s
  | 7 => execHostUnshr h s
  | 8 => execHostTkmodePlain h s
  | 9 => execHostTkmodeAtomic h s
  | 10 => execHostTkqry h s
  | 11 => execHostReclaimClean h s
  | 12 => execHostReinit h s
  | 13 => execHostCreate h s
  | 14 => execHostDestroy h s
  | 15 => execHostSeize h s
  | 16 => execXinvAsn h s
  | 17 => execXinvRange h s
  | _ => idle s

/-- HOST_BAD_COMMAND: an OP of 0 or from 18 on, or any OP while HSEL holds no HOST party, ends with 0xC0 without effect (R402). -/
def execHostBadCommand (h op : Nat) (s : State) : Out :=
  if s.hostThere h = true ∧ (op % 32 = 0 ∨ 18 ≤ op % 32 ∨ s.hostOk h = false) then .next (s.hostEnds h 0xC0) else idle s

/-- The largest number below 2^`b` whose `k`-th power is at most `n`. -/
def intRoot (k n : Nat) : Nat → Nat
  | 0 => 0
  | b + 1 => let r := 2 * intRoot k (n / 2 ^ k) b
    if (r + 1) ^ k ≤ n then r + 1 else r

/-- The first 64 primes. -/
def shaPrimes : List Nat := (List.range 312).filter (fun p => decide (2 ≤ p) && (List.range p).all (fun d => decide (d < 2) || p % d != 0))

/-- SHA-256 takes its constants from the fractions of the primes' cube roots, and the digest it begins with from those of their square roots. -/
def shaKeys : List (BitVec 32) := shaPrimes.map (fun p => BitVec.ofNat 32 (intRoot 3 (p * 2 ^ 96) 35))
def shaSeed : BitVec 256 :=
  (shaPrimes.take 8).foldl (fun v p => v <<< 32 ||| BitVec.ofNat 256 (intRoot 2 (p * 2 ^ 64) 37 % 2 ^ 32)) 0

/-- One round of SHA-256 on the working digest and the window of sixteen message words, whose first one it uses and which it moves on. -/
def shaRound (a : BitVec 256 × BitVec 512) (key : BitVec 32) : BitVec 256 × BitVec 512 :=
  let v (i : Nat) : BitVec 32 := a.1.extractLsb' (224 - 32 * i) 32
  let m (i : Nat) : BitVec 32 := a.2.extractLsb' (480 - 32 * i) 32
  let turns (x : BitVec 32) (i j k : Nat) : BitVec 32 := x.rotateRight i ^^^ x.rotateRight j ^^^ x.rotateRight k
  let t := key + m 0 + v 7 + ((v 4 &&& v 5) ||| (~~~(v 4) &&& v 6)) + turns (v 4) 6 11 25
  let u := t + ((v 0 &&& (v 1 ||| v 2)) ||| (v 1 &&& v 2)) + turns (v 0) 2 13 22
  let n := m 0 + m 9 + ((m 1).rotateRight 7 ^^^ (m 1).rotateRight 18 ^^^ m 1 >>> 3) +
    ((m 14).rotateRight 17 ^^^ (m 14).rotateRight 19 ^^^ m 14 >>> 10)
  (a.1 >>> 32 ^^^ u.setWidth 256 <<< 224 ^^^ (v 3 ^^^ (v 3 + t)).setWidth 256 <<< 96, a.2 <<< 32 ||| n.setWidth 512)

/-- Two digests added word by word. -/
def shaAdd (x y : BitVec 256) : BitVec 256 :=
  (List.range 8).foldl (fun v i => v ||| (x.extractLsb' (32 * i) 32 + y.extractLsb' (32 * i) 32).setWidth 256 <<< (32 * i)) 0

/-- A number from bytes, the first most significant. -/
def beNat (l : List Byte) : Nat := leNat l.reverse

/-- The digest of `n` blocks of 64 bytes that follow on a digest. -/
def shaBlocks : Nat → BitVec 256 → List Byte → BitVec 256
  | 0, d, _ => d
  | n + 1, d, b => shaBlocks n (shaAdd d (shaKeys.foldl shaRound (d, BitVec.ofNat 512 (beNat (b.take 64)))).1) (b.drop 64)

/-- SHA-256 of some bytes, as a digest. -/
def sha256Of (m : List Byte) : BitVec 256 :=
  let zeros := (119 - m.length % 64) % 64
  shaBlocks ((m.length + zeros + 9) / 64) shaSeed (m ++ (0x80 : Byte) :: List.replicate zeros 0 ++ (leBytes (8 * m.length) 8).reverse)

/-- A digest as its 32 bytes, the first most significant. -/
def digestBytes (d : BitVec 256) : List Byte := (leBytes d.toNat 32).reverse

def bytesDigest (l : List Byte) : BitVec 256 := BitVec.ofNat 256 (beNat l)

/-- SHA-256 of some bytes, as 32 bytes. -/
def sha256 (m : List Byte) : List Byte := digestBytes (sha256Of m)

/-- The bytes of an attestation report that its signature covers (R406): nonce, measurement registers, the digest of the capability list, the
part number in ASCII, and the package number. EQ960-H8 fills its eight bytes. -/
def State.reportBody (s : State) (nonce : List Byte) : List Byte :=
  nonce ++ (List.range 8).flatMap (fun i => digestBytes (Tab.get 0 s.mgmt.meas i)) ++ sha256 s.capList ++
    [0x45, 0x51, 0x39, 0x36, 0x30, 0x2D, 0x48, 0x38] ++ leBytes s.pkgid 8

/-- A signed report of 16,560 bytes (R406; assumption 15). -/
def State.report (s : State) (nonce : List Byte) : List Byte :=
  s.reportBody nonce ++ (List.range 16224).map (fun i => Config.signature (s.reportBody nonce) i)

/-- AGO: a privileged party asks for a report into the buffer at AREQ; it is refused where AREQ does not name HBM (R406, R414). The bits
of AREQ below its alignment do not count (DEDUCED). -/
def State.attest (s : State) : State :=
  let pa := s.key (s.mgmt.areq / 32768 * 32768)
  if !inHbm pa || decide (s.mgmt.astat = 1) then { s with mgmt := { s.mgmt with astat := 3 } }
  else
    let bs := s.report (s.mem.readBytes pa 32) ++ List.replicate 16208 (0 : Byte)
    { ({ s with mem := s.mem.writeBytes pa bs } : State).covered (pa, bs) with mgmt := { s.mgmt with astat := 2 } }

def execAgo (h : Nat) (s : State) : Out := if s.hostPriv h then .next s.attest else idle s

/-- A command written to the port of host core `h` (R402); one written while STATUS is 0xFF is ignored. -/
def State.hostOp (s : State) (h op : Nat) : Out :=
  if (s.host h).status = 0xFF then idle s
  else match op % 32 with
    | 1 => execHostLend h s
    | 2 => execHostLendPass h s
    | 3 => execHostRetn h s
    | 4 => execHostSplit h s
    | 5 => execHostJoin h s
    | 6 => execHostShare h s
    | 7 => execHostUnshr h s
    | 8 => execHostTkmodePlain h s
    | 9 => execHostTkmodeAtomic h s
    | 10 => execHostTkqry h s
    | 11 => execHostReclaimClean h s
    | 12 => execHostReinit h s
    | 13 => execHostCreate h s
    | 14 => execHostDestroy h s
    | 15 => execHostSeize h s
    | 16 => execXinvAsn h s
    | 17 => execXinvRange h s
    | o => execHostBadCommand h o s

/-- A write of host core `h` at an offset of hub space, with the behaviour that the register has (R399): an unprivileged one to any block
but the command ports is dropped. -/
def State.hostWrites (s : State) (h o v : Nat) : Out :=
  if 0x80000 ≤ o ∧ o < 0x80800 then
    let p := (o - 0x80000) / 0x40
    if o % 0x40 = 0 then s.hostOp p v else .next (s.setHost p ((s.host p).write (o % 0x40 / 8) v))
  else if !s.hostPriv h then idle s
  else if 0x1000 ≤ o ∧ o < 0x2000 ∧ o % 16 = 8 then
    let q := (o - 0x1000) / 16
    if v % 64 = 0 then execLqPush h (q / 64) (q % 64) v s else execLqControlWrite h (q / 64) (q % 64) (BitVec.ofNat 64 v) s
  else if 0x20400 ≤ o ∧ o < 0x20480 ∧ o % 0x20 = 0x18 then
    if v.testBit 0 then execForce h ((o - 0x20400) / 0x20) s else idle s
  else if o = 0x140018 then
    if v.testBit 0 then execAgo h s else idle s
  else if 0x20000 ≤ o ∧ o < 0x20200 ∧ o % 0x40 = 0x20 ∧ v.testBit 1 = true then execChannelClr h ((o - 0x20000) / 0x40) (s.hubWrite o v)
  else .next (s.hubWrite o v)

/-- REGISTER_WRITE: a write of a host core to an 8-byte register of hub space that has no behaviour of its own (R399). -/
def execRegisterWrite (h a : Nat) (v : Word) (s : State) : Out :=
  let o := a - hubBase
  if s.hostThere h = false ∨ a < hubBase ∨ o % 8 ≠ 0 ∨ hubHas o = false then idle s
  else if 0x80000 ≤ o ∧ o < 0x80800 then
    .next (s.setHost ((o - 0x80000) / 0x40) ((s.host ((o - 0x80000) / 0x40)).write (o % 0x40 / 8) v.toNat))
  else if s.hostPriv h then .next (s.hubWrite o v.toNat)
  else idle s

/-- A host core's device access that is checked at the hub link: a bypassing access of its HSEL party to every region that it touches
(R165, R401). An access to anything but HBM and chip scratchpad within reach faults (DEDUCED). -/
def State.hostMay (s : State) (h a n : Nat) (wr : Bool) : Bool :=
  let k : RKind := if wr then .store else .bypass
  let ok (pa : Nat) : Bool :=
    (match s.targetOf pa with | .hbm _ => true | .chip _ => true | _ => false) && s.inReach 4 pa && (s.rights k (s.hostParty h) pa).isNone
  s.hostOk h && decide (0 < n) && (List.range ((n + 4095) / 4096 + 1)).all (fun i => ok (min (a + 4096 * i) (a + n - 1)))

/-- The outcome of a device access: a RISC-V access fault, or the bytes read (R401). -/
def State.hostSaw (s : State) (h : Nat) (fault : Bool) (d : List Byte) : State := s.setHost h { s.host h with fault := fault, data := d }

/-- HOST_ACCESS: a host core reads as many bytes as `d` has at address `a`, or writes them (R399, R401). Hub space is accessed in aligned
8-byte words. A read of an uncorrectable word faults (DEDUCED, R375). -/
def execHostAccess (h a : Nat) (d : List Byte) (wr : Bool) (s : State) : Out :=
  if !s.hostThere h then idle s
  else if hubBase ≤ a ∧ a < hubBase + 0x10000000000 then
    let o := a - hubBase
    if o % 8 ≠ 0 ∨ d.length ≠ 8 ∨ hubHas o = false then .next (s.hostSaw h true [])
    else if wr then (s.hostSaw h false []).hostWrites h o (leNat d)
    else .next (s.hostSaw h false (leBytes (s.hubReg o) 8))
  else if !s.hostMay h a d.length wr then .next (s.hostSaw h true [])
  else if wr then
    let s := ((({ s with mem := s.mem.writeBytes a d } : State).covered (a, d)).useHome false true [(a, d.length)]).dirtyAt a
    .next (s.hostSaw h false [])
  else
    let s := s.useHome false false [(a, d.length)]
    .next (if s.badRange a d.length then s.hostSaw h true [] else s.hostSaw h false (s.mem.readBytes a d.length))

end Sys2Proof.Machine
end

