-- ==== Sys2Proof/Machine/Manage.lean ====
section
/-!
DEFINITION. The management controller and power (R355, R356, R405, R406, R410, R412, R414): package reset with secure boot, live update,
the management port, throttling and the loss of power.
-/
namespace Sys2Proof.Machine

/-- The package with everything at its reset value that reset or the loss of power clears, and nothing running yet. Memory stays where
power does (assumption 17); the controller keeps what its non-volatile store holds. -/
def State.cleared (s : State) (power : Bool) : State :=
  let r := State.reset
  { r with
    mem := if power then s.mem else r.mem
    bad := if power then s.bad else r.bad
    soft := if power then s.soft.filter (fun e => decide (e.1 < 0x1000000000000000)) else r.soft
    agenda := s.agenda, fresh := s.fresh + 1, stored := s.stored, pkgid := s.pkgid, pod := [s.pkgid], podid := s.podid,
    thyme := { r.thyme with roots := s.thyme.roots, maps := s.thyme.maps },
    journal := { r.journal with jbase := s.journal.jbase, mirror := s.journal.mirror },
    mgmt := { r.mgmt with powered := power, minsvn := s.mgmt.minsvn, svn := s.mgmt.svn, errors := s.mgmt.errors, out := s.mgmt.out,
                          svcEntry := s.mgmt.svcEntry, released := false } }

/-- M := SHA-256(M ‖ digest) in a measurement register (R406). -/
def State.extend (s : State) (im : Image) : State :=
  let i := Config.measReg im.comp % 8
  let v := bytesDigest (sha256 (digestBytes (Tab.get 0 s.mgmt.meas i) ++ digestBytes im.digest))
  { s with mgmt := { s.mgmt with meas := s.mgmt.meas.put i v } }

/-- An image that verifies: its signature, and a security version not below the fused minimum (R405). -/
def State.verifies (s : State) (im : Image) : Bool := im.ok && decide (s.mgmt.minsvn ≤ im.svn)

/-- One stage of secure boot: the image of a component verifies and is measured, or the package is left in recovery (R405, R406). -/
def State.stage (s : State) (comp : Nat) (im : Option Image) : State × Bool :=
  match im with
  | some im =>
    if im.comp = comp ∧ s.verifies im = true then
      (({ s with mgmt := { s.mgmt with svn := s.mgmt.svn.put comp im.svn } } : State).extend im, true)
    else ({ s with mgmt := { s.mgmt with recovery := true } }, false)
  | none => ({ s with mgmt := { s.mgmt with recovery := true } }, false)

/-- The wear of 2^30 ticks of 64 cycles at the largest f, in fine units, rounded up (R351, R355). -/
def powerUpWear : Nat := (2 ^ 30 * 64 * 262140 + 1199999) / 1200000

/-- The lifetime records restored at power-up, with the allowance for wear that was not committed, and evaluated (R355). -/
def State.restoreSage (s : State) : State :=
  { s with sage := (List.range 384).map (fun c =>
      let r : Sage := Tab.get {} s.stored c
      let r := { r with hist := [], low6 := false, low2 := false }
      (c, if r.st = 4 then r else ({ r with wufine := r.wufine + powerUpWear } : Sage).evaluated r.failed true)) }

/-- What follows at power-up from the states of the cores: those that the allowance has moved on, and the clock of every core that is no longer
NOMINAL (R355, R357, R358). -/
def State.resumeWear (s : State) : State :=
  (List.range 384).foldl (fun (t : State) c =>
    let t := t.wearStep c (Tab.get {} t.stored c).st
    let st := (t.sageOf c).st
    if 1 ≤ st ∧ st ≤ 3 then t.modCore c (fun y => { y with slowDue := true, slowOld := true }) else t) s

/-- Secure boot from a cleared package (R405). -/
def State.boot (s : State) (ims : List Image) : State :=
  let a := s.stage 0 ims[0]?
  if !a.2 then a.1
  else
    let b := a.1.stage 4 ims[1]?
    if !b.2 then b.1
    else
      let c := b.1.restoreSage.resumeWear.stage 5 ims[2]?
      if !c.2 then c.1 else { c.1 with mgmt := { c.1.mgmt with released := true } }

/-- PACKAGE_RESET: package reset runs secure boot on the controller's, the hub's and the loader's image (R405). -/
def execPackageReset (ims : List Image) (s : State) : Out := if s.mgmt.powered then .next ((s.cleared true).boot ims) else idle s

/-- MGMT_RESET: the package is held in reset until its secure boot (R405, R412). -/
def execMgmtReset (s : State) : Out := if s.mgmt.powered then .next (s.cleared true) else idle s

/-- MGMT_POWER: power on, or an orderly power-down, before which Sage commits its records (R355, R412). -/
def execMgmtPower (on : Bool) (s : State) : Out :=
  if on = s.mgmt.powered then idle s
  else if on then .next { s with mgmt := { s.mgmt with powered := true } }
  else .next (({ s with stored := s.sage } : State).cleared false)

/-- POWER_LOSS: the supply fails; wear that was not committed is lost (R355). -/
def execPowerLoss (s : State) : Out := .next (s.cleared false)

/-- OVERTEMPERATURE: a junction of 115 °C removes power at once; wear committed before is kept (R414). -/
def execOvertemperature (s : State) : Out := .next (s.cleared false)

/-- THR after one millisecond with these readings (R414). -/
def thrNext (pcap thr pnow tj : Nat) : Nat :=
  if pcap < pnow ∨ 100 ≤ tj then min 7 (thr + 1)
  else if pnow + 100 ≤ pcap ∧ tj < 95 then thr - 1
  else thr

/-- A millisecond has passed that the controller has not judged yet (R414). -/
def State.stepDue (s : State) : Bool := decide (s.mgmt.steps < s.cycle / 1200000)

/-- THROTTLE_STEP: at the end of a millisecond the controller measures the package's mean power and hottest junction, and moves THR (R409, R414). -/
def execThrottleStep (pnow tj : Nat) (s : State) : Out :=
  if !s.stepDue then idle s
  else
    let n := thrNext s.mgmt.pcap s.mgmt.thr pnow tj
    let s := if n = s.mgmt.thr then s else s.capUpdate
    .next { s with mgmt := { s.mgmt with pnow := pnow, tj := tj, thr := n, steps := s.mgmt.steps + 1 } }

/-- A millisecond that ends with no reading named: what the controller measures is free (assumption 98). -/
def State.throttleFree (s : State) : Out :=
  execThrottleStep (Config.freeNat s.fresh 0 % 4096) (Config.freeNat s.fresh 1 % 256) { s with fresh := s.fresh + 1 }

/-- The payload of an UPDATE entry (R407): the component, the version, and the first 24 bytes of the digest. -/
def updatePayload (im : Image) : Nat := im.comp % 256 + im.svn % 2 ^ 64 * 2 ^ 64 + leNat ((digestBytes im.digest).take 24) * 2 ^ 128

/-- A live update takes effect: it is measured and journalled (R406, R407, R410). -/
def State.updated (s : State) (im : Image) : State :=
  (({ s with mgmt := { s.mgmt with svn := s.mgmt.svn.put im.comp im.svn } } : State).extend im).journalAdd 10 0xFF 0xFFFF (updatePayload im)

/-- LIVE_UPDATE: an image replaces Thyme, Sage or the core service routine (R410). Thyme first stops accepting and holds its frame counters;
the same event again ends the switch. An image that does not verify changes nothing. -/
def execLiveUpdate (im : Image) (s : State) : Out :=
  if s.verifies im = false ∨ im.comp = 0 ∨ 3 < im.comp then idle s
  else if im.comp = 1 ∧ s.thyme.update = false then .next { s with thyme := { s.thyme with update := true, taking := some (im, s.cycle) } }
  else if im.comp = 1 then .next ({ s with thyme := { s.thyme with update := false, taking := none } }.updated im)
  else .next (s.updated im)

/-- A switch of Thyme's image has taken the 12,000,000 cycles that it takes at most (R410). -/
def State.updateDue (s : State) : Bool := match s.thyme.taking with | some (_, c) => decide (c + 12000000 ≤ s.cycle) | none => false

/-- The switch ends at the latest then, with the image that began it. -/
def State.endUpdate (s : State) : Out :=
  match s.thyme.taking with
  | some (im, _) => .next ({ s with thyme := { s.thyme with update := false, taking := none } }.updated im)
  | none => idle s

/-- A core on which no context is HELD installs the service routine of the last update (R410). -/
def State.install (c : Nat) (s : State) : Out :=
  if (s.coreAt c).ctxs.any (fun e => e.2.status == .held) then idle s
  else .next (s.modCore c (fun y => { y with routine := Tab.get 0 s.mgmt.svn 3 }))

/-- MGMT_FIRMWARE_UPDATE: the operator installs an image that verifies for the next boot (R405, R412). -/
def execMgmtFirmwareUpdate (im : Image) (s : State) : Out :=
  if s.verifies im then .next { s with mgmt := { s.mgmt with svn := s.mgmt.svn.put im.comp im.svn } } else idle s

/-- What the operator reads at the management port (R408, R412): entries of the mirror, newest first, then the lifetime records, then
the sensors. -/
def State.mgmtBytes (s : State) (n : Nat) : List Byte :=
  if n < 65536 then
    (match s.journal.mirror[n]? with
     | some e => leBytes e.seq 8 ++ e.body
     | none => [])
  else if n < 65536 + 384 then leBytes (s.sageOf (n - 65536)).bits 32
  else leBytes (s.mgmt.reg 1) 8

/-- MGMT_READ: the operator reads a log entry, a lifetime record or the sensors (R412). -/
def execMgmtRead (n : Nat) (s : State) : Out := .next { s with mgmt := { s.mgmt with out := s.mgmtBytes n } }

/-- MGMT_ATTESTATION: the operator requests a report over a nonce (R406, R412). -/
def execMgmtAttestation (nonce : Nat) (s : State) : Out :=
  .next { s with mgmt := { s.mgmt with out := s.report (leBytes nonce 32) } }

/-- MGMT_FORCE_DEC_TED: the operator moves every slice of a die to DEC-TED (R377, R378, R412). -/
def execMgmtForceDecTed (die : Nat) (s : State) : Out := if die < 4 then .next (s.forceStrong die) else idle s

/-- MGMT_RETIRE_CORE: the controller retires a core; the evaluation at the end of its interval takes it to RETIRING (R356, R412). -/
def execMgmtRetireCore (c : Nat) (s : State) : Out :=
  if 384 ≤ c ∨ 3 ≤ (s.sageOf c).st then idle s else .next (s.setSage c { s.sageOf c with admin := true })

/-- MGMT_RAISE_MIN_SVN: a signed command raises the fused minimum (R405). -/
def execMgmtRaiseMinSvn (svn : Nat) (signed : Bool) (s : State) : Out :=
  if signed = true ∧ s.mgmt.minsvn < svn then .next { s with mgmt := { s.mgmt with minsvn := svn } } else idle s

/-- MGMT_CLEAR_CORE: firmware returns a core to placement that a fault of its service routine has taken out; a failed core stays out (R13,
R356). -/
def execMgmtClearCore (c : Nat) (s : State) : Out :=
  if c < 384 ∧ (s.coreAt c).out = true ∧ s.dead c = false ∧ (s.sageOf c).st < 3 then .next (s.modCore c (fun y => { y with out := false }))
  else idle s

end Sys2Proof.Machine
end

