-- ==== Sys2Proof/Machine/Agenda.lean ====
section
/-!
DEFINITION. What happens in a step beside the events that the agenda names (assumption 7): the events of the other agents that may be
due, in the order of the default policy, and one wall cycle of the machine.
-/
namespace Sys2Proof.Machine

/-- An event as its effect: the meaning of one instruction of the table with its arguments. -/
abbrev Event := State → Out

/-- The events that a message in flight may be due for, in order. -/
def Flight.events (n : Nat) (f : Flight) : List Event :=
  (if f.admitted then [] else [execRequestAdmission n]) ++
    (match f.msg with
     | .access a =>
       (if a.report.isEmpty then [] else [execDirtyReport n]) ++ (if a.atom.isSome then [execHomeAtomic n] else [execHomeAccess n]) ++
         (match a.dst with
          | .slot .. => [execSlotLanding n]
          | .latch _ => [execLatchReady n]
          | _ => if a.cls = .st then [execWriteAcknowledgement n] else [execLoadDataArrival n])
     | .fence .. => [execHomeAccess n]
     | .marker .. => [execFlushMarker n]
     | .ack .. => [execFlushAcknowledgement n]
     | .token _ => [execTokenSliceRequest n, execLoadDataArrival n]
     | .inval _ => [execOwnershipInvalidation n]
     | .spliceReq .. => [execSpliceRequest n]
     | .spliceAns .. => [execSpliceAnswer n]
     | .append .. => [execRemoteAppend n]
     | .head .. => [execHeadMessage n true]
     | .unsplice .. => [execUnspliceMarker n]
     | .headReq .. => [execHeadRequest n]
     | .headAns .. => [execHeadRequestAnswer n]
     | .arrive .. => [execBarrierArrival n]
     | .release .. => [execBarrierRelease n]
     | .piece _ _ _ rep => (if rep.isEmpty then [] else [execDirtyReport n]) ++ [execHomeAccess n]
     | .sxstop .. => [execHomeAccess n, execLoadDataArrival n]
     | .flush .. => [execHomeAccess n]
     | .launch .. => [execHomeAccess n, execLoadDataArrival n])

/-- The events of one context. -/
def Ctx.events (s : State) (c k : Nat) (x : Ctx) : List Event :=
  (match x.wanted with | some g => [execSegmentExpansion c k g] | none => []) ++
    (x.q.filter (fun q => q.2.mode == .spliceIn)).map (fun q => execHeadMessageSend c k q.1) ++
    (match x.wait with
     | some w => [execWaitConditionMet c k] ++ (if s.objectMet w then [execCompletionReread c k] else [])
     | none => []) ++
    (if x.preempt.isSome then [execPreemptionLimitExpiry c k] else []) ++
    (if x.escalating then [execEscalationDrainComplete c k] else []) ++
    (if x.phase.next.isSome then [execPhaseSnapshot c k] else []) ++ (if x.phase.rollback.isSome then [execPhaseRollback c k] else []) ++
    (if x.finishing then [execDoneFinish c k] else []) ++
    (if x.preempt.isSome || x.status == .held then [execContextSave c k] else [])

/-- A freeze on a completion object that has reached its value: the default policy reads the object again only then. -/
def Freeze.objectMet (s : State) (f : Freeze) : Bool := match f with | .wait w => s.objectMet w | _ => false

/-- The events of one core. -/
def Core.events (s : State) (c : Nat) (y : Core) : List Event :=
  (List.range y.walks.length).map (fun i => execTableWalkRead c i) ++
    y.ctxs.flatMap (fun e => if e.2.status = .free ∧ (e.1 ≠ 4 ∨ y.held.isNone) then [] else Ctx.events s c e.1 e.2) ++
    (match y.running with
     | some k => [execStarvationGuard c k] ++ (if y.freeze.any (Freeze.objectMet s) then [execCompletionReread c k] else [])
     | none => []) ++
    (if y.svcTimer = some 0 then [execServiceEntry c] else []) ++ (if y.ilock then [execInterlockHold c] else []) ++
    (if y.slowDue then [execClockSwitch c] else []) ++ (if y.clkPend then [execClockSwitchEnd c] else []) ++
    (if y.strong then [execScratchpadSweep c] else []) ++
    [execSparseStart c, execMetadataArrival c, execSparseEmit c, execSparseFinish c]

/-- The events of one engine operation: a copy reads the next of its pieces, and those asked for come back. -/
def EngOp.events (n : Nat) (o : EngOp) : List Event :=
  match o.body with
  | .copy c =>
    c.asked.map (fun i => execCopyPiece n i) ++
      (match c.todo.find? (fun i => !c.asked.contains i) with | some i => [execCopyPiece n i] | none => []) ++ c.targets.map (fun t => execCpymDelivery n t.1) ++
      [execNotify n, execCopyCompletion n]
  | .sparse _ => []

/-- The operations of the engines in the order of their turns (R396): each class starts after the operation that had the last turn. -/
def State.turns (s : State) : Tab EngOp :=
  let last (o : EngOp) : Nat := (s.portCls o.core (s.shareClass o.core o.ctx)).turn
  s.ops.filter (fun e => decide (last e.2 < e.1)) ++ s.ops.filter (fun e => !decide (last e.2 < e.1))

/-- The events of Thyme. -/
def State.thymeEvents (s : State) : List Event :=
  (s.thyme.queues.filter (fun q => !q.2.recs.isEmpty)).map (fun q => execLaunchAcceptance (q.1 / 64) (q.1 % 64)) ++
    s.thyme.launches.flatMap (fun l => (List.zip (List.range l.2.entries.length) l.2.entries).flatMap (fun e =>
      if e.2.st = .released then [execDispatch l.1 e.1, execGangStart (4096 * l.1 + e.1)] else [])) ++
    s.thyme.saved.flatMap (fun v =>
      match s.entryAt v.2.ctx.bind.lkey v.2.ctx.bind.entryIx with
      | some (l, e) => (match s.placeAfresh l v.2.ctx.bind.entryIx e with
        | some (p :: _) => [execContextRestore v.1 p.core p.ctx]
        | _ => [])
      | none => []) ++
    (if s.thyme.saved.any (fun v => decide (0 < v.2.reserve)) then [State.leaveReserve] else []) ++
    s.thyme.launches.map (fun l => execLaunchEnd l.1) ++ s.thyme.windows.map (fun w => execCoalWindowExpiry w.1)

/-- The scans that a dead party's tokens still need (R187). -/
def State.scans (s : State) : List Event :=
  (s.own.dead.filter (fun d => s.own.regions.any (fun r => r.2.owner == d.party && r.2.st == .held) || s.own.shares.any (fun r => r.2 == d.party))).flatMap
    (fun d => (List.range 6).map (fun die => execOrphanScan die d.party))

/-- The sweepers that have something to do: a slice whose words were corrected in this pass or are still to be re-encoded, or whose share has a word with
flipped bits (R377). -/
def State.sweeps (s : State) : List Event :=
  let busy := s.dies.flatMap (fun d => ((d.2.corrected.filter (fun e => decide (0 < e.2))).map (fun e => e.1) ++
    d.2.strong.filter (fun i => !d.2.done.contains i)).map (fun i => (d.1, i)))
  let soft := (s.soft.filter (fun e => decide (0x1000000000000000 ≤ e.1) || (match s.targetOf (e.1 * 32) with | .chip _ => true | _ => false))).map
    (fun e => let w := e.1 % 0x1000000000000000; (s.homeDie (w * 32), sliceOf (w * 32)))
  (busy ++ soft).eraseDups.map (fun e => execL2Sweep e.1 e.2)

/-- Every event of another agent that may be due now, in the order of the default policy; one that is not enabled changes nothing
(assumptions 7 and 12). -/
def State.pending (s : State) : List Event :=
  s.cores.flatMap (fun e => Core.events s e.1 e.2) ++ s.flight.flatMap (fun e => e.2.events e.1) ++
    (List.range 4).map (fun d => execCopyStart d) ++ s.turns.flatMap (fun e => e.2.events e.1) ++
    s.gangs.flatMap (fun g => [execGissHoldEnd g.1, execGangCompletion g.1]) ++ s.thymeEvents ++ s.scans ++
    (s.hosts.filter (fun h => h.2.since.isSome)).map (fun h => State.hostAgain h.1) ++
    (if s.journal.pend.isEmpty then [] else [execJournalWrite]) ++
    s.banks.flatMap (fun b => [execAlertBlockEnd b.1, execBankAccess b.1, execRefresh b.1]) ++
    ((List.range 8).filter (fun k => decide ((s.stackAt k).next ≤ s.cycle))).map execPatrolScrub ++ s.sweeps ++
    (s.cores.filter (fun e => e.2.routine != Tab.get 0 s.mgmt.svn 3)).map (fun e => State.install e.1) ++
    (s.cores.filter (fun e => !(e.2.freeze.isEmpty && e.2.svcFreeze.isEmpty))).map (fun e => execFreezeThaw e.1)

/-- Events run in turn, each on the state that the one before left. -/
def State.runEvents : List Event → State → Out
  | [], s => .next s
  | i :: r, s =>
    match i s with
    | .next t => t.runEvents r
    | e => e

/-- What falls due at a time that the spec states exactly, whatever the policy: a package tick, a commit of Sage, a request that a bank has served, a
port's refill, the end of a sample interval, of a millisecond of power, of a transport context's patience, or of an update (R1, R348, R355, R369, R393,
R397, R410, R414, R415). -/
def State.onTime (s : State) : List Event :=
  (if s.tick < s.cycle / 64 then [execPackageTick] else []) ++ (if s.commits < s.tick / 2 ^ 30 then [execSageCommit] else []) ++
    (s.banks.filter (fun b => match b.2.serving with | some (_, d) => decide (d ≤ s.cycle) | none => false)).map (fun b => execBankAccess b.1) ++
    (s.cores.filter (fun e => decide (e.2.refills < s.cycle / 1024))).map (fun e => execShareRefill e.1) ++
    (if s.cycle < 1200000 then [] else
      ((List.range 384).filter s.sampleDue).map execSampleFree ++ (if s.stepDue then [State.throttleFree] else []) ++
        (s.pod.filter s.silent).map execTransportTimeout) ++
    (if s.updateDue then [State.endUpdate] else [])

/-- One wall cycle: what is due now happens; with the default policy the work of the other agents moves on; then every core has one cycle
(R18). -/
def State.wall (run : Instr → State → Out) (deliver : Bool) (s : State) : Out :=
  match s.runEvents s.onTime with
  | .next s =>
    (match (if deliver then s.runEvents s.pending else .next s) with
     | .next t => t.quietPkgs.clock run
     | e => e)
  | e => e

/-- One step: the head of the agenda, or a wall cycle by the default policy where the agenda is empty (assumption 7). -/
def State.stepWith (run : Instr → State → Out) (s : State) : Out :=
  match s.agenda with
  | .event i :: r => run i { s with agenda := r }
  | .cycle d :: r => ({ s with agenda := r } : State).wall run d
  | [] => s.wall run true

/-- The slot words of the bundle that holds a word of the opcode table: the first slot that accepts it, LIT beside an s0 that may use it
(R37), here LI S0, 0. -/
def wordSlots (nbits w : Nat) : List (Nat × Nat) :=
  let slots := if nbits ≤ 32 then [0, 1, 9] else [2, 7, 5, 6]
  match slots.find? (fun sl => match decodeWord sl w with | .ok _ => true | .error _ => false) with
  | some 1 => if fld w 21 7 = 0x2C then [(0, 0x05400000), (1, w)] else [(1, w)]
  | some sl => [(sl, w)]
  | none => [(if nbits ≤ 32 then 0 else 2, w)]

/-- Core 0 runs context 0 at code address 0, in a segment whose one bundle holds a word; nothing holds its issue. -/
def State.placeWord (s : State) (nbits w : Nat) : State :=
  let y := s.coreAt 0
  let x := y.ctx 0
  let g : Segment := { addr := 0, bundles := [{ stop := true, words := wordSlots nbits w }] }
  let x := { x with status := .running, pc := 0, buf := [g], loops := [], async := [], now := false, atStop := false, wait := none,
                    preempt := none, escalating := false, finishing := false, replay := none, ticked := false, spacing := 0,
                    bind := { x.bind with gang := none } }
  let y := { y with ctxs := y.ctxs.put 0 x, running := some 0, held := none, switchLeft := 0, freeze := [], svcTimer := none, replay := none,
                    clkHold := 0, out := false }
  { s with cores := s.cores.put 0 y, agenda := [.cycle false] }

end Sys2Proof.Machine
end

