-- ==== Sys2Proof/Machine/Scalar.lean ====
section
/-!
DEFINITION. The scalar arithmetic, compare, predicate and floating-point instructions (R191 to R194).
-/
namespace Sys2Proof.Machine

/-- A result of form R written to S[d] after `lat` cycles; `rs` are the registers read beside A and B (R190, R191). -/
def alu (lat : Nat) (rs : List Nat) (f : State → Word) (w : RForm) (s : State) : Out :=
  runSlot w.g .ok
    (fun s => match readRegs (rs ++ rReads w) s with
      | .error e => .error e
      | .ok s => .ok (s.put (.s w.d.toNat (f s)) lat)) s

/-- A one-cycle operation on A and B. -/
def alu2 (op : Word → Word → Word) (w : RForm) (s : State) : Out :=
  alu 1 [] (fun s => op (s.sreg w.a) (s.opB w)) w s

/-- A one-cycle operation on A alone. -/
def alu1 (op : Word → Word) (w : RForm) (s : State) : Out :=
  runSlot w.g .ok
    (fun s => match readRegs [w.a.toNat] s with
      | .error e => .error e
      | .ok s => .ok (s.put (.s w.d.toNat (op (s.sreg w.a))) 1)) s

/-- The cycles that a divide of this slot is still in flight (R190). -/
def State.divBusy (s : State) : Nat :=
  if s.inService then (if s.slot = 1 then s.core.sdiv1 else s.core.sdiv0)
  else if s.slot = 1 then s.core.div1 else s.core.div0

/-- A divide is in flight in this slot for 18 cycles (R190). -/
def State.setDiv (s : State) : State :=
  s.modMyCore (fun c =>
    if c.held.isSome then (if c.bun.slot = 1 then { c with sdiv1 := 18 } else { c with sdiv0 := 18 })
    else if c.bun.slot = 1 then { c with div1 := 18 } else { c with div0 := 18 })

/-- A divide or remainder (R190, R191). -/
def divide (op : Word → Word → Word) (w : RForm) (s : State) : Out :=
  runSlot w.g (fun s => .ok (if s.divBusy = 0 then s else s.hold .interlock))
    (fun s => match readRegs (rReads w) s with
      | .error e => .error e
      | .ok s => .ok ((s.put (.s w.d.toNat (op (s.sreg w.a) (s.opB w))) 18).setDiv)) s

/-- Signed quotient toward zero; all ones for a zero divisor, MIN for MIN over −1 (R103). -/
def sdivW (a b : Word) : Word := if b = 0 then BitVec.allOnes 64 else BitVec.ofInt 64 (a.toInt.tdiv b.toInt)

/-- Unsigned quotient; all ones for a zero divisor (R103). -/
def udivW (a b : Word) : Word := if b = 0 then BitVec.allOnes 64 else a / b

/-- Signed remainder with the sign of the dividend; the dividend for a zero divisor (R103). -/
def smodW (a b : Word) : Word := if b = 0 then a else BitVec.ofInt 64 (a.toInt.tmod b.toInt)

/-- Unsigned remainder; the dividend for a zero divisor (R103). -/
def umodW (a b : Word) : Word := if b = 0 then a else a % b

/-- Leading zeros of an `n`-bit value, `n` for zero (R103). -/
def clzN (n v : Nat) : Nat := if v = 0 then n else n - 1 - Nat.log2 v

/-- Trailing zeros of an `n`-bit value, `n` for zero (R103). -/
def ctzN (n v : Nat) : Nat := ((List.range n).find? (fun i => v.testBit i)).getD n

/-- One bits of an `n`-bit value. -/
def popN (n v : Nat) : Nat := (List.range n).foldl (fun c i => if v.testBit i then c + 1 else c) 0

/-- The width of SEXT and ZEXT: B[5:0], 0 meaning 64 (R191). -/
def extWidth (b : Word) : Nat := if b.toNat % 64 = 0 then 64 else b.toNat % 64

/-- The field specifier of BFX and BFI: the immediate form is zero-extended (R191). -/
def State.fieldSpec (s : State) (w : RForm) : Word :=
  if w.i = 0 then s.sreg (w.b.extractLsb' 0 5)
  else match s.litFor with
    | some l => (l ++ w.b).signExtend 64
    | none => w.b.zeroExtend 64

/-- A mask of `len` low bits. -/
def lowMask (len : Nat) : Nat := 2 ^ len - 1

/-- BFX (R191). -/
def bfx (a spec : Word) : Word :=
  BitVec.ofNat 64 (a.toNat / 2 ^ (spec.toNat % 64) % 2 ^ (fld spec.toNat 6 6 + 1))

/-- BFI (R191). -/
def bfi (d a spec : Word) : Word :=
  let pos := spec.toNat % 64
  let m : Word := BitVec.ofNat 64 (lowMask (fld spec.toNat 6 6 + 1))
  (d &&& ~~~(m <<< pos)) ||| ((a &&& m) <<< pos)

def execAdd (w : RForm) (s : State) : Out := alu2 (fun a b => a + b) w s
def execSub (w : RForm) (s : State) : Out := alu2 (fun a b => a - b) w s
def execMul (w : RForm) (s : State) : Out := alu 3 [] (fun s => s.sreg w.a * s.opB w) w s
def execMulh (w : RForm) (s : State) : Out :=
  alu 3 [] (fun s => BitVec.ofInt 64 ((s.sreg w.a).toInt * (s.opB w).toInt / 2 ^ 64)) w s
def execMulhn (w : RForm) (s : State) : Out :=
  alu 3 [] (fun s => BitVec.ofNat 64 ((s.sreg w.a).toNat * (s.opB w).toNat / 2 ^ 64)) w s
def execDiv (w : RForm) (s : State) : Out := divide sdivW w s
def execDivn (w : RForm) (s : State) : Out := divide udivW w s
def execMod (w : RForm) (s : State) : Out := divide smodW w s
def execModn (w : RForm) (s : State) : Out := divide umodW w s
def execAnd (w : RForm) (s : State) : Out := alu2 (fun a b => a &&& b) w s
def execOr (w : RForm) (s : State) : Out := alu2 (fun a b => a ||| b) w s
def execXor (w : RForm) (s : State) : Out := alu2 (fun a b => a ^^^ b) w s
def execAndn (w : RForm) (s : State) : Out := alu2 (fun a b => a &&& ~~~b) w s
def execOrn (w : RForm) (s : State) : Out := alu2 (fun a b => a ||| ~~~b) w s
def execShl (w : RForm) (s : State) : Out := alu2 (fun a b => a <<< (b.toNat % 64)) w s
def execShra (w : RForm) (s : State) : Out := alu2 (fun a b => a.sshiftRight (b.toNat % 64)) w s
def execShrl (w : RForm) (s : State) : Out := alu2 (fun a b => a >>> (b.toNat % 64)) w s
def execRotl (w : RForm) (s : State) : Out := alu2 (fun a b => a.rotateLeft (b.toNat % 64)) w s
def execClz (w : RForm) (s : State) : Out := alu1 (fun a => BitVec.ofNat 64 (clzN 64 a.toNat)) w s
def execCtz (w : RForm) (s : State) : Out := alu1 (fun a => BitVec.ofNat 64 (ctzN 64 a.toNat)) w s
def execPopc (w : RForm) (s : State) : Out := alu1 (fun a => BitVec.ofNat 64 (popN 64 a.toNat)) w s
def execMin (w : RForm) (s : State) : Out := alu2 (fun a b => if b.slt a then b else a) w s
def execMax (w : RForm) (s : State) : Out := alu2 (fun a b => if a.slt b then b else a) w s
def execMinn (w : RForm) (s : State) : Out := alu2 (fun a b => if b.ult a then b else a) w s
def execMaxn (w : RForm) (s : State) : Out := alu2 (fun a b => if a.ult b then b else a) w s
def execSext (w : RForm) (s : State) : Out :=
  alu2 (fun a b => BitVec.ofInt 64 (signed (a.toNat % 2 ^ extWidth b) (extWidth b))) w s
def execZext (w : RForm) (s : State) : Out := alu2 (fun a b => BitVec.ofNat 64 (a.toNat % 2 ^ extWidth b)) w s
def execBfx (w : RForm) (s : State) : Out := alu 1 [] (fun s => bfx (s.sreg w.a) (s.fieldSpec w)) w s
def execBfi (w : RForm) (s : State) : Out :=
  alu 1 [w.d.toNat] (fun s => bfi (s.sreg w.d) (s.sreg w.a) (s.fieldSpec w)) w s
def execMov (w : RForm) (s : State) : Out := alu1 (fun a => a) w s
def execSel (w : RForm) (s : State) : Out :=
  alu 1 [w.d.toNat] (fun s => if s.sreg w.d ≠ 0 then s.sreg w.a else s.opB w) w s

/-- LI (R192). -/
def execLi (w : LForm) (s : State) : Out := runPure w.g (fun s => s.put (.s w.d.toNat (s.immL w)) 1) s

/-- LIH (R192): the low half of the old S[d] stays. -/
def execLih (w : LForm) (s : State) : Out :=
  runSlot w.g .ok
    (fun s => match readRegs [w.d.toNat] s with
      | .error e => .error e
      | .ok s => .ok (s.put (.s w.d.toNat ((s.immL w).setWidth 32 ++ (s.sreg w.d).setWidth 32)) 1)) s

/-- LIT has no effect of its own; its literal has been given to s0 (R37, R192). -/
def execLit (w : TForm) (s : State) : Out := runPure w.g (fun s => s) s

/-- A compare of A and B written to P[d] (R193). -/
def cmp (rel : Word → Word → Bool) (w : RForm) (s : State) : Out :=
  runSlot w.g .ok
    (fun s => match readRegs (rReads w) s with
      | .error e => .error e
      | .ok s => .ok (s.put (.p w.d.toNat (rel (s.sreg w.a) (s.opB w))) 1)) s

def execCmpeq (w : RForm) (s : State) : Out := cmp (fun a b => a == b) w s
def execCmpne (w : RForm) (s : State) : Out := cmp (fun a b => a != b) w s
def execCmplt (w : RForm) (s : State) : Out := cmp (fun a b => a.slt b) w s
def execCmple (w : RForm) (s : State) : Out := cmp (fun a b => a.sle b) w s
def execCmpltn (w : RForm) (s : State) : Out := cmp (fun a b => a.ult b) w s
def execCmplen (w : RForm) (s : State) : Out := cmp (fun a b => a.ule b) w s

/-- A predicate operation on P[a] and P[b] (R193). -/
def pred2 (op : Bool → Bool → Bool) (w : RForm) (s : State) : Out :=
  runPure w.g (fun s => s.put (.p w.d.toNat (op (s.rd.preg w.a.toNat) (s.rd.preg (w.b.toNat % 8)))) 1) s

def execPand (w : RForm) (s : State) : Out := pred2 (fun a b => a && b) w s
def execPor (w : RForm) (s : State) : Out := pred2 (fun a b => a || b) w s
def execPxor (w : RForm) (s : State) : Out := pred2 (fun a b => a != b) w s
def execPnot (w : RForm) (s : State) : Out := pred2 (fun a _ => !a) w s

/-- The FP32 value of bits [31:0] of a register (R101, R194). -/
def f32of (v : Word) : FVal := fp32.value (v.toNat % 4294967296)

/-- An exact value rounded to FP32 by RNE in a scalar register (R101, R117). -/
def toF32 (v : FVal) : Word := BitVec.ofNat 64 (fp32.round .rne v)

/-- A scalar floating operation on S[a] and S[b] (R194). -/
def falu (op : FVal → FVal → FVal) (w : RForm) (s : State) : Out :=
  alu 4 [] (fun s => toF32 (op (f32of (s.sreg w.a)) (f32of (s.opB w)))) w s

def execFadd (w : RForm) (s : State) : Out := falu FVal.add w s
def execFsub (w : RForm) (s : State) : Out := falu (fun a b => a.add b.neg) w s
def execFmul (w : RForm) (s : State) : Out := falu FVal.mul w s
def execFma (w : RForm) (s : State) : Out :=
  alu 4 [w.d.toNat]
    (fun s => toF32 (((f32of (s.sreg w.a)).mul (f32of (s.opB w))).add (f32of (s.sreg w.d)))) w s
def execFmin (w : RForm) (s : State) : Out := falu FVal.min w s
def execFmax (w : RForm) (s : State) : Out := falu FVal.max w s

/-- A floating compare written to P[d] after 4 cycles (R194). -/
def fcmp (rel : FVal → FVal → Bool) (w : RForm) (s : State) : Out :=
  runSlot w.g .ok
    (fun s => match readRegs (rReads w) s with
      | .error e => .error e
      | .ok s => .ok (s.put (.p w.d.toNat (rel (f32of (s.sreg w.a)) (f32of (s.opB w)))) 4)) s

def execFcmplt (w : RForm) (s : State) : Out := fcmp FVal.lt w s
def execFcmpeq (w : RForm) (s : State) : Out := fcmp FVal.eq w s

/-- A floating operation on S[a] alone. -/
def falu1 (op : Word → Word) (w : RForm) (s : State) : Out :=
  runSlot w.g .ok
    (fun s => match readRegs [w.a.toNat] s with
      | .error e => .error e
      | .ok s => .ok (s.put (.s w.d.toNat (op (s.sreg w.a))) 4)) s

/-- The 64-bit integer format of FCVTI and ICVTF: imm10[3] is 1 for N64 (R194). -/
def cvtFmt (w : RForm) : IFmt := ⟨64, !w.b.getLsbD 3⟩

/-- The rounding mode of FCVTI and ICVTF: imm10[2:0] (R194). -/
def cvtMode (w : RForm) : RMode := RMode.ofCode (fld w.b.toNat 0 3)

def execFcvti (w : RForm) (s : State) : Out :=
  falu1 (fun a => BitVec.ofInt 64 ((f32of a).toInt (cvtMode w) (cvtFmt w).lo (cvtFmt w).hi)) w s
def execIcvtf (w : RForm) (s : State) : Out :=
  falu1 (fun a => BitVec.ofNat 64 (fp32.round (cvtMode w) (FVal.ofInt ((cvtFmt w).value a.toNat)))) w s
def execFabs (w : RForm) (s : State) : Out := falu1 (fun a => a &&& 0x7FFFFFFF) w s
def execFneg (w : RForm) (s : State) : Out := falu1 (fun a => (a &&& 0xFFFFFFFF) ^^^ 0x80000000) w s

end Sys2Proof.Machine
end

