-- ==== Sys2Proof/Machine/SpecialFn.lean ====
section
/-!
DEFINITION. The special-function instructions (R222 to R227). SFRCP and SFSQRT are correctly rounded; the other results are a
free value inside the bound of R224, checked against a fixed-point evaluation of the function with 256 fraction bits.
-/
namespace Sys2Proof.Machine

/-- The ten functions (R63). -/
inductive SFn where
  | exp2 | log2 | rcp | rsq | sqrt | sin | cos | tanh | sigm | erf
  deriving DecidableEq, Repr

/-- The opcode of a function (R63). -/
def SFn.code : SFn → Nat
  | .exp2 => 1 | .log2 => 2 | .rcp => 3 | .rsq => 4 | .sqrt => 5 | .sin => 6 | .cos => 7 | .tanh => 8 | .sigm => 9 | .erf => 10

/-- Fixed point: the fraction bits of the evaluation. -/
def fxP : Nat := 256

/-- One, in fixed point. -/
def fxOne : Int := 2 ^ fxP

/-- π, ln 2 and 2/√π in fixed point. -/
def fxPi : Int := 363771576891766324280234942777729862653393377328392429958772151117938894466185
def fxLn2 : Int := 80260960185991308862233904206310070533990667611589946606122867505419956976171
def fxErf : Int := 130657381209852114387528029350014196574164286124850014242073919076264802271585

/-- The fixed-point product. -/
def fxMul (a b : Int) : Int := a * b / fxOne

/-- The fixed-point quotient. -/
def fxDiv (a b : Int) : Int := a * fxOne / b

/-- `m * 2^e` in fixed point. -/
def fxOf (neg : Bool) (m : Nat) (e : Int) : Int :=
  let k := e + fxP
  let v : Nat := if k ≥ 0 then m * 2 ^ k.toNat else m / 2 ^ (-k).toNat
  if neg then -(v : Int) else v

/-- The sum of a series: `term` is multiplied by `x2` and divided by `d` at each step; `step` gives the divisor of the next
term and the summand of the present one. -/
def fxSeries (f : Nat → Int → Int × Int) : Nat → Nat → Int → Int → Int
  | 0, _, _, acc => acc
  | n + 1, i, t, acc => let r := f i t; fxSeries f n (i + 1) r.1 (acc + r.2)

/-- e^t for |t| ≤ 1, in fixed point. -/
def fxExp (t : Int) : Int := fxSeries (fun i u => (fxMul u t / ((i : Int) + 1), u)) 60 0 fxOne 0

/-- 2^x as (significand in fixed point, exponent). -/
def fxExp2 (x : Int) : Int × Int := (fxExp (fxMul (x % fxOne) fxLn2), x / fxOne)

/-- e^−t for t ≥ 0, in fixed point. -/
def fxExpNeg (t : Int) : Int :=
  let r := fxExp2 (fxDiv (-t) fxLn2)
  r.1 / 2 ^ (-r.2).toNat

/-- ln y for y in [1, 2], in fixed point: 2·atanh((y − 1)/(y + 1)). -/
def fxLn (y : Int) : Int :=
  let z := fxDiv (y - fxOne) (y + fxOne)
  let z2 := fxMul z z
  2 * fxSeries (fun i u => (fxMul u z2, u / (2 * (i : Int) + 1))) 90 0 z 0

/-- sin r for |r| ≤ π/4. -/
def fxSin (r : Int) : Int :=
  let r2 := fxMul r r
  fxSeries (fun i u => (-(fxMul u r2) / (((2 * i + 2) * (2 * i + 3) : Nat) : Int), u)) 40 0 r 0

/-- cos r for |r| ≤ π/4. -/
def fxCos (r : Int) : Int :=
  let r2 := fxMul r r
  fxSeries (fun i u => (-(fxMul u r2) / (((2 * i + 1) * (2 * i + 2) : Nat) : Int), u)) 40 0 fxOne 0

/-- sin(x + q·π/2) by reduction to |r| ≤ π/4. -/
def fxTrig (x : Int) (q : Int) : Int :=
  let h := fxPi / 2
  let k := (2 * x + h) / (2 * h)
  let r := x - k * h
  match ((k + q) % 4).toNat with
  | 0 => fxSin r
  | 1 => fxCos r
  | 2 => -(fxSin r)
  | _ => -(fxCos r)

/-- erf x for |x| < 6, in fixed point. -/
def fxErfOf (x : Int) : Int :=
  let x2 := fxMul x x
  fxMul fxErf (fxSeries (fun i u => (-(fxMul u x2) / ((i : Int) + 1), u / (2 * (i : Int) + 1))) 220 0 x 0)

/-- The integer square root by bits, most significant first. -/
def isqrt : Nat → Nat → Nat → Nat
  | 0, _, r => r
  | b + 1, n, r => let c := r + 2 ^ b; isqrt b n (if c * c ≤ n then c else r)

/-- The exact quotient 1/(m·2^e) with a sticky last bit, for one correct rounding to 24 bits or fewer. -/
def rcpSticky (neg : Bool) (m : Nat) (e : Int) : FVal :=
  let k := Nat.log2 m + 70
  .fin neg (2 * (2 ^ k / m) + (if 2 ^ k % m = 0 then 0 else 1)) (-e - k - 1)

/-- √(m·2^e) with a sticky last bit. -/
def sqrtSticky (m : Nat) (e : Int) : FVal :=
  let m' := if e % 2 = 0 then m else 2 * m
  let e' := if e % 2 = 0 then e else e - 1
  let n := m' * 2 ^ 120
  let r := isqrt 90 n 0
  .fin false (2 * r + (if r * r = n then 0 else 1)) (e' / 2 - 60 - 1)

/-- The approximation of a function at a finite operand as an exact value. -/
def SFn.approx (f : SFn) (neg : Bool) (m : Nat) (e : Int) : FVal :=
  let x := fxOf neg m e
  let ofFx (v : Int) : FVal := .fin (decide (v < 0)) v.natAbs (-(fxP : Int))
  let a := fxOf false m e
  match f with
  | .exp2 => let r := fxExp2 x; .fin false r.1.toNat (r.2 - fxP)
  | .log2 =>
    let k := Nat.log2 m
    ofFx ((e + k) * fxOne + fxDiv (fxLn (fxOf false m (-(k : Int)))) fxLn2)
  | .rcp => rcpSticky neg m e
  | .sqrt => sqrtSticky m e
  | .rsq =>
    match sqrtSticky m e with
    | .fin _ n k => rcpSticky false n k
    | v => v
  | .sin => ofFx (fxTrig x 0)
  | .cos => ofFx (fxTrig x 1)
  | .tanh =>
    if a > 64 * fxOne then .fin neg 1 0
    else
      let u := fxExpNeg (2 * a)
      let v := fxDiv (fxOne - u) (fxOne + u)
      ofFx (if neg then -v else v)
  | .sigm =>
    if a > 200 * fxOne then (if neg then .fin false 0 0 else .fin false 1 0)
    else
      let u := fxExpNeg a
      let p := fxDiv fxOne (fxOne + u)
      ofFx (if neg then fxOne - p else p)
  | .erf => if a > 6 * fxOne then .fin neg 1 0 else ofFx (fxErfOf x)

/-- The unit in the last place of an FP32 code, as an exponent of two (R224). -/
def ulpExp (v : Nat) : Int := Max.max (fld v 23 8 : Int) 1 - 150

/-- |a − b| ≤ m·2^e + 2^−60·2^e, among finite values. -/
def within (a b : FVal) (m : Nat) (e : Int) : Bool :=
  match (a.add b.neg).abs with
  | .fin _ n k =>
    let q := Min.min k (e - 60)
    decide (finInt false n k q ≤ finInt false (m * 2 ^ 60 + 1) (e - 60) q)
  | _ => false

/-- An FP32 code lies within the bound of R224 of the function's value `y` at operand `x`. -/
def SFn.inBound (f : SFn) (x y : FVal) (r : Nat) : Bool :=
  let v := fp32.value r
  let half : FVal := .fin false 1 (-1)
  let two : FVal := .fin false 2 0
  match f with
  | .exp2 => within v y 1 (ulpExp r)
  | .rsq => within v y 1 (ulpExp r)
  | .log2 => if x.lt half || two.lt x then within v y 1 (ulpExp r) else within v y 1 (-22)
  | .sin => within v y 1 (-22)
  | .cos => within v y 1 (-22)
  | .rcp => false
  | .sqrt => false
  | _ => within v y 2 (ulpExp r) || within v y 1 (-24)

/-- A value below half the smallest subnormal (R224). -/
def FVal.tiny (y : FVal) : Bool := y.abs.lt (.fin false 1 (-150))

/-- The operand is an exact case of R224: the result is the correctly rounded one. -/
def SFn.exact (f : SFn) (m : Nat) (e : Int) : Bool :=
  match f with
  | .rcp => true
  | .sqrt => true
  | .exp2 => decide (e ≥ 0) || m % 2 ^ (-e).toNat == 0
  | .log2 => m == 2 ^ Nat.log2 m
  | .rsq => m == 2 ^ Nat.log2 m && (e + Nat.log2 m) % 2 == 0
  | _ => false

/-- The FP32 result at a finite non-zero operand, rounded in a mode where it is exact or correctly rounded; a zero with the sign of the exact
result below half the smallest subnormal; else a free value inside the bound of R224, the rounded value standing where the free value lies
outside it. -/
def SFn.finite (f : SFn) (md : RMode) (ty bits : Nat) (neg : Bool) (m : Nat) (e : Int) : Nat :=
  let y := f.approx neg m e
  let d := fp32.round md y
  if f.exact m e then
    (match f with
     | .exp2 =>
       let n : Int := if e ≥ 0 then (m * 2 ^ e.toNat : Nat) else ((m / 2 ^ (-e).toNat : Nat) : Int)
       fp32.round md (.fin false 1 (if neg then -n else n))
     | .log2 => fp32.round md (.ofInt (e + Nat.log2 m))
     | .rsq => fp32.round md (.fin false 1 (-((e + Nat.log2 m) / 2)))
     | _ => d)
  else if y.tiny then fp32.round .rne y
  else
    let free := (Config.sfBits f.code ty bits).toNat
    if f.inBound (.fin neg m e) y free then free else fp32.round .rne y

/-- The FP32 result of a function at an exact operand (R223 to R225). `bits` is the input element, on which the open bits
depend. -/
def SFn.apply (f : SFn) (md : RMode) (ty bits : Nat) (x : FVal) : Nat :=
  let one := 0x3F800000
  let nan := fp32.nan
  let inf := 0x7F800000
  match x with
  | .nan => nan
  | .inf neg =>
    match f with
    | .exp2 => if neg then 0 else inf
    | .log2 => if neg then nan else inf
    | .rcp => if neg then 0x80000000 else 0
    | .rsq => if neg then nan else 0
    | .sqrt => if neg then nan else inf
    | .sin => nan
    | .cos => nan
    | .tanh => if neg then 0xBF800000 else one
    | .sigm => if neg then 0 else one
    | .erf => if neg then 0xBF800000 else one
  | .fin neg m e =>
    let top : Int := (Nat.log2 m : Int) + e
    if m = 0 then
      match f with
      | .exp2 => one
      | .log2 => 0xFF800000
      | .rcp => if neg then 0xFF800000 else inf
      | .rsq => if neg then 0xFF800000 else inf
      | .sqrt => if neg then 0x80000000 else 0
      | .sin => if neg then 0x80000000 else 0
      | .cos => one
      | .tanh => if neg then 0x80000000 else 0
      | .sigm => 0x3F000000
      | .erf => if neg then 0x80000000 else 0
    else
      match f with
      | .exp2 =>
        if top ≥ 8 then (if neg then fp32.round md (.fin false 1 (-1000)) else fp32.round md (.fin false 1 1000))
        else f.finite md ty bits neg m e
      | .log2 => if neg then nan else f.finite md ty bits neg m e
      | .rsq => if neg then nan else f.finite md ty bits neg m e
      | .sqrt => if neg then nan else f.finite md ty bits neg m e
      | .sin => if top ≥ 20 then nan else f.finite md ty bits neg m e
      | .cos => if top ≥ 20 then nan else f.finite md ty bits neg m e
      | _ => f.finite md ty bits neg m e

/-- The result in one lane (R223): FP32 directly, or each packed element through an FP32 intermediate by RTO. -/
def SFn.lane (f : SFn) (ty v : Nat) : Nat :=
  match ekind ty with
  | .flt g =>
    if ty = 0 then f.apply .rne 0 v (fp32.value v)
    else unelems g.width ((elems g.width v).map (fun x =>
      g.round .rne (fp32.value (f.apply .rto ty x (g.value x)))))
  | _ => 0

/-- The course of a special-function instruction (R222 to R227): it occupies the slot for four cycles and lands after twelve. -/
def special (f : SFn) (w : SForm) (s : State) : Out :=
  runSlot w.g
    (fun s => match vsrcIssue w.src s with
      | .error e => .error e
      | .ok s => match vdstIssue w.dst s with
        | .error e => .error e
        | .ok s => .ok (if s.core.fBusy = 0 then s else s.hold .interlock))
    (fun s => match vsrcRead w.src s with
      | .error e => .error e
      | .ok s =>
        let v := vsrc w.ty.toNat w.src s
        let s := s.put (vdstWrite w.dst (tagByte w.ty.toNat 0) (s.enabled w.gm w.lm) (fun j => f.lane w.ty.toNat (v j)) s) 12
        .ok (s.modMyCore (fun c => { c with fBusy := 4 }))) s

def execSfexp2 (w : SForm) (s : State) : Out := special .exp2 w s
def execSflog2 (w : SForm) (s : State) : Out := special .log2 w s
def execSfrcp (w : SForm) (s : State) : Out := special .rcp w s
def execSfrsq (w : SForm) (s : State) : Out := special .rsq w s
def execSfsqrt (w : SForm) (s : State) : Out := special .sqrt w s
def execSfsin (w : SForm) (s : State) : Out := special .sin w s
def execSfcos (w : SForm) (s : State) : Out := special .cos w s
def execSftanh (w : SForm) (s : State) : Out := special .tanh w s
def execSfsigm (w : SForm) (s : State) : Out := special .sigm w s
def execSferf (w : SForm) (s : State) : Out := special .erf w s

end Sys2Proof.Machine
end

