-- ==== Sys2Proof/Machine/Dispatch.lean ====
section
/-!
DEFINITION. The meaning of every step: one arm for each constructor of Instr, each a direct call of its meaning.
-/
namespace Sys2Proof.Machine

def exec (i : Instr) (s : State) : Host.Outcome State Fault Refusal :=
  match i with
  | .add w => Sys2Proof.Machine.execAdd w s
  | .sub w => Sys2Proof.Machine.execSub w s
  | .mul w => Sys2Proof.Machine.execMul w s
  | .mulh w => Sys2Proof.Machine.execMulh w s
  | .mulhn w => Sys2Proof.Machine.execMulhn w s
  | .div w => Sys2Proof.Machine.execDiv w s
  | .divn w => Sys2Proof.Machine.execDivn w s
  | .mod w => Sys2Proof.Machine.execMod w s
  | .modn w => Sys2Proof.Machine.execModn w s
  | .and w => Sys2Proof.Machine.execAnd w s
  | .or w => Sys2Proof.Machine.execOr w s
  | .xor w => Sys2Proof.Machine.execXor w s
  | .andn w => Sys2Proof.Machine.execAndn w s
  | .orn w => Sys2Proof.Machine.execOrn w s
  | .shl w => Sys2Proof.Machine.execShl w s
  | .shra w => Sys2Proof.Machine.execShra w s
  | .shrl w => Sys2Proof.Machine.execShrl w s
  | .rotl w => Sys2Proof.Machine.execRotl w s
  | .clz w => Sys2Proof.Machine.execClz w s
  | .ctz w => Sys2Proof.Machine.execCtz w s
  | .popc w => Sys2Proof.Machine.execPopc w s
  | .min w => Sys2Proof.Machine.execMin w s
  | .max w => Sys2Proof.Machine.execMax w s
  | .minn w => Sys2Proof.Machine.execMinn w s
  | .maxn w => Sys2Proof.Machine.execMaxn w s
  | .sext w => Sys2Proof.Machine.execSext w s
  | .zext w => Sys2Proof.Machine.execZext w s
  | .bfx w => Sys2Proof.Machine.execBfx w s
  | .bfi w => Sys2Proof.Machine.execBfi w s
  | .mov w => Sys2Proof.Machine.execMov w s
  | .sel w => Sys2Proof.Machine.execSel w s
  | .li w => Sys2Proof.Machine.execLi w s
  | .lih w => Sys2Proof.Machine.execLih w s
  | .lit w => Sys2Proof.Machine.execLit w s
  | .cmpeq w => Sys2Proof.Machine.execCmpeq w s
  | .cmpne w => Sys2Proof.Machine.execCmpne w s
  | .cmplt w => Sys2Proof.Machine.execCmplt w s
  | .cmple w => Sys2Proof.Machine.execCmple w s
  | .cmpltn w => Sys2Proof.Machine.execCmpltn w s
  | .cmplen w => Sys2Proof.Machine.execCmplen w s
  | .pand w => Sys2Proof.Machine.execPand w s
  | .por w => Sys2Proof.Machine.execPor w s
  | .pxor w => Sys2Proof.Machine.execPxor w s
  | .pnot w => Sys2Proof.Machine.execPnot w s
  | .fadd w => Sys2Proof.Machine.execFadd w s
  | .fsub w => Sys2Proof.Machine.execFsub w s
  | .fmul w => Sys2Proof.Machine.execFmul w s
  | .fma w => Sys2Proof.Machine.execFma w s
  | .fmin w => Sys2Proof.Machine.execFmin w s
  | .fmax w => Sys2Proof.Machine.execFmax w s
  | .fcmplt w => Sys2Proof.Machine.execFcmplt w s
  | .fcmpeq w => Sys2Proof.Machine.execFcmpeq w s
  | .fcvti w => Sys2Proof.Machine.execFcvti w s
  | .icvtf w => Sys2Proof.Machine.execIcvtf w s
  | .fabs w => Sys2Proof.Machine.execFabs w s
  | .fneg w => Sys2Proof.Machine.execFneg w s
  | .br w => Sys2Proof.Machine.execBr w s
  | .brp w => Sys2Proof.Machine.execBrp w s
  | .brnp w => Sys2Proof.Machine.execBrnp w s
  | .call w => Sys2Proof.Machine.execCall w s
  | .ret w => Sys2Proof.Machine.execRet w s
  | .jmps w => Sys2Proof.Machine.execJmps w s
  | .loop w => Sys2Proof.Machine.execLoop w s
  | .loopi w => Sys2Proof.Machine.execLoopi w s
  | .loopx w => Sys2Proof.Machine.execLoopx w s
  | .mloop w => Sys2Proof.Machine.execMloop w s
  | .lbrk w => Sys2Proof.Machine.execLbrk w s
  | .getx w => Sys2Proof.Machine.execGetx w s
  | .chksig w => Sys2Proof.Machine.execChksig w s
  | .phase w => Sys2Proof.Machine.execPhase w s
  | .qwait w => Sys2Proof.Machine.execQwait w s
  | .qfree w => Sys2Proof.Machine.execQfree w s
  | .waitc w => Sys2Proof.Machine.execWaitc w s
  | .bara w => Sys2Proof.Machine.execBara w s
  | .barw w => Sys2Proof.Machine.execBarw w s
  | .bar w => Sys2Proof.Machine.execBar w s
  | .gjoin w => Sys2Proof.Machine.execGjoin w s
  | .giss w => Sys2Proof.Machine.execGiss w s
  | .gend w => Sys2Proof.Machine.execGend w s
  | .lnch w => Sys2Proof.Machine.execLnch w s
  | .done w => Sys2Proof.Machine.execDone w s
  | .yield w => Sys2Proof.Machine.execYield w s
  | .trap w => Sys2Proof.Machine.execTrap w s
  | .eretResume w => Sys2Proof.Machine.execEretResume w s
  | .eretSkip w => Sys2Proof.Machine.execEretSkip w s
  | .eretEsc w => Sys2Proof.Machine.execEretEsc w s
  | .sysrd w => Sys2Proof.Machine.execSysrd w s
  | .syswr w => Sys2Proof.Machine.execSyswr w s
  | .qcfg w => Sys2Proof.Machine.execQcfg w s
  | .qpop w => Sys2Proof.Machine.execQpop w s
  | .qsplc w => Sys2Proof.Machine.execQsplc w s
  | .qunsp w => Sys2Proof.Machine.execQunsp w s
  | .qsync w => Sys2Proof.Machine.execQsync w s
  | .qstat w => Sys2Proof.Machine.execQstat w s
  | .qclr w => Sys2Proof.Machine.execQclr w s
  | .dset w => Sys2Proof.Machine.execDset w s
  | .dget w => Sys2Proof.Machine.execDget w s
  | .qzap w => Sys2Proof.Machine.execQzap w s
  | .vadd w => Sys2Proof.Machine.execVadd w s
  | .vsub w => Sys2Proof.Machine.execVsub w s
  | .vmul w => Sys2Proof.Machine.execVmul w s
  | .vfma w => Sys2Proof.Machine.execVfma w s
  | .vfms w => Sys2Proof.Machine.execVfms w s
  | .vfnma w => Sys2Proof.Machine.execVfnma w s
  | .vmin w => Sys2Proof.Machine.execVmin w s
  | .vmax w => Sys2Proof.Machine.execVmax w s
  | .vabs w => Sys2Proof.Machine.execVabs w s
  | .vneg w => Sys2Proof.Machine.execVneg w s
  | .vabd w => Sys2Proof.Machine.execVabd w s
  | .vadds w => Sys2Proof.Machine.execVadds w s
  | .vsubs w => Sys2Proof.Machine.execVsubs w s
  | .vmulh w => Sys2Proof.Machine.execVmulh w s
  | .vand w => Sys2Proof.Machine.execVand w s
  | .vor w => Sys2Proof.Machine.execVor w s
  | .vxor w => Sys2Proof.Machine.execVxor w s
  | .vnot w => Sys2Proof.Machine.execVnot w s
  | .vshl w => Sys2Proof.Machine.execVshl w s
  | .vshra w => Sys2Proof.Machine.execVshra w s
  | .vshrl w => Sys2Proof.Machine.execVshrl w s
  | .vclz w => Sys2Proof.Machine.execVclz w s
  | .vpopc w => Sys2Proof.Machine.execVpopc w s
  | .vmov w => Sys2Proof.Machine.execVmov w s
  | .vsel w => Sys2Proof.Machine.execVsel w s
  | .vidx w => Sys2Proof.Machine.execVidx w s
  | .vcmpeq w => Sys2Proof.Machine.execVcmpeq w s
  | .vcmpne w => Sys2Proof.Machine.execVcmpne w s
  | .vcmplt w => Sys2Proof.Machine.execVcmplt w s
  | .vcmple w => Sys2Proof.Machine.execVcmple w s
  | .vpand w => Sys2Proof.Machine.execVpand w s
  | .vpor w => Sys2Proof.Machine.execVpor w s
  | .vpnot w => Sys2Proof.Machine.execVpnot w s
  | .vradd w => Sys2Proof.Machine.execVradd w s
  | .vrmax w => Sys2Proof.Machine.execVrmax w s
  | .vrmin w => Sys2Proof.Machine.execVrmin w s
  | .xcp w => Sys2Proof.Machine.execXcp w s
  | .xbc w => Sys2Proof.Machine.execXbc w s
  | .vdot2 w => Sys2Proof.Machine.execVdot2 w s
  | .vdot4 w => Sys2Proof.Machine.execVdot4 w s
  | .sfexp2 w => Sys2Proof.Machine.execSfexp2 w s
  | .sflog2 w => Sys2Proof.Machine.execSflog2 w s
  | .sfrcp w => Sys2Proof.Machine.execSfrcp w s
  | .sfrsq w => Sys2Proof.Machine.execSfrsq w s
  | .sfsqrt w => Sys2Proof.Machine.execSfsqrt w s
  | .sfsin w => Sys2Proof.Machine.execSfsin w s
  | .sfcos w => Sys2Proof.Machine.execSfcos w s
  | .sftanh w => Sys2Proof.Machine.execSftanh w s
  | .sfsigm w => Sys2Proof.Machine.execSfsigm w s
  | .sferf w => Sys2Proof.Machine.execSferf w s
  | .ppack w => Sys2Proof.Machine.execPpack w s
  | .punpk w => Sys2Proof.Machine.execPunpk w s
  | .pcvt w => Sys2Proof.Machine.execPcvt w s
  | .pscl w => Sys2Proof.Machine.execPscl w s
  | .pdscl w => Sys2Proof.Machine.execPdscl w s
  | .pres w => Sys2Proof.Machine.execPres w s
  | .pcrt w => Sys2Proof.Machine.execPcrt w s
  | .pshuf w => Sys2Proof.Machine.execPshuf w s
  | .ptrn w => Sys2Proof.Machine.execPtrn w s
  | .pswz w => Sys2Proof.Machine.execPswz w s
  | .plut w => Sys2Proof.Machine.execPlut w s
  | .ld w => Sys2Proof.Machine.execLd w s
  | .st w => Sys2Proof.Machine.execSt w s
  | .ldl w => Sys2Proof.Machine.execLdl w s
  | .stl w => Sys2Proof.Machine.execStl w s
  | .ldv w => Sys2Proof.Machine.execLdv w s
  | .stv w => Sys2Proof.Machine.execStv w s
  | .ldg w => Sys2Proof.Machine.execLdg w s
  | .sts w => Sys2Proof.Machine.execSts w s
  | .pref w => Sys2Proof.Machine.execPref w s
  | .flush w => Sys2Proof.Machine.execFlush w s
  | .flushInv w => Sys2Proof.Machine.execFlushInv w s
  | .flushAll w => Sys2Proof.Machine.execFlushAll w s
  | .fence w => Sys2Proof.Machine.execFence w s
  | .lock w => Sys2Proof.Machine.execLock w s
  | .unlock w => Sys2Proof.Machine.execUnlock w s
  | .aadd w => Sys2Proof.Machine.execAadd w s
  | .amin w => Sys2Proof.Machine.execAmin w s
  | .amax w => Sys2Proof.Machine.execAmax w s
  | .aand w => Sys2Proof.Machine.execAand w s
  | .aor w => Sys2Proof.Machine.execAor w s
  | .axor w => Sys2Proof.Machine.execAxor w s
  | .aswp w => Sys2Proof.Machine.execAswp w s
  | .acas w => Sys2Proof.Machine.execAcas w s
  | .afadd w => Sys2Proof.Machine.execAfadd w s
  | .redadd w => Sys2Proof.Machine.execRedadd w s
  | .redmin w => Sys2Proof.Machine.execRedmin w s
  | .redmax w => Sys2Proof.Machine.execRedmax w s
  | .redfadd w => Sys2Proof.Machine.execRedfadd w s
  | .lend w => Sys2Proof.Machine.execLend w s
  | .lendPass w => Sys2Proof.Machine.execLendPass w s
  | .retn w => Sys2Proof.Machine.execRetn w s
  | .split w => Sys2Proof.Machine.execSplit w s
  | .join w => Sys2Proof.Machine.execJoin w s
  | .share w => Sys2Proof.Machine.execShare w s
  | .unshr w => Sys2Proof.Machine.execUnshr w s
  | .tkmodePlain w => Sys2Proof.Machine.execTkmodePlain w s
  | .tkmodeAtomic w => Sys2Proof.Machine.execTkmodeAtomic w s
  | .tkqry w => Sys2Proof.Machine.execTkqry w s
  | .tkqryChain w => Sys2Proof.Machine.execTkqryChain w s
  | .tkqrySelf w => Sys2Proof.Machine.execTkqrySelf w s
  | .reclaimClean w => Sys2Proof.Machine.execReclaimClean w s
  | .reclaimReinit w => Sys2Proof.Machine.execReclaimReinit w s
  | .reclaimCreate w => Sys2Proof.Machine.execReclaimCreate w s
  | .reclaimDestroy w => Sys2Proof.Machine.execReclaimDestroy w s
  | .reclaimSeize w => Sys2Proof.Machine.execReclaimSeize w s
  | .cpy w => Sys2Proof.Machine.execCpy w s
  | .cpym w => Sys2Proof.Machine.execCpym w s
  | .cpyn w => Sys2Proof.Machine.execCpyn w s
  | .cpyq w => Sys2Proof.Machine.execCpyq w s
  | .cpyf w => Sys2Proof.Machine.execCpyf w s
  | .sxbm w => Sys2Proof.Machine.execSxbm w s
  | .sxrl w => Sys2Proof.Machine.execSxrl w s
  | .sxstop w => Sys2Proof.Machine.execSxstop w s
  | .sxstopAll w => Sys2Proof.Machine.execSxstopAll w s
  | .mnop w => Sys2Proof.Machine.execMnop w s
  | .mpa w => Sys2Proof.Machine.execMpa w s
  | .mpsh w => Sys2Proof.Machine.execMpsh w s
  | .macc w => Sys2Proof.Machine.execMacc w s
  | .mshf w => Sys2Proof.Machine.execMshf w s
  | .mdrn w => Sys2Proof.Machine.execMdrn w s
  | .mclr w => Sys2Proof.Machine.execMclr w s
  | .mlda w => Sys2Proof.Machine.execMlda w s
  | .interlockHold c => Sys2Proof.Machine.execInterlockHold c s
  | .freezeThaw c => Sys2Proof.Machine.execFreezeThaw c s
  | .segmentExpansion c k seg => Sys2Proof.Machine.execSegmentExpansion c k seg s
  | .exposedWriteLanding c => Sys2Proof.Machine.execExposedWriteLanding c s
  | .loadDataArrival n => Sys2Proof.Machine.execLoadDataArrival n s
  | .registerLanding c k => Sys2Proof.Machine.execRegisterLanding c k s
  | .slotLanding n => Sys2Proof.Machine.execSlotLanding n s
  | .waitConditionMet c k => Sys2Proof.Machine.execWaitConditionMet c k s
  | .starvationGuard c k => Sys2Proof.Machine.execStarvationGuard c k s
  | .preemptionRequest c k => Sys2Proof.Machine.execPreemptionRequest c k s
  | .preemptionLimitExpiry c k => Sys2Proof.Machine.execPreemptionLimitExpiry c k s
  | .serviceEntry c => Sys2Proof.Machine.execServiceEntry c s
  | .escalationDrainComplete c k => Sys2Proof.Machine.execEscalationDrainComplete c k s
  | .phaseSnapshot c k => Sys2Proof.Machine.execPhaseSnapshot c k s
  | .phaseRollback c k => Sys2Proof.Machine.execPhaseRollback c k s
  | .spliceRequest n => Sys2Proof.Machine.execSpliceRequest n s
  | .spliceAnswer n => Sys2Proof.Machine.execSpliceAnswer n s
  | .remoteAppend n => Sys2Proof.Machine.execRemoteAppend n s
  | .headMessageSend c k q => Sys2Proof.Machine.execHeadMessageSend c k q s
  | .headMessage n ok => Sys2Proof.Machine.execHeadMessage n ok s
  | .unspliceMarker n => Sys2Proof.Machine.execUnspliceMarker n s
  | .headRequest n => Sys2Proof.Machine.execHeadRequest n s
  | .headRequestAnswer n => Sys2Proof.Machine.execHeadRequestAnswer n s
  | .copyStart die => Sys2Proof.Machine.execCopyStart die s
  | .copyPiece n j => Sys2Proof.Machine.execCopyPiece n j s
  | .cpymDelivery n k => Sys2Proof.Machine.execCpymDelivery n k s
  | .notify n => Sys2Proof.Machine.execNotify n s
  | .copyCompletion n => Sys2Proof.Machine.execCopyCompletion n s
  | .sparseStart c => Sys2Proof.Machine.execSparseStart c s
  | .metadataArrival c => Sys2Proof.Machine.execMetadataArrival c s
  | .sparseEmit c => Sys2Proof.Machine.execSparseEmit c s
  | .sparseFinish c => Sys2Proof.Machine.execSparseFinish c s
  | .latchReady n => Sys2Proof.Machine.execLatchReady n s
  | .matrixAccumulationLanding c => Sys2Proof.Machine.execMatrixAccumulationLanding c s
  | .drainSlotPresent c => Sys2Proof.Machine.execDrainSlotPresent c s
  | .barrierArrival n => Sys2Proof.Machine.execBarrierArrival n s
  | .barrierRelease n => Sys2Proof.Machine.execBarrierRelease n s
  | .gangStart n => Sys2Proof.Machine.execGangStart n s
  | .gissHoldEnd n => Sys2Proof.Machine.execGissHoldEnd n s
  | .gangCompletion n => Sys2Proof.Machine.execGangCompletion n s
  | .homeAccess n => Sys2Proof.Machine.execHomeAccess n s
  | .homeAtomic n => Sys2Proof.Machine.execHomeAtomic n s
  | .tableWalkRead c j => Sys2Proof.Machine.execTableWalkRead c j s
  | .dirtyReport n => Sys2Proof.Machine.execDirtyReport n s
  | .tokenSliceRequest n => Sys2Proof.Machine.execTokenSliceRequest n s
  | .ownershipInvalidation n => Sys2Proof.Machine.execOwnershipInvalidation n s
  | .partyDeath p => Sys2Proof.Machine.execPartyDeath p s
  | .orphanScan die p => Sys2Proof.Machine.execOrphanScan die p s
  | .completionReread c k => Sys2Proof.Machine.execCompletionReread c k s
  | .l1Eviction c line => Sys2Proof.Machine.execL1Eviction c line s
  | .flushMarker n => Sys2Proof.Machine.execFlushMarker n s
  | .flushAcknowledgement n => Sys2Proof.Machine.execFlushAcknowledgement n s
  | .lqPush h die q addr => Sys2Proof.Machine.execLqPush h die q addr s
  | .lqControlWrite h die q v => Sys2Proof.Machine.execLqControlWrite h die q v s
  | .launchAcceptance die q => Sys2Proof.Machine.execLaunchAcceptance die q s
  | .packageTick => Sys2Proof.Machine.execPackageTick s
  | .dispatch l e => Sys2Proof.Machine.execDispatch l e s
  | .doneFinish c k => Sys2Proof.Machine.execDoneFinish c k s
  | .launchEnd l => Sys2Proof.Machine.execLaunchEnd l s
  | .coalWindowExpiry t => Sys2Proof.Machine.execCoalWindowExpiry t s
  | .contextSave c k => Sys2Proof.Machine.execContextSave c k s
  | .contextRestore n c k => Sys2Proof.Machine.execContextRestore n c k s
  | .sampleInterval c r => Sys2Proof.Machine.execSampleInterval c r s
  | .clockSwitch c => Sys2Proof.Machine.execClockSwitch c s
  | .clockSwitchEnd c => Sys2Proof.Machine.execClockSwitchEnd c s
  | .scratchpadSweep c => Sys2Proof.Machine.execScratchpadSweep c s
  | .sageCommit => Sys2Proof.Machine.execSageCommit s
  | .bankAccess n => Sys2Proof.Machine.execBankAccess n s
  | .alertBlockEnd n => Sys2Proof.Machine.execAlertBlockEnd n s
  | .refresh n => Sys2Proof.Machine.execRefresh n s
  | .patrolScrub stack => Sys2Proof.Machine.execPatrolScrub stack s
  | .l2Sweep die slice => Sys2Proof.Machine.execL2Sweep die slice s
  | .channelClr h stack => Sys2Proof.Machine.execChannelClr h stack s
  | .force h die => Sys2Proof.Machine.execForce h die s
  | .flitArrival link lane outw ok => Sys2Proof.Machine.execFlitArrival link lane outw ok s
  | .linkFailure link => Sys2Proof.Machine.execLinkFailure link s
  | .transportTimeout n => Sys2Proof.Machine.execTransportTimeout n s
  | .packetReceive port p => Sys2Proof.Machine.execPacketReceive port p s
  | .requestAdmission n => Sys2Proof.Machine.execRequestAdmission n s
  | .shareRefill c => Sys2Proof.Machine.execShareRefill c s
  | .hostAccess h a d wr => Sys2Proof.Machine.execHostAccess h a d wr s
  | .hostLend h => Sys2Proof.Machine.execHostLend h s
  | .hostLendPass h => Sys2Proof.Machine.execHostLendPass h s
  | .hostRetn h => Sys2Proof.Machine.execHostRetn h s
  | .hostSplit h => Sys2Proof.Machine.execHostSplit h s
  | .hostJoin h => Sys2Proof.Machine.execHostJoin h s
  | .hostShare h => Sys2Proof.Machine.execHostShare h s
  | .hostUnshr h => Sys2Proof.Machine.execHostUnshr h s
  | .hostTkmodePlain h => Sys2Proof.Machine.execHostTkmodePlain h s
  | .hostTkmodeAtomic h => Sys2Proof.Machine.execHostTkmodeAtomic h s
  | .hostTkqry h => Sys2Proof.Machine.execHostTkqry h s
  | .hostReclaimClean h => Sys2Proof.Machine.execHostReclaimClean h s
  | .hostReinit h => Sys2Proof.Machine.execHostReinit h s
  | .hostCreate h => Sys2Proof.Machine.execHostCreate h s
  | .hostDestroy h => Sys2Proof.Machine.execHostDestroy h s
  | .hostSeize h => Sys2Proof.Machine.execHostSeize h s
  | .xinvAsn h => Sys2Proof.Machine.execXinvAsn h s
  | .xinvRange h => Sys2Proof.Machine.execXinvRange h s
  | .hostBadCommand h op => Sys2Proof.Machine.execHostBadCommand h op s
  | .ago h => Sys2Proof.Machine.execAgo h s
  | .registerWrite h a v => Sys2Proof.Machine.execRegisterWrite h a v s
  | .journalWrite => Sys2Proof.Machine.execJournalWrite s
  | .throttleStep pnow tj => Sys2Proof.Machine.execThrottleStep pnow tj s
  | .overtemperature => Sys2Proof.Machine.execOvertemperature s
  | .packageReset ims => Sys2Proof.Machine.execPackageReset ims s
  | .liveUpdate im => Sys2Proof.Machine.execLiveUpdate im s
  | .mgmtPower on => Sys2Proof.Machine.execMgmtPower on s
  | .mgmtReset => Sys2Proof.Machine.execMgmtReset s
  | .mgmtFirmwareUpdate im => Sys2Proof.Machine.execMgmtFirmwareUpdate im s
  | .mgmtRead n => Sys2Proof.Machine.execMgmtRead n s
  | .mgmtAttestation nonce => Sys2Proof.Machine.execMgmtAttestation nonce s
  | .mgmtForceDecTed die => Sys2Proof.Machine.execMgmtForceDecTed die s
  | .mgmtRetireCore c => Sys2Proof.Machine.execMgmtRetireCore c s
  | .mgmtRaiseMinSvn svn signed => Sys2Proof.Machine.execMgmtRaiseMinSvn svn signed s
  | .mgmtClearCore c => Sys2Proof.Machine.execMgmtClearCore c s
  | .podRemove n => Sys2Proof.Machine.execPodRemove n s
  | .podAdmit n ok => Sys2Proof.Machine.execPodAdmit n ok s
  | .emptyBundle => Sys2Proof.Machine.execEmptyBundle s
  | .unassignedOpcode => Sys2Proof.Machine.execUnassignedOpcode s
  | .taskKill c k => Sys2Proof.Machine.execTaskKill c k s
  | .coreUnresponsive c => Sys2Proof.Machine.execCoreUnresponsive c s
  | .powerLoss => Sys2Proof.Machine.execPowerLoss s
  | .portLinkDown n => Sys2Proof.Machine.execPortLinkDown n s
  | .portLinkUp n => Sys2Proof.Machine.execPortLinkUp n s
  | .softError e => Sys2Proof.Machine.execSoftError e s
  | .writeAcknowledgement n => Sys2Proof.Machine.execWriteAcknowledgement n s
  | .hselWrite h v => Sys2Proof.Machine.execHselWrite h v s

end Sys2Proof.Machine
end

