-- ==== Sys2Proof/Machine/Step.lean ====
section
/-!
DEFINITION. The step of the machine: the head of the agenda, or one wall cycle by the default policy (assumption 7); and the state in
which a given slot word is the next to issue.
-/
namespace Sys2Proof.Machine

/-- One step: an event of the agenda is run by `exec`, and so is every slot that issues in a wall cycle. -/
def step (s : State) : Host.Outcome State Fault Refusal := s.stepWith exec

/-- The state with a word of the opcode table in the first bundle that issues: core 0 runs context 0 at code address 0, whose segment
holds that bundle alone, and the next step is a wall cycle (assumption 18). -/
def State.withFetchWord (s : State) (nbits w : Nat) : State := s.placeWord nbits w

end Sys2Proof.Machine
end

