-- ==== Sys2Proof/Safety.lean ====
section
/-!
DEFINITION. What counts as a safe run: memory in its canonical form, and steps that never stop.
-/
namespace Sys2Proof.Machine

/-- The memory of a state is in canonical form. -/
def State.memOk (s : State) : Prop := s.mem.wf = true

/-- The state after `n` steps, where no step stops. -/
def State.after : Nat → State → Option State
  | 0, s => some s
  | n + 1, s => match step s with
    | .next t => t.after n
    | _ => none

/-- A run of the machine from a state that never stops. -/
def State.SafeRun (s : State) : Prop := ∀ n : Nat, ∃ t : State, s.after n = some t

end Sys2Proof.Machine
end

