-- ==== Sys2Proof/Certificates/Slice0/Obligations.lean ====
section
/-!
DEFINITION. The statements about the machine, each a proposition that the provers settle. `Claims` holds the terms in which they are said.
-/
open Sys2Proof Sys2Proof.Machine

namespace Sys2Proof.Claims

/-- The first part of a wall cycle in a package with one core that has a context: the counts of the wall clock, then what the
sequencer does before it issues. -/
def PreIssue (c : Nat) (s : State) : State :=
  let a := ({ s with agenda := s.agenda.tail } : State).quietPkgs
  (({ a with cycle := a.cycle + 1 } : State).modCore c Core.wallTick).preIssue c

/-- The state in which the slots of core `c`'s bundle issue in that cycle: due writes have landed, the bundle is loaded. -/
def BundleStart (c : Nat) (s : State) : State := ((PreIssue c s).beginCycle c).prepare c

/-- The state in which the one slot of a bundle issues: the bundle's own pops are known to the checks, the slot is selected. -/
def SlotStart (c sl : Nat) (s : State) : State :=
  let a := (BundleStart c s).modBun (fun b => { b with lit := none })
  (a.modBun (fun b => { b with pops := b.fixed.getD (a.popsOf exec) })).modBun (fun b => { b with slot := sl })

/-- The next step of `s` is a wall cycle in which nothing falls due by its time, only core `c` has a context, and nothing keeps it from issuing the bundle at its
program counter, which has the one slot word `w` in slot `sl`. -/
structure IssuesWord (c sl w : Nat) (s : State) : Prop where
  cycle : s.agenda.head? = some (.cycle false)
  due0 : ({ s with agenda := s.agenda.tail } : State).onTime = []
  one : s.cores.map (fun e => e.1) = [c]
  clocked : (PreIssue c s).clocked c = true
  task : ((PreIssue c s).coreAt c).held = none
  alone : (PreIssue c s).coreGang c = none
  may : ((PreIssue c s).coreAt c).mayIssue (s.coreAt c) = true
  thawed : ((PreIssue c s).coreAt c).frozen = false
  begun : (((PreIssue c s).beginCycle c).coreAt c).frozen = false ∧ (((PreIssue c s).beginCycle c).coreAt c).held = none
  due : ({ (PreIssue c s).beginCycle c with cur := c } : State).due = .bundle ∧ (BundleStart c s).due = .bundle
  fresh : (BundleStart c s).me.phase.next = none ∧ (BundleStart c s).bundleTrap = none ∧ (BundleStart c s).bun.done = 0
  again : (BundleStart c s).bun.recheck = false ∧ ((BundleStart c s).me.pend.any fun p => p.again) = false ∧ (BundleStart c s).me.refused = false
  word : (BundleStart c s).bun.bundle.words = [(sl, w)] ∧ (BundleStart c s).bun.bundle.literal = none

/-- A slot whose guard is true, in a bundle that nothing holds so far, whose source registers pass the residue check. -/
def Issues (g : BitVec 4) (rs : List Nat) (s : State) : Prop :=
  s.guard g = true ∧ s.bun.holds = [] ∧ ∀ r ∈ rs, r ∉ s.me.badS

/-- `b` is the second operand of form R: S[b], the immediate sign-extended, or the LIT-extended value (R190, R37). -/
def IsB (w : RForm) (s : State) (b : Word) : Prop :=
  (w.i = 0 ∧ b = s.sreg (w.b.extractLsb' 0 5)) ∨
  (w.i = 1 ∧ s.litFor = none ∧ b = w.b.signExtend 64) ∨
  ∃ l, w.i = 1 ∧ s.litFor = some l ∧ b = (l ++ w.b).signExtend 64

/-- The instruction completes, and all it does is to put the write `x` in flight, to land after `lat` cycles (R55). -/
def Writes (i : Instr) (x : Write) (lat : Nat) (s : State) : Prop := exec i s = .next (s.put x lat)

/-- A write in flight: the issuing context's list of exposed writes grows by `x`, and nothing else changes. -/
def InFlight (x : Write) (lat : Nat) (s t : State) : Prop :=
  t.me = { s.me with pend := s.me.pend ++ [⟨lat, s.slot, x, s.seq, lat, s.me.pc, 0, false, s.maskSel⟩] } ∧
  (∀ c k, (c ≠ s.cur ∨ k ≠ s.core.issuing) → t.ctxAt c k = s.ctxAt c k) ∧
  t = { s with cores := t.cores } ∧ ∀ c, { t.coreAt c with ctxs := [] } = { s.coreAt c with ctxs := [] }

/-- The code address of bundle `idx` in the segment `disp` × 64 bytes from the current one (R26, R195). -/
def TargetOf (s : State) (disp : Int) (idx : BitVec 9) : Word :=
  BitVec.ofInt 64 (((s.me.pc.toNat / 512 : Nat) + disp) * 512 + idx.toNat)

/-- The bundle's own control action is `c` from here on, and nothing else changes. -/
def Chooses (c : Ctl) (s : State) : State := s.modBun (fun b => { b with ctl := some c })

/-- A loop instruction may push: no END of the top level here, fewer than six levels, X# free, END inside every enclosing level of
the segment (R198, R200). -/
def LoopFits (w : JForm) (s : State) : Prop :=
  s.atLoopEnd = false ∧ s.me.loops.length < 6 ∧ (∀ l ∈ s.me.loops, l.xn ≠ w.x.toNat) ∧
    ∀ l ∈ s.me.loops, l.start.toNat / 512 = s.me.pc.toNat / 512 → w.e.toNat ≤ l.endIdx

/-- The loop instruction completes with iteration count `n`, first index `x0`, step and stage count (R198). -/
def Loops (i : Instr) (w : JForm) (n : Nat) (x0 : Word) (step : BitVec 32) (stg : Nat) (s : State) : Prop :=
  exec i s = .next (if n = 0 then Chooses (.skip w.e.toNat) s
    else Chooses (.push ⟨n - 1, s.me.pc + 1, w.e.toNat, w.x.toNat, stg, step, some (s.me.follow (TargetOf s 0 w.e))⟩ x0) s)

/-- The instruction stops at issue with cause `c` and detail 0 (R49). -/
def TrapsAt (i : Instr) (c : Cause) (s : State) : Prop := exec i s = .next (s.stop (.trap c 0))

/-- Only what the bundle has collected differs. -/
def BundleOnly (s t : State) : Prop := ∃ b, t = s.modBun (fun _ => b)

/-- The instruction completes and leaves one queue change for the bundle's end (R83). -/
def Defers (i : Instr) (q : Nat) (a : QAct) (s : State) : Prop :=
  exec i s = .next (s.modBun (fun b => { b with acts := b.acts ++ [a], cfgs := b.cfgs ++ [(s.slot, q)] }))

/-- The slot at offset `k` of queue `q` is within its distance and present (R79, R80). -/
def SlotPresent (q k : Nat) (s : State) : Prop :=
  let d := s.queue q
  ((d.mode = .localQ ∧ k < d.used) ∨ (d.mode = .spliceIn ∧ k < d.adv)) ∧ d.pmap.getLsbD (d.at k) = true

/-- A slot that pops `p` slots of queue `q` may append one to it (R53, R79, R84, R85, R87, R90, R210): the queue is local with room behind
what is popped, pinned or kept for a rollback, or spliced out with room at the receiver, or the index was given before a fault. -/
def MayAppend (q p : Nat) (s : State) : Prop :=
  let d := s.queue q
  let n := s.bun.appended q
  let gone := max (s.bun.popped q) p
  let pins := (s.bun.pins.filter (fun e => e.1 == q)).map (fun e => e.2)
  (∃ e ∈ s.bun.pre, e.1 = s.slot ∧ e.2.1 = q) ∨
  (d.mode = .localQ ∧ d.used - gone + d.behind gone s.data.bind.phaseBound pins + n + 1 ≤ d.cap) ∨
  (d.mode = .spliceOut ∧ d.down = false ∧ d.refused = false ∧ d.pend = false ∧ d.failing = false ∧ d.mirrorOk = true ∧ n + 1 ≤ d.freeOut)

/-- A phase has been reached (R309): at most 2^31 - 1 phases ahead, modulo 2^32. -/
def Reached (phase b : Nat) : Prop := (phase + 2 ^ 32 - b % 2 ^ 32) % 2 ^ 32 < 2 ^ 31

/-- A barrier word passes R312 in a task context whose launch has bound the slot. -/
def MayUseBarrier (v : Word) (s : State) : Prop :=
  barOk v = true ∧ s.inService = false ∧ s.me.bind.launch ≠ 0 ∧ (s.bar (barKey s.cur v)).launch = s.me.bind.launch

/-- An access of `n` bytes at `a` passes the checks of R134: aligned, translated into the pieces `ps`, with no token operation pending
on them, and with the rights of R165 once what the launch lends on demand is lent (`t`). -/
def MayAccess (k : RKind) (a n align : Nat) (s : State) (ps : List Piece) (t : State) : Prop :=
  a % align = 0 ∧ s.resolve (k == .store || k == .atom) a n = .pieces ps ∧ s.tokenPending ps = false ∧
    t = s.lendOnDemand ps ∧ t.pieceCause k ps = none

/-- A plain store also keeps the phase rule of R220. -/
def MayStore (a n align : Nat) (s : State) (ps : List Piece) (t : State) : Prop :=
  MayAccess .store a n align s ps t ∧ (s.data.bind.phaseBound = true → a < 0x200000 ∧ s.data.phase.out ≤ a ∧
    a + n ≤ s.data.phase.out + 512 * s.data.phase.blocks)

/-- The slot's address has not failed its residue check twice (R216). -/
def AddrSound (s : State) : Prop := Tab.get 0 s.core.upset s.slot ≠ 3

/-- The core may have one more request outstanding (R8, R396), and the slot's address is sound. -/
def HasRoom (s : State) : Prop :=
  s.outstanding s.cur < 1024 ∧ s.portWaiting s.cur (s.shareClass s.cur s.core.issuing) < 256 ∧ AddrSound s

/-- The access of a load of the pieces `ps` into `dst`. -/
def LoadOf (m : MForm) (ps : List Piece) (dst : ADst) (s : State) : Msg :=
  .access { cls := .ld, scope := m.sc.toNat, cached := s.cachedOf m.sc ps, nc := ncOf ps, asn := s.data.bind.asn,
            reads := ps.map (fun p => (p.pa, p.len)), dst := dst }

/-- The access that carries the writes `ws` of a store, with the regions whose first write is still to be reported (R163). -/
def StoreOf (sc : BitVec 3) (ws : List PWrite) (s : State) : Msg :=
  let ps := ws.map (fun w => w.1)
  .access { cls := .st, scope := sc.toNat, cached := s.cachedOf sc ps, nc := ncOf ps, asn := s.data.bind.asn,
            writes := ws.map (fun w => w.2), report := s.toReport ps }

/-- The bytes of a list cut along consecutive pieces. -/
def Along (ps : List Piece) (bs : List Byte) : List PWrite := cutBytes ps bs

/-- The address of a slot access (R135): a stream of KIND 01 adds its base, and the slot lies within its LEN bytes. -/
def SlotAt (m : MForm) (st : Stream) (n a : Nat) (v : State) : Prop :=
  a = (if st.kind = 1 then (st.abase + v.ea m) % 2 ^ 64 else v.ea m) ∧ (st.kind = 1 → v.ea m + n ≤ st.len)

/-- An atomic or reduction of `n` bytes at `a` passes its checks (R134, R181, R220): `t` is the state after them. -/
def MayUpdate (a n align : Nat) (s : State) (ps : List Piece) (t : State) : Prop :=
  s.data.bind.phaseBound = false ∧ a % align = 0 ∧ 0x200000 ≤ a ∧ inScratch s (s.piecesOf .atom a n) = false ∧
    MayAccess .atom a n align s ps t

/-- The atomic completes: its access with operation `op` is in flight, its landing entries wait for the old value (R183). -/
def Updates (i : Instr) (op : AtomOp) (m : MForm) (s t : State) : Prop :=
  let cls := m.sz.toNat
  let d := m.data.toNat % 32
  let ps := t.piecesOf .atom (s.eaNoIdx m) (atomBytes cls)
  exec i s = .next (((t.awaitLanding m.at16 (if cls = 7 then [.s d 0, .s (d + 1) 0] else [.s d 0])).send (.access
    { cls := .at, scope := m.sc.toNat, nc := ncOf ps, dst := if cls = 7 then .pair d else .old d cls, report := t.toReport ps,
      atom := some { op := op, cls := cls, elems := [(paAt ps 0, s.wide cls m.idx.toNat)], cmp := s.wide cls d, mac := s.data.hdbg.getLsbD 0 } })).reporting (t.toReport ps))

/-- The reduction completes: its access with operation `op` on the elements `es`, as (offset, operand), is in flight; it lands nothing (R184). -/
def Reduces (i : Instr) (op : AtomOp) (m : MForm) (n : Nat) (es : List (Nat × Nat)) (s t : State) : Prop :=
  let ps := t.piecesOf .atom (s.eaNoIdx m) n
  exec i s = .next ((t.send (.access
    { cls := .at, scope := m.sc.toNat, nc := ncOf ps, report := t.toReport ps,
      atom := some { op := op, cls := m.sz.toNat, elems := es.map (fun e => (paAt ps e.1, e.2)), mac := s.data.hdbg.getLsbD 0 } })).reporting (t.toReport ps))

/-- Flight `n` is the access `a` of flight `f`: the port has admitted it, it owes no first-write report, it has not performed, the
orders of its context let it perform now (R146 to R151), and its homes are within reach and in this package. -/
structure Ready (n : Nat) (f : Flight) (a : Acc) (s : State) : Prop where
  found : Tab.find s.flight n = some f
  msg : f.msg = .access a
  waits : a.performed = false ∧ f.admitted = true ∧ a.report = []
  may : s.mayPerform n f = true
  near : s.cutOff f = false ∧ s.afar (.access a) = false

/-- Address `x` lies in the bytes of a write. -/
def Covers (w : Nat × List Byte) (x : Nat) : Prop := w.1 ≤ x ∧ x < w.1 + w.2.length

/-- Every context (registers, queues, status) and the token table are as they were. -/
def SameContexts (s t : State) : Prop := (∀ c k, t.ctxAt c k = s.ctxAt c k) ∧ t.own = s.own

/-- Flight `n` is now the access `b`; every other flight is as it was. -/
def Becomes (n : Nat) (f : Flight) (b : Acc) (s t : State) : Prop :=
  Tab.find t.flight n = some { f with msg := .access b } ∧ ∀ m, m ≠ n → Tab.find t.flight m = Tab.find s.flight m

/-- The data that a performed read of one range binds: byte by byte that of the youngest older store of its own context that covers
it and has not performed, else what `home` gives (R145, R146). -/
def Binds (n : Nat) (f : Flight) (s : State) (pa len : Nat) (home : Nat → Byte) (bs : List Byte) : Prop :=
  bs.length = len ∧ ∀ i < len,
    ((∀ v ∈ s.olderStores n f, ¬ Covers v (pa + i)) → bs.getD i 0 = home (pa + i)) ∧
    ∀ pre w post, s.olderStores n f = pre ++ w :: post → Covers w (pa + i) → (∀ v ∈ post, ¬ Covers v (pa + i)) →
      bs.getD i 0 = w.2.getD (pa + i - w.1) 0

/-- Element `e` of width `w` in a lane value (R101). -/
def El (w v e : Nat) : Nat := v / 2 ^ (w * e) % 2 ^ w

/-- The slots of queue `q` that a source of the slot pops, where its specifier names that queue. -/
def PopsOf (sp : BitVec 10) (qn q : Nat) : Nat := if sp.getLsbD 0 = true ∧ qn = q then sp.toNat / 2 % 8 + 1 else 0

/-- A queue source at its offset is present and clean; with a pop, every slot before it is present too (R80, R131). -/
def QueueSource (sp : BitVec 10) (q : Nat) (s : State) : Prop :=
  let k := sp.toNat / 2 % 8
  (∀ i ≤ k, i = k ∨ sp.getLsbD 0 = true → SlotPresent q i s) ∧ s.badRange (s.slotPA q k) (s.queue q).slotBytes = false

/-- A lane source may be read (R39, R81, R131, R216, R255). -/
def LaneSource (sp : BitVec 10) (s : State) : Prop :=
  (sp.toNat / 256 = 0 → sp.toNat % 32 ∉ s.me.badL) ∧
  (sp.toNat / 256 = 1 → (s.queue (sp.toNat / 16 % 16)).ssz = 0 ∧ QueueSource sp (sp.toNat / 16 % 16) s) ∧
  (sp.toNat / 256 = 2 → sp.toNat % 32 ∉ s.me.badS)

/-- A lane destination may be written: a lane register, or a queue of one-block slots with room behind what the sources pop (R53, R81). -/
def LaneDest (dst : BitVec 8) (srcs : List (BitVec 10)) (s : State) : Prop :=
  128 ≤ dst.toNat → (s.queue (dst.toNat % 16)).ssz = 0 ∧ MayAppend (dst.toNat % 16)
    ((srcs.map (fun sp => if sp.toNat / 256 = 1 then PopsOf sp (sp.toNat / 16 % 16) (dst.toNat % 16) else 0)).foldl max 0) s

/-- Lane `j` of 128 lanes. -/
def Lane (v : Lanes) (j : Nat) : Nat := v.toNat / 2 ^ (32 * j) % 2 ^ 32

/-- The sources and the destination of a lane instruction pass their checks: `t` is the state with their pops and append collected. -/
def LanesReady (srcs : List (BitVec 10)) (dst : BitVec 8) (s t : State) : Prop :=
  (∃ u, vsrcsIssue srcs s = .ok u ∧ vdstIssue dst u = .ok t) ∧ t.bun.holds = [] ∧ vsrcsRead srcs t = .ok t

/-- The instruction completes: after `lat` cycles element `e` of width `w` of lane `j` is `r j e` in every enabled lane of the lane
register, or of the appended slot, whose other lanes are zero and whose tag is that of type `ty` (R240, R242, R246). -/
def Lanewise (i : Instr) (dst : BitVec 8) (en : LaneMask) (lat ty w : Nat) (r : Nat → Nat → Nat) (s t : State) : Prop :=
  (dst.toNat < 128 → ∃ v : Lanes, exec i s = .next (t.put (.l (dst.toNat % 32) en v) lat) ∧
    ∀ j < 128, ∀ e < 32 / w, El w (Lane v j) e = r j e) ∧
  (128 ≤ dst.toNat → ∃ v : Lanes, exec i s = .next (t.put (t.slotWrite (dst.toNat % 16) (tagByte ty 0) (leBytes v.toNat 512)) lat) ∧
    ∀ j < 128, ∀ e < 32 / w, El w (Lane v j) e = if en.getLsbD j then r j e else 0)

/-- A vector instruction whose elements are those of A and B combined by `op`. -/
def Vec2 (i : Instr) (x : VForm) (lat : Nat) (op : Nat → Nat → Nat) (s : State) : Prop :=
  let w := (ekind x.ty.toNat).width
  ∀ t, LanesReady [x.a, x.b] x.dst s t → Lanewise i x.dst (t.enabled x.gm x.lm) lat x.ty.toNat w
    (fun j e => op (El w (vsrc x.ty.toNat x.a t j) e) (El w (vsrc x.ty.toNat x.b t j) e)) s t

/-- A vector instruction whose elements are those of A under `op`. -/
def Vec1 (i : Instr) (x : VForm) (lat : Nat) (op : Nat → Nat) (s : State) : Prop :=
  let w := (ekind x.ty.toNat).width
  ∀ t, LanesReady [x.a] x.dst s t → Lanewise i x.dst (t.enabled x.gm x.lm) lat x.ty.toNat w
    (fun j e => op (El w (vsrc x.ty.toNat x.a t j) e)) s t

/-- A vector instruction with a result for whole lanes. -/
def VecLane (i : Instr) (x : VForm) (lat : Nat) (srcs : List (BitVec 10)) (ty : Nat) (r : State → Nat → Nat) (s : State) : Prop :=
  ∀ t, LanesReady srcs x.dst s t → Lanewise i x.dst (t.enabled x.gm x.lm) lat ty 32 (fun j _ => r t j) s t

/-- A vector instruction that writes the lane predicate of its destination in the enabled lanes after two cycles. -/
def VecPred (i : Instr) (x : VForm) (srcs : List (BitVec 10)) (r : State → Nat → Prop) (s : State) : Prop :=
  ∀ t, vsrcsIssue srcs s = .ok t → t.bun.holds = [] → vsrcsRead srcs t = .ok t →
    ∃ m : LaneMask, exec i s = .next (t.put (.lp (x.dst.toNat % 8) (t.enabled x.gm x.lm) m) 2) ∧ ∀ j < 128, m.getLsbD j = true ↔ r t j

/-- The stream that a permute source specifier names, and the offset of its slot (R41). -/
def PStream (sp : BitVec 10) : Nat := sp.toNat / 16 % 16
def POff (sp : BitVec 10) : Nat := sp.toNat / 2 % 8

/-- A permute source is present, clean and tagged as its stream declares (R93, R231). -/
def PermuteSource (sp : BitVec 10) (s : State) : Prop :=
  let st := s.stream (PStream sp)
  QueueSource sp st.qn s ∧ ∀ b ≤ (s.queue st.qn).ssz, tagOk (s.tagAt (s.slotPA st.qn (POff sp) + 512 * b)) st.fmt st.swz = true

/-- The slots of queue `q` that the sources of a permute pop. -/
def PermutePops (x : PForm) (useB : Bool) (q : Nat) (s : State) : Nat :=
  max (PopsOf x.a (s.stream (PStream x.a)).qn q) (if useB then PopsOf x.b (s.stream (PStream x.b)).qn q else 0)

/-- A permute instruction passes R228 to R231: its streams are enabled, bind queues and declare its types (B a type `bt`, where one is asked)
and, unless `swz`, swizzle 0; its source slots are present, clean and tagged as declared; its destination has room; the slot is free.
`sc`: a scale slot is appended too. -/
structure PermuteReady (x : PForm) (useB : Bool) (bt : Option Nat) (swz sc : Bool) (s : State) : Prop where
  guard : s.guard x.g = true
  free : s.bun.holds = [] ∧ s.core.kBusy = 0
  onA : (s.stream (PStream x.a)).en = true ∧ (s.stream (PStream x.a)).kind = 0
  onB : useB = true → (s.stream (PStream x.b)).en = true ∧ (s.stream (PStream x.b)).kind = 0 ∧ (∀ t, bt = some t → (s.stream (PStream x.b)).fmt = t) ∧
    (swz = false → (s.stream (PStream x.b)).swz = 0)
  onD : (s.stream (x.dst.toNat % 16)).en = true ∧ (s.stream (x.dst.toNat % 16)).kind = 0
  types : (s.stream (PStream x.a)).fmt = x.tf.toNat ∧ (s.stream (x.dst.toNat % 16)).fmt = x.tt.toNat
  plain : swz = false → (s.stream (PStream x.a)).swz = 0 ∧ (s.stream (x.dst.toNat % 16)).swz = 0
  sources : PermuteSource x.a s ∧ (useB = true → PermuteSource x.b s)
  room : let q := (s.stream (x.dst.toNat % 16)).qn
    MayAppend q (PermutePops x useB q s) s
  scales : let st := s.stream (x.dst.toNat % 16)
    sc = true → st.sq ≠ st.qn ∧ MayAppend st.sq (PermutePops x useB st.sq s) s

/-- The bytes of the slot that a source specifier names. -/
def PBytes (sp : BitVec 10) (t : State) : List Byte :=
  let q := (t.stream (PStream sp)).qn
  t.mem.readBytes (t.slotPA q (POff sp)) (t.queue q).slotBytes

/-- The bytes of one slot of the queue that a stream names. -/
def PSize (d : Nat) (s : State) : Nat := (s.queue (s.stream d).qn).slotBytes

/-- The permute completes: the slot is busy for `c` cycles, the larger of the blocks read and written, and after 3 + `c` cycles the
appended slot holds `bs`, with zeros where the group mask disables the bytes, tagged as the destination stream declares. -/
def Permutes (i : Instr) (x : PForm) (useB : Bool) (bs : List Byte) (s : State) : Prop :=
  let dst := s.stream (x.dst.toNat % 16)
  let blk := fun d : Nat => (s.queue (s.stream d).qn).ssz + 1
  let c := max (blk (PStream x.a) + if useB then blk (PStream x.b) else 0) ((s.queue dst.qn).ssz + 1)
  ∃ (t : State) (out : List Byte), exec i s = .next ((t.put (t.slotWrite dst.qn (tagByte dst.fmt dst.swz) out) (3 + c)).modMyCore
      (fun k => { k with kBusy := c })) ∧ BundleOnly s t ∧ t.bun.holds = [] ∧
    out.length = bs.length ∧ ∀ o < bs.length, out.getD o 0 = if x.gm.getLsbD (o % 512 / 64) then bs.getD o 0 else 0

/-- Element `n` of width `w` of a slot's bytes (R229). -/
def SlotEl (w : Nat) (bs : List Byte) (n : Nat) : Nat := leNat ((bs.drop (n * (w / 8))).take (w / 8))

/-- `bs` holds `n` elements of `w` bits, element by element `r`. -/
def Holds (w n : Nat) (bs : List Byte) (r : Nat → Nat) : Prop := bs.length = n * (w / 8) ∧ ∀ e < n, SlotEl w bs e = r e

/-- The request that a token instruction sends (R166, R167): region, parties, privilege, scope, destination. -/
def Request (op : TokOp) (m : MForm) (target : Word) (base : Nat) (s : State) : TokReq :=
  { op := op, base := base, sz := s.designator m % 32, self := s.data.bind.party, target := target,
    priv := (s.inService || s.data.bind.tkadm), scope := m.sc.toNat, d := m.data.toNat % 32, launch := s.data.bind.launch }

/-- The token instruction passes R167 and R168 at issue: the designator resolves to the region at `base`, no request of the party on it
is unanswered, the party has the rights, and there is room for the request and its `k` landing entries. -/
def MayAsk (r : TokReq) (m : MForm) (k : Nat) (s : State) : Prop :=
  (r.op.reads = false → s.data.bind.phaseBound = false) ∧ desOk (s.designator m) = true ∧
    (∃ p, s.desBase s.cur s.data (s.designator m) = .pieces [p] ∧ p.pa = r.base ∧ (r.op.reads = false → s.tokenPending [p] = false)) ∧
    s.own.tokenCause r = none ∧ HasRoom s ∧ s.me.land.length + k ≤ 32

/-- The token instruction completes: its request is in flight, and its registers await the answer. -/
def Asks (i : Instr) (r : TokReq) (m : MForm) (ws : List Write) (s : State) : Prop :=
  exec i s = .next ((s.awaitLanding m.at16 ws).send (.token r))

/-- Flight `n` is the token request `r`, and its turn has come (R166): no request for the entry is under way, and its rights hold at the slice. -/
structure TakesTurn (n : Nat) (f : Flight) (r : TokReq) (s : State) : Prop where
  found : Tab.find s.flight n = some f
  msg : f.msg = .token r
  waits : r.answered = false ∧ f.admitted = true
  free : s.entryBusy n r.base (2 ^ (12 + r.sz)) = false
  may : s.mayPerform n f = true
  near : s.cutOff f = false ∧ s.afar (.token r) = false
  rights : s.own.tokenCause r = none

/-- Flight `n` is answered with a status. -/
def Answered (n : Nat) (f : Flight) (r : TokReq) (v v2 : Word) (t : State) : Prop :=
  Tab.find t.flight n = some { f with msg := .token { r with answered := true, status := v, status2 := v2 } }

/-- A new engine operation `o` is in flight: it has the next place in program order and the next entry index (R257), it engages the
regions it uses (R177), and nothing else of memory, of the registers or of the other contexts changes. -/
def Issued (o : EngOp) (s t : State) : Prop :=
  t.ops = s.ops.put s.seq o ∧ t.seq = s.seq + 1 ∧ o.core = s.cur ∧ o.ctx = s.core.dataIdx ∧ o.ent = s.data.engNext % 32 ∧
    o.party = s.data.bind.party ∧ o.prio = s.data.bind.prio ∧ o.started = false ∧ t.mem = s.mem ∧ t.flight = s.flight ∧
    t.own = { s.own with engaged := s.own.engaged ++ o.engaged.map (fun b => (b, s.data.bind.party)) } ∧
    t.data.engNext = s.data.engNext + 1 ∧ t.me.regs = s.me.regs ∧ ∀ c k, (c ≠ s.cur ∨ k ≠ s.core.dataIdx) → t.ctxAt c k = s.ctxAt c k

/-- The descriptor of a copy instruction (R258, R261). -/
def CopyOf (m : MForm) (s : State) : CopyDesc := copyDesc (s.descriptor (s.ea m))

/-- The copy completes at issue: the operation that its descriptor gives is in flight, nothing of it read yet. -/
def Copies (i : Instr) (k : CopyKind) (m : MForm) (t : State) (s : State) : Prop :=
  ∃ u o c, exec i s = .next u ∧ Issued o t u ∧ o.body = .copy c ∧ c.kind = k ∧ c.d = CopyOf m t ∧ o.inc = c.d.inc ∧
    o.comp = t.compPA c.d.comp 8 ∧ c.todo = List.range ((c.d.len + 511) / 512 * c.d.rows) ∧ c.asked = [] ∧ c.left = 0 ∧
    (u.data.phase.reg = if k = .cpyf then t.data.phase.reg ++ [t.ea m] else t.data.phase.reg)

/-- Rows of `len` bytes that lie in the span of the context, on 64-byte boundaries. -/
def SpanRows (base pitch len rows : Nat) (s : State) : Prop :=
  base % 64 = 0 ∧ pitch % 64 = 0 ∧ ∀ r < rows, base + r * pitch + len ≤ s.data.bind.spanBytes

/-- The descriptor lies in the span (R261), and the bundle reads it with sound registers and a sound address (R216). -/
def DescAt (m : MForm) (s : State) : Prop :=
  s.bun.holds = [] ∧ m.base.toNat ∉ s.me.badS ∧ m.idx.toNat ∉ s.me.badS ∧ AddrSound s ∧
    s.ea m % 64 = 0 ∧ s.ea m + 64 ≤ s.data.bind.spanBytes ∧ s.data.bind.spanBytes ≤ 0x180000

/-- A copy from the span without a completion object, its fields in range, with an entry for it and its pages looked up (R257 to R259, R261). -/
def MayCopy (k : CopyKind) (m : MForm) (s : State) : Prop :=
  let d := CopyOf m s
  DescAt m s ∧ d.ok k = true ∧ d.sqk = false ∧ d.comp = 0 ∧ SpanRows d.src d.spitch d.len d.rows s ∧
    pageHolds d.pages ≤ Tab.get 0 s.core.paged s.slot ∧ s.unjoined s.cur s.core.dataIdx < 32

/-- Core `c` is a target that a CPYM may name (R264): the issuing context itself, or one whose destination the party owns; the rows lie in its span. -/
def MayTarget (d : CopyDesc) (c : Nat) (s : State) : Prop :=
  let x := s.ctxAt c d.tctx
  let may := fun a n => (c = s.cur ∧ d.tctx = s.core.dataIdx) ∨ s.covers s.data.bind.party (spanPA c x a) n = true
  if d.dqk then may ((x.queue d.dq).base * 512) ((x.queue d.dq).cap * (x.queue d.dq).slotBytes)
  else ∀ r < d.rows, d.dst + r * d.dpitch + d.len ≤ x.bind.spanBytes ∧ may (d.dst + r * d.dpitch) d.len

/-- A sparse-index operation over metadata in the span, without a completion object (R277). -/
def MayIndex (run : Bool) (m : MForm) (s : State) : Prop :=
  let e := sxDesc (s.descriptor (s.ea m))
  let n := metaBytes run e.count
  DescAt m s ∧ e.ok s = true ∧ (s.queue e.oq).mode = .localQ ∧ (e.rqen = true → (s.queue e.rq).mode = .localQ ∧ e.rq ≠ e.oq) ∧
    e.msrc % (if run then 4 else 8) = 0 ∧ e.msrc + n ≤ s.data.bind.spanBytes ∧ e.comp = 0 ∧
    pageHolds (pagesOf e.msrc n) ≤ Tab.get 0 s.core.paged s.slot ∧ (s.sxWaiting s.cur).length < 32 ∧ s.unjoined s.cur s.core.dataIdx < 32

/-- The sparse-index instruction completes at issue: the operation that its descriptor gives is in flight, at its start. -/
def Indexes (run : Bool) (m : MForm) (t s : State) : Prop :=
  ∃ u o x, exec (if run then .sxrl m else .sxbm m) s = .next u ∧ Issued o t u ∧
    o.body = .sparse x ∧ x.run = run ∧ x.desc = t.ea m ∧ x.words = [] ∧ x.asked = 0 ∧ x.got = 0 ∧ x.pos = 0 ∧ x.cnt = 0 ∧ x.crd = 0 ∧
    let e := sxDesc (t.descriptor (t.ea m))
    x.count = e.count ∧ x.cbase = e.cbase ∧ x.rbase = e.rbase ∧ x.rate = e.rate ∧ x.oq = e.oq ∧ x.rq = e.rq ∧ x.rqen = e.rqen ∧
      x.wide = e.wide ∧ x.g = e.g ∧ x.pad = e.pad ∧ o.inc = e.inc ∧ o.comp = t.compPA e.comp 16

/-- An operation of the table. -/
def HasOp (n : Nat) (o : EngOp) (s : State) : Prop := Tab.find s.ops n = some o

/-- Piece `i` of copy `n`, whose data has come back, is on its way to the ranges `to_` (R270), with the first writes it reports (R163). -/
def PieceSent (n i : Nat) (o : EngOp) (c : CopyOp) (from_ to_ : List (Nat × Nat)) (s t : State) : Prop :=
  let rep := s.opReports o (s.pieceRow o c i)
  t.mem = s.mem ∧ t.own = s.own ∧
    HasOp n { o with reported := rep ++ o.reported, back := some s.cycle,
                     body := .copy { c with todo := c.todo.erase i, asked := c.asked.erase i, left := c.left + 1 } } t ∧
    ∃ f, Tab.find t.flight s.seq = some f ∧
      f.msg = .piece n (cutAlong to_ (from_.flatMap (fun q => s.mem.readBytes q.1 q.2))) c.d.dqk rep

/-- Slice `i` of stream `d` can be read from a slot of its local queue: `n` elements of `w` bytes for each of 32 lines, which are rows or
columns (R289, R290, R93). -/
structure SliceReady (d i n w : Nat) (rows : Bool) (s : State) : Prop where
  fam : ((s.stream d).fmt = 1 ∨ (s.stream d).fmt = 2) ∧ n = 4 ∧ w = 2 ∨ ((s.stream d).fmt = 3 ∨ (s.stream d).fmt = 4) ∧ n = 8 ∧ w = 1 ∨
    ((s.stream d).fmt = 9 ∨ (s.stream d).fmt = 10) ∧ n = 16 ∧ w = 1
  on : (s.stream d).en = true ∧ (s.stream d).kind = 0
  block : (s.stream d).k % n = 0 ∧ (s.stream d).k / n ≤ 16 ∧ (if rows then (s.stream d).rows else (s.stream d).cols) = 32 ∧
    32 * (s.stream d).k * w ≤ (s.queue (s.stream d).qn).slotBytes
  present : (s.queue (s.stream d).qn).mode = .localQ ∧ ∀ o ≤ i / ((s.stream d).k / n), o < (s.queue (s.stream d).qn).used ∧
    (s.queue (s.stream d).qn).pmap.getLsbD ((s.queue (s.stream d).qn).at o) = true
  clean : let pa := s.slotPA (s.stream d).qn (i / ((s.stream d).k / n)) + 512 * (i % ((s.stream d).k / n) * (32 * n * w) / 512)
    s.badRange pa 512 = false ∧ tagOk (s.tagAt pa) (s.stream d).fmt (s.stream d).swz = true

/-- Element `j` of line `l` of that slice (R290). -/
def SliceElem (d i n w l j : Nat) (s : State) : Nat :=
  let st := s.stream d
  let sl := st.k / n
  leNat (s.mem.readBytes (s.slotPA st.qn (i / sl) + swz st.swz (i % sl * (32 * n * w) + l * (n * w) + j * w)) w)

/-- The bank `k'` is `k` shifted four rows toward the drain edge, with `f` in rows 0 to 3 (R296). -/
def Shifted (k k' : Bank) (f : Nat → Nat → Nat) : Prop :=
  ∀ r < 32, ∀ c < 32, k'.at r c = if r < 4 then f r c else k.at (r - 4) c

/-- The byte of (local row, column) in a drain or load slot of `g` groups of four rows, `w` bytes an element (R297). -/
def TileByte (g w row c : Nat) : Nat := c / 4 * (16 * g * w) + row * (4 * w) + c % 4 * w

/-- The conversion of a drain (R116). -/
def DrainAs (fmt v : Nat) : Nat :=
  if fmt = 0 then v else if fmt = 1 then bf16.round .rne (fp32.value v) else if fmt = 2 then fp16.round .rne (fp32.value v)
  else if fmt = 3 then (resSigned v % 2 ^ 32).toNat else resOf (crt (resChannels v).1 (resChannels v).2.1 (resChannels v).2.2)

/-- The open drain slot `o` that an MDRN uses, and the state `t` after its issue: the one open on the bank, or one that it allocates. -/
def DrainsInto (w : XForm) (o : OpenDrain) (s t : State) : Prop :=
  (s.core.arr.bank w.bank.toNat).drain = some o ∧ t = s ∧ o.q = w.q.toNat ∧ o.fmt = w.fmt.toNat ∧ o.rem = none ∧ o.m < o.groups ∨
  ∃ g, (s.core.arr.bank w.bank.toNat).drain = none ∧ appendSlot w.q.toNat s = .ok t ∧ t.bun.holds = [] ∧
    (s.queue w.q.toNat).mode = .localQ ∧ groupsOf (s.queue w.q.toNat).slotBytes (drainWidth w.fmt.toNat) = some g ∧
    o = { q := w.q.toNat, idx := t.appIdx w.q.toNat, rem := none, fmt := w.fmt.toNat, m := 0, groups := g, data := [], no := s.seq }

/-- The cause of a freeze of context `x` on core `c` has cleared (R20). -/
def Cleared (c k : Nat) (f : Freeze) (s : State) : Prop :=
  let x := s.ctxAt c k
  match f with
  | .absent q i => (x.queue q).pmap.getLsbD i = true
  | .late => ∀ l ∈ x.land, l.due ≠ 0 ∨ l.arrived = true
  | .requests => s.outstanding c < 1024 ∧ s.portWaiting c (s.shareClass c k) < 256
  | .noRoom q => (x.queue q).mode ≠ .spliceOut ∨ 1 ≤ (x.queue q).freeOut
  | .wait (.slot q n) => (x.queue q).pmap.getLsbD ((x.queue q).at n) = true
  | .wait (.room q n) => (x.queue q).mode ≠ .spliceOut ∨ n ≤ (x.queue q).freeOut
  | .unsplice q => (x.queue q).pend = false ∨ (x.queue q).refused = true ∨ (x.queue q).down = true
  | .latch i => ((s.coreAt c).latch i).ready = true
  | .walk => ∀ w ∈ (s.coreAt c).walks, w.failed = true ∨ w.asn ≠ x.bind.asn
  | _ => False

/-- Core `c` becomes `f` of itself; nothing else of the state changes. -/
def CoreStep (i : Instr) (c : Nat) (f : Core → Core) (s : State) : Prop := exec i s = .next (s.modCore c f)

/-- Context `k` of core `c` becomes `f` of itself; nothing else of the state changes. -/
def CtxStep (i : Instr) (c k : Nat) (f : Ctx → Ctx) (s : State) : Prop := exec i s = .next (s.modCtx c k f)

/-- Every context but `k` of core `c` is as it was. -/
def OnlyCtx (c k : Nat) (s t : State) : Prop := ∀ d j, (d ≠ c ∨ j ≠ k) → t.ctxAt d j = s.ctxAt d j

/-- Message `m` of flight `n` travels from end `a` to end `b` of a splice; no older message of this fixed path is under way, and the
receiving context is on a core (R84, R89). -/
def Arrives (n : Nat) (m : Msg) (a b : QEnd) (s : State) : Prop :=
  (∃ f, Tab.find s.flight n = some f ∧ f.msg = m) ∧ m.ends = some (a, b) ∧ b.core < 1000 ∧
    ∀ e ∈ s.flight, e.1 < n → e.2.msg.ends ≠ some (a, b)

/-- The message `m` is put in flight. -/
def Posts (m : Msg) (s t : State) : Prop := ∃ f, Tab.find t.flight s.seq = some f ∧ f.msg = m ∧ t.seq = s.seq + 1

/-- Only the queue at one end of a splice changes, to `d`; memory, the tokens and the other contexts stay. -/
def EndBecomes (e : QEnd) (d : QDesc) (s t : State) : Prop :=
  t.qEnd e = d ∧ t.mem = s.mem ∧ t.own = s.own ∧ (∀ c k, (c ≠ e.core ∨ k ≠ e.ctx) → t.ctxAt c k = s.ctxAt c k) ∧
    (t.ctxAt e.core e.ctx).regs = (s.ctxAt e.core e.ctx).regs ∧ ∀ q, q ≠ e.q → (t.ctxAt e.core e.ctx).queue q = (s.ctxAt e.core e.ctx).queue q

/-- A mirror written with its parity (R77, R86). -/
def MirrorIs (d e : QDesc) (p : QPtr) (failing : Bool) : Prop :=
  e.mirror = p ∧ e.failing = failing ∧ e.mpar = e.parity ∧ e.tail = d.tail ∧ e.mode = d.mode ∧ e.partner = d.partner

/-- A slot counts one arrival (R309). -/
def Counted (key : Nat) (s t : State) : Prop :=
  let b := s.bar key
  t.bar key = (if b.arrived + 1 = b.expect then { b with phase := (b.phase + 1) % 2 ^ 32, arrived := 0 } else { b with arrived := b.arrived + 1 }) ∧
    ∀ j, j ≠ key → t.bar j = s.bar j

/-- Entry `e` with number `ix` of launch `l`, whose key is `lk`. -/
def HasEntry (lk ix : Nat) (l : Launch) (e : Entry) (s : State) : Prop :=
  Tab.find s.thyme.launches lk = some l ∧ l.entries[ix]? = some e

/-- A place at which a task of a released entry can start: its context is free, its core nominal and in placement, its party live; it
has no notify context. -/
def MayStart (p : Place) (s : State) : Prop :=
  p.nots = [] ∧ (s.ctxAt p.core p.ctx).status = .free ∧ (s.sageOf p.core).st = 0 ∧ (s.coreAt p.core).out = false ∧ p.party ∈ s.own.live

/-- A fresh task stands at its place (R334): READY, at its entry, its arguments in S1 to S30, its queues declared. -/
def FreshTask (l : Launch) (e : Entry) (p : Place) (m : Nat) (gang : Option Nat) (t : State) : Prop :=
  let x := t.ctxAt p.core p.ctx
  x.status = .ready ∧ x.pc = BitVec.ofNat 64 (e.hdr % 2 ^ 64) ∧ x.sig = 0xFFFFFFFF ∧ x.loops = [] ∧ x.pend = [] ∧ x.land = [] ∧
    (∀ i < 30, x.regs.sreg (i + 1) = BitVec.ofNat 64 (e.args / 2 ^ (64 * i))) ∧ x.regs.sreg 31 = 0 ∧
    (∀ q < 16, let v := e.hdr / 2 ^ (256 + 32 * q) % 2 ^ 32
      (v = 0 → (x.queue q).mode = .disabled) ∧ (v ≠ 0 → (x.queue q).mode = .localQ ∧ (x.queue q).base = v % 2 ^ 12 ∧
        (x.queue q).ssz = v / 2 ^ 12 % 16 ∧ (x.queue q).capm1 = v / 2 ^ 16 % 256 ∧ (x.queue q).used = 0)) ∧
    x.bind.party = p.party ∧ x.bind.launch = l.party ∧ x.bind.asn = l.asn ∧ x.bind.spanBase = p.span ∧ x.bind.spanBytes = e.hdr / 2 ^ 64 % 2 ^ 32 ∧
    x.bind.stopmax = e.hdr / 2 ^ 112 % 2 ^ 9 ∧ x.bind.prio = l.prio ∧ x.bind.gang = gang ∧ x.bind.member = m ∧
    (e.hdr.testBit 123 = true → x.phase.next = some (512 * (e.hdr / 2 ^ 172 % 2 ^ 12), e.hdr / 2 ^ 184 % 2 ^ 12))

/-- A launch becomes `l'`, entry by entry as `g` says, but for the charges that a frame's end collects (R338, R352). -/
def Ticked (g : Entry → Entry) (l l' : Launch) : Prop :=
  l'.entries.length = l.entries.length ∧ ∀ (i : Nat) (e : Entry), l.entries[i]? = some e → ∃ n, l'.entries[i]? = some { g e with charge := n }

/-- No core holds a line in L1. -/
def NoLines (s : State) : Prop := ∀ e ∈ s.cores, e.2.l1 = []

/-- An END entry with a status is added to the journal (R342, R407). -/
def Ends (st : Nat) (s t : State) : Prop :=
  ∃ e rest, t.journal.pend = s.journal.pend ++ e :: rest ∧ e.ty = 2 ∧ e.payload % 256 = st ∧ e.seq = s.journal.jnext ∧ e.cycle = s.cycle

/-- The instance of entry `e` has finished: it waits for its next frame, or is over with state `last` (R338, R342). -/
def Finished (lk ix : Nat) (l : Launch) (e : Entry) (last : InstSt) (t : State) : Prop :=
  ∃ l' e', HasEntry lk ix l' e' t ∧
    (if e.frame + 1 < l.src.bits / 2 ^ 128 % 2 ^ 32 + 1 then e'.st = .idle ∧ e'.frame = e.frame + 1 else e'.st = last ∧ e'.frame = e.frame) ∧
    (last = .done → l'.donecnt = l.donecnt + max e.places.length (e.bits / 2 ^ 160 % 4 + 1)) ∧
    (last = .lost → l'.lost = l.lost + max e.places.length (e.bits / 2 ^ 160 % 4 + 1))

/-- Context `k` of core `c` is a task that stands alone: it is in no gang, has no notify context, and no engine operation or access of
it is out. -/
def Alone (c k : Nat) (s : State) : Prop :=
  let x := s.ctxAt c k
  k < 4 ∧ x.bind.isNotify = false ∧ x.bind.gang = none ∧ x.bind.notify = [] ∧ (∀ o ∈ s.ops, o.2.core ≠ c ∨ o.2.ctx ≠ k) ∧
    (∀ f ∈ s.flight, f.2.core ≠ c ∨ f.2.ctx ≠ k)

/-- Registers, program counter and status of every context but `k` of core `c` are as they were; its queues may name the new end of a
splice. -/
def KeepsOthers (c k : Nat) (s t : State) : Prop := ∀ d j, (d ≠ c ∨ j ≠ k) →
  (t.ctxAt d j).regs = (s.ctxAt d j).regs ∧ (t.ctxAt d j).pc = (s.ctxAt d j).pc ∧ (t.ctxAt d j).status = (s.ctxAt d j).status

/-- The stress factor of an interval with `act` active cycles (R350). -/
def StressOf (act : Nat) (r : Sample) : Nat :=
  let kt := if r.temp < 60000 then 128 else if r.temp < 70000 then 256 else if r.temp < 80000 then 512 else if r.temp < 90000 then 1024
    else if r.temp < 100000 then 2048 else 4096
  let kv := if r.volt < 675000 then 256 else if r.volt < 725000 then 512 else if r.volt < 775000 then 1024 else if r.volt < 825000 then 2048
    else 4096
  max ((102 + 922 * act / 1200000) * kt * kv / 1048576) (max r.eSup r.eBus * kt / 1024)

/-- The state of a core's record after an evaluation (R356): the furthest state whose condition holds, never an earlier one; a retiring
core whose contexts are all free is retired. -/
def NextState (old : Sage) (life margin : Nat) (failed free : Bool) : Nat :=
  let a := if 87040000 ≤ life ∨ (old.low6 = true ∧ margin ≤ 600) then 1 else 0
  let b := if 97280000 ≤ life then 2 else 0
  let d := if failed = true ∨ 102400000 ≤ life ∨ (old.low2 = true ∧ margin ≤ 200) ∨ old.admin = true then 3 else 0
  let m := max old.st (max a (max b d))
  if m = 3 ∧ free = true then 4 else m

/-- The request that a bank serves next in cycle `now`, of those that have reached the controller (R368): with a row open and fewer than 8 hits in
a row the first request to that row, else the oldest; `hit` says that it finds its row open. -/
def ServesNext (b : DBank) (now : Nat) (e : BReq) (hit : Bool) : Prop :=
  let here := b.queue.filter (fun x => decide (x.from_ ≤ now))
  ∃ q rest, here = q :: rest ∧ ((b.row = none ∧ e = q ∧ hit = false) ∨ ∃ r, b.row = some r ∧
    ((b.hits < 8 ∧ here.find? (fun x => x.row == r) = some e ∧ hit = true) ∨
      ((8 ≤ b.hits ∨ ∀ x ∈ here, x.row ≠ r) ∧ e = q ∧ hit = (q.row == r))))

/-- An activation of a row in a tracker of 256 entries (R371): entry `i` of the new tracker holds the row with count `m`. It is the
row's own entry counted up, else a free or new one with count 1, else the one of least count, taken over. -/
def Tracked (t : List (Nat × Nat)) (row : Nat) (u : List (Nat × Nat)) (i m : Nat) : Prop :=
  u[i]? = some (row, m) ∧ (∀ j, j ≠ i → u[j]? = t[j]?) ∧
    ((∃ k, t[i]? = some (row, k) ∧ m = k + 1) ∨
      ((∀ e ∈ t, e.1 ≠ row) ∧ m = 1 ∧ ((∃ k, t[i]? = some (freeRow, k)) ∨ (i = t.length ∧ i < 256))) ∨
      ((∀ e ∈ t, e.1 ≠ row ∧ e.1 ≠ freeRow) ∧ 256 ≤ t.length ∧ ∃ r k, t[i]? = some (r, k) ∧ m = k + 1 ∧ ∀ e ∈ t, k ≤ e.2))

/-- No request has reached bank `n`, no block, no background command, and its last write has recovered (R370, R416). -/
def QuietBank (n : Nat) (s : State) : Prop :=
  (∀ x ∈ (s.bankAt n).queue, s.cycle < x.from_) ∧ (s.bankAt n).block = none ∧ (s.bankAt n).busy ≤ s.cycle ∧ (s.bankAt n).pre ≤ s.cycle

/-- tRC has passed since the last activation (R368), and the recovery of the last write (R416). -/
def PastTrc (b : DBank) (now : Nat) : Prop := b.pre ≤ now ∧ ∀ t, b.last = some t → t + 56 ≤ now

/-- The cycles of a bank's request behind the activation: a read, a write of whole words, a read that is merged and written back (R369, R416). -/
def BankCycles (k : BKind) : Nat := match k with | .read => 28 | .write => 8 | .merge => 38

/-- The flipped bits of the words that satisfy `hit` have been corrected, but for uncorrectable words; no others (R375). -/
def CorrectedWhere (hit : Nat → Prop) (s t : State) : Prop :=
  t.bad = s.bad ∧ ∀ w n, (w, n) ∈ t.soft ↔ (w, n) ∈ s.soft ∧ ¬(w < 0x400000000 ∧ hit w ∧ w ∉ s.bad)

/-- The first entry that the journal takes is an UPDATE of the capability list (R407, R409). -/
def CapUpdated (s t : State) : Prop := ∃ j rest, t.journal.pend = s.journal.pend ++ j :: rest ∧ j.ty = 10 ∧ j.payload = 4

/-- The sum over the eight share classes. -/
def Sum8 (f : Nat → Nat) : Nat := f 0 + f 1 + f 2 + f 3 + f 4 + f 5 + f 6 + f 7

/-- What a port that is up and enabled receives changes its count of bytes and nothing else of it (R389). -/
def ReceivedAt (p n : Nat) (s t : State) : Prop := t.port p = { s.port p with rxb := ((s.port p).rxb + n) % 2 ^ 64 }

/-- The request of a command of host core `h` (R402): its DESIG and PARTY, on behalf of the party in HSEL, at POD scope. -/
def HostRequest (op : TokOp) (h : Nat) (s : State) : TokReq :=
  let k := s.host h
  let me := BitVec.ofNat 64 (k.hsel.toNat % 2 ^ 34)
  { op := op, base := k.desig / 4096 * 4096, sz := k.desig % 32, self := me, target := k.party, priv := k.hsel.getLsbD 63, scope := 5,
    launch := me }

/-- The host core is there, released from reset. -/
def HostThere (h : Nat) (s : State) : Prop := h < 32 ∧ s.mgmt.released = true

/-- The fifteen token commands with their operations (R402). -/
def EachCommand (h : Nat) (p : Instr → TokOp → Prop) : Prop :=
  p (.hostLend h) .lend ∧ p (.hostLendPass h) .lendPass ∧ p (.hostRetn h) .retn ∧ p (.hostSplit h) .split ∧ p (.hostJoin h) .join ∧
    p (.hostShare h) .share ∧ p (.hostUnshr h) .unshr ∧ p (.hostTkmodePlain h) .plain ∧ p (.hostTkmodeAtomic h) .atomic ∧
    p (.hostTkqry h) .query ∧ p (.hostReclaimClean h) .clean ∧ p (.hostReinit h) .reinit ∧ p (.hostCreate h) .create ∧
    p (.hostDestroy h) .destroy ∧ p (.hostSeize h) .seize

/-- The command of host core `h` ends with a status and no other effect. -/
def HostEnds (i : Instr) (h st : Nat) (s : State) : Prop := exec i s = .next (s.setHost h { s.host h with status := st, since := none, taken := [] })

/-- No other command or request is under way for the entries that the command names (R166), or this command is the one. -/
def ItsTurn (op : TokOp) (h : Nat) (s : State) : Prop :=
  let q := HostRequest op h s
  (s.host h).taken = [] → s.entryBusy s.seq q.base (2 ^ (12 + q.sz)) = false

/-- The party of the host core may give the command: HSEL names a HOST party of this package, DESIG has its shape and names memory, the
party has the rights. -/
def MayCommand (op : TokOp) (h : Nat) (s : State) : Prop :=
  let q := HostRequest op h s
  s.hostOk h = true ∧ hostDesOk (s.host h).desig = true ∧ s.hostTarget q.base (2 ^ (12 + q.sz)) = true ∧ ItsTurn op h s ∧
    s.own.tokenCause q = none

/-- The state in which the command is judged: one that begins now counts its older accesses from here (R164). -/
def Judged (h : Nat) (s : State) : State := if (s.host h).taken = [] then s.setHost h { s.host h with since := none } else s

/-- A write of host core `h` to a register of hub space at an offset: `t` is the state after it. -/
def HubWrites (h o : Nat) (v : Word) (s t : State) : Prop := exec (.registerWrite h (0x30000000000 + o) v) s = .next t

/-- Nothing is in flight: no barrier slot, gang, launch, token or request is left. -/
def AllIdle (t : State) : Prop :=
  t.flight = [] ∧ t.ops = [] ∧ t.own = {} ∧ t.bars = [] ∧ t.gangs = [] ∧ t.thyme.launches = [] ∧ t.thyme.saved = [] ∧
    t.thyme.queues = [] ∧ t.banks = [] ∧ t.hbmStacks = [] ∧ t.dies = [] ∧ t.links = [] ∧ t.ports = [] ∧ t.hosts = [] ∧ t.cycle = 0 ∧ t.tick = 0

/-- Nothing runs and nothing is in flight; no context is left. -/
def AllClear (t : State) : Prop := t.cores = [] ∧ AllIdle t

/-- An image verifies (R405): its signature is good and its security version is not below the fused minimum. -/
def Verifies (im : Image) (s : State) : Prop := im.ok = true ∧ s.mgmt.minsvn ≤ im.svn

/-- What the fuses and the non-volatile store of the controller hold is as it was. -/
def KeepsFuses (s t : State) : Prop := t.mgmt.minsvn = s.mgmt.minsvn ∧ t.mgmt.errors = s.mgmt.errors ∧ t.journal.mirror = s.journal.mirror

/-- A live update took effect (R406, R407, R410): the version is new, the measurement register is extended, and an UPDATE entry with
component, version and the first 24 bytes of the digest is journalled. -/
def UpdatedBy (im : Image) (s t : State) : Prop :=
  t.mgmt.svn = s.mgmt.svn.put im.comp im.svn ∧
    (∃ i, t.mgmt.meas = s.mgmt.meas.put i (bytesDigest (sha256 (digestBytes (Tab.get 0 s.mgmt.meas i) ++ digestBytes im.digest)))) ∧
    (∃ j, t.journal.pend = s.journal.pend ++ [j] ∧ j.ty = 10 ∧ j.payload % 256 = im.comp ∧ j.payload / 2 ^ 64 % 2 ^ 64 = im.svn % 2 ^ 64 ∧
      ∀ i < 24, j.payload / 2 ^ (128 + 8 * i) % 256 = ((digestBytes im.digest).getD i 0).toNat) ∧
    t.cores = s.cores ∧ t.mem = s.mem

end Sys2Proof.Claims

open Sys2Proof.Claims

/-! ## Encoding and decoding -/

/-- Decode and encode agree for every instruction of every slot. -/
def Obligations.DecodeEncode : Prop :=
  ∀ (slot : Nat) (i : Instr), i.wfIn slot = true →
    ∃ n, encode i = some n ∧ n < 2 ^ (8 * slotBytes slot) ∧ decodeWord slot n = .ok i

def Obligations.DecodedIsWellFormed : Prop :=
  ∀ (slot w : Nat) (i : Instr), decodeWord slot w = .ok i → i.wfIn slot = true ∧ slot < 10 ∧ slot ∈ i.slots

def Obligations.DecodedWords : Prop :=
  decodeWord 0 0x00231C40 = .ok (.add { g := 0, d := 3, a := 3, i := 1, b := 64 }) ∧
  decodeWord 0 0x054503E8 = .ok (.li { g := 0, d := 5, imm := 1000 }) ∧
  decodeWord 0 0x0B201264 = .ok (.mloop { g := 0, x := 0, e := 9, c := 0x64 }) ∧
  decodeWord 1 0x0E466000 = .ok (.qsplc { g := 0, d := 6, a := 12, i := 0, b := 0 }) ∧
  decodeWord 2 0x0040FF854C402010 = .ok (.vfma { g := 0, ty := 0, gm := 255, dst := 0x85, a := 0x131, b := 2, c := 4, lm := 0 }) ∧
  decodeWord 5 0x0043FE0C05000000 = .ok (.sfexp2 { g := 0, ty := 0, gm := 255, dst := 0x83, src := 5, lm := 0, z := 0 }) ∧
  decodeWord 6 0x00407FE0D1148400 =
    .ok (.ppack { g := 0, tf := 0, tt := 1, gm := 255, dst := 0x83, a := 0x111, b := 0x121, imm := 0 }) ∧
  decodeWord 7 0x0038820808000040 =
    .ok (.ld { g := 0, sz := 6, sc := 1, data := 4, base := 2, idx := 0, at16 := 8, disp := 0x40 }) ∧
  decodeWord 9 0x03514023 =
    .ok (.mpa { g := 0, cell := 2, bank := 1, a := 4, b := 5, q := 0, fmt := 0, flags := 2, slice := 3 }) ∧
  decodeWord 0 0 = .error .unassigned

/-! ## Reset -/

/-- Registers and memory that the spec gives no value at reset read zero: DESIGN CHOICE of log entries 1 and 2. -/
def Obligations.ResetState : Prop :=
  let s := State.reset
  (∀ c k, (s.ctxAt c k).status = .free ∧ (s.ctxAt c k).loops = [] ∧ (s.ctxAt c k).sig = 0xFFFFFFFF ∧ (s.ctxAt c k).pc = 0 ∧
    (∀ r, (s.ctxAt c k).regs.sreg r = 0) ∧ (∀ r, (s.ctxAt c k).regs.xreg r = 0) ∧ (∀ r, (s.ctxAt c k).regs.lreg r = 0) ∧
    (∀ r, (s.ctxAt c k).regs.preg r = (r == 0)) ∧ (s.ctxAt c k).stages = 1 ∧
    (∀ q, ((s.ctxAt c k).queue q).mode = .disabled)) ∧
  (∀ c, (s.coreAt c).running = none ∧ (s.coreAt c).held = none ∧ (s.coreAt c).arr = {} ∧ (s.coreAt c).latch0.ready = false) ∧
  (∀ a, s.mem.read a = 0) ∧ s.mem.wf = true ∧ s.flight = [] ∧ s.cycle = 0 ∧ s.tick = 0 ∧ s.own.regions = []

/-! ## The step -/

/-- The events of other agents reach a run through the agenda (the model's own field, log entry 7). -/
def Obligations.StepRunsEvent : Prop :=
  ∀ (s : State) (i : Instr) (r : List Choice), s.agenda = .event i :: r → step s = exec i { s with agenda := r }

/-- A step is `exec` of the decoded instruction, with what the step adds around it: the bundle's end, its trap or its hold. -/
def Obligations.StepRunsDecoded : Prop :=
  ∀ (c sl w : Nat) (s t : State) (i : Instr), IssuesWord c sl w s → decodeWord sl w = .ok i →
    (BundleStart c s).leaderP = none → exec i (SlotStart c sl s) = .next t → (t.coreAt c).bun = t.bun →
    t.bun.bundle.words = [(sl, w)] → t.bun.dead = none →
    ((BundleStart c s).bun.issued = true ∨ t.cfgClash = false) →
    (t.bun.trap = none → t.bun.holds = [] →
      let v : State := { t with cur := c }
      let u := v.commit
      let x := u.ctxAt c v.core.issuing
      step s = .next (if (x.status == .held) || x.phase.rollback.isSome then u else u.endCycle c v.core.issuing v.core.dataIdx false true)) ∧
    (∀ e, t.bun.trap = some e → step s = .next ((BundleStart c s).trapBun c e)) ∧
    (t.bun.trap = none → t.bun.holds ≠ [] →
      let a := BundleStart c s
      let soft := t.bun.holds.any (({ a with cur := c } : State).interlocked)
      step s = .next ((if soft then a.endIdle c true else a).holdBun c t.bun.holds))

/-- The model refuses nothing and raises no fault: a trap is a next state (R209). The second part has the instruction as any that is
encoded with that guard. -/
def Obligations.ExecTotal : Prop :=
  (∀ (i : Instr) (s : State), ∃ t, exec i s = .next t) ∧
  ∀ (i : Instr) (s : State) (n : Nat) (slot : Nat), i.wfIn slot = true → encode i = some n →
    s.guard (BitVec.ofNat 4 (n / 2 ^ (8 * slotBytes slot - 4))) = false → exec i s = .next s

/-! ## The scalar slots -/

def Obligations.PutIsInFlight : Prop :=
  ∀ (x : Write) (lat : Nat) (s : State), InFlight x lat s (s.put x lat)

/-- The one-cycle operations of R191, for every form of B. -/
def Obligations.AluResults : Prop :=
  ∀ (w : RForm) (s : State) (b : Word), IsB w s b → Issues w.g (rReads w) s →
    let a := s.sreg w.a
    let n := b.toNat % 64
    let d := w.d.toNat
    Writes (.add w) (.s d (BitVec.ofNat 64 (a.toNat + b.toNat))) 1 s ∧
    Writes (.sub w) (.s d (BitVec.ofInt 64 ((a.toNat : Int) - b.toNat))) 1 s ∧
    Writes (.and w) (.s d (a &&& b)) 1 s ∧
    Writes (.or w) (.s d (a ||| b)) 1 s ∧
    Writes (.xor w) (.s d (a ^^^ b)) 1 s ∧
    Writes (.andn w) (.s d (a &&& ~~~b)) 1 s ∧
    Writes (.orn w) (.s d (a ||| ~~~b)) 1 s ∧
    Writes (.shl w) (.s d (BitVec.ofNat 64 (a.toNat * 2 ^ n))) 1 s ∧
    Writes (.shra w) (.s d (BitVec.ofInt 64 (a.toInt / 2 ^ n))) 1 s ∧
    Writes (.shrl w) (.s d (BitVec.ofNat 64 (a.toNat / 2 ^ n))) 1 s ∧
    Writes (.rotl w) (.s d ((a <<< n) ||| (a >>> (64 - n)))) 1 s ∧
    Writes (.min w) (.s d (BitVec.ofInt 64 (min a.toInt b.toInt))) 1 s ∧
    Writes (.max w) (.s d (BitVec.ofInt 64 (max a.toInt b.toInt))) 1 s ∧
    Writes (.minn w) (.s d (BitVec.ofNat 64 (min a.toNat b.toNat))) 1 s ∧
    Writes (.maxn w) (.s d (BitVec.ofNat 64 (max a.toNat b.toNat))) 1 s ∧
    (Issues w.g [w.a.toNat] s → Writes (.mov w) (.s d a) 1 s)

/-- Products as 128-bit words; quotients and remainders by the equations of R103. -/
def Obligations.MultiplyDivide : Prop :=
  ∀ (w : RForm) (s : State) (b : Word), IsB w s b → Issues w.g (rReads w) s →
    let a := s.sreg w.a
    let d := w.d.toNat
    Writes (.mul w) (.s d (BitVec.ofInt 64 (a.toInt * b.toInt))) 3 s ∧
    Writes (.mulh w) (.s d ((a.signExtend 128 * b.signExtend 128).extractLsb' 64 64)) 3 s ∧
    Writes (.mulhn w) (.s d ((a.zeroExtend 128 * b.zeroExtend 128).extractLsb' 64 64)) 3 s ∧
    (s.divBusy = 0 → ∃ q r qn rn : Word,
      exec (.div w) s = .next (s.put (.s d q) 18).setDiv ∧ exec (.mod w) s = .next (s.put (.s d r) 18).setDiv ∧
      exec (.divn w) s = .next (s.put (.s d qn) 18).setDiv ∧ exec (.modn w) s = .next (s.put (.s d rn) 18).setDiv ∧
      (b = 0 → q = -1 ∧ r = a ∧ qn = -1 ∧ rn = a) ∧
      (b ≠ 0 → a.toNat = qn.toNat * b.toNat + rn.toNat ∧ rn.toNat < b.toNat) ∧
      (b ≠ 0 → ¬ (a = BitVec.intMin 64 ∧ b = -1) →
        a.toInt = q.toInt * b.toInt + r.toInt ∧ r.toInt.natAbs < b.toInt.natAbs ∧ 0 ≤ a.toInt * r.toInt) ∧
      (a = BitVec.intMin 64 ∧ b = -1 → q = a ∧ r = 0)) ∧
    (s.divBusy ≠ 0 → exec (.div w) s = .next (s.hold .interlock) ∧ exec (.mod w) s = .next (s.hold .interlock) ∧
      exec (.divn w) s = .next (s.hold .interlock) ∧ exec (.modn w) s = .next (s.hold .interlock))

/-- Each result said by the bits of S[a]; `m` is the field specifier of BFX and BFI: an immediate without LIT is zero-extended, else it
is B. -/
def Obligations.BitCountsAndFields : Prop :=
  (∀ (w : RForm) (s : State), Issues w.g [w.a.toNat] s →
    let a := s.sreg w.a
    (∃ n, Writes (.clz w) (.s w.d.toNat (BitVec.ofNat 64 n)) 1 s ∧ n ≤ 64 ∧
      (∀ i, 64 - n ≤ i → a.getLsbD i = false) ∧ (n < 64 → a.getLsbD (63 - n) = true)) ∧
    (∃ n, Writes (.ctz w) (.s w.d.toNat (BitVec.ofNat 64 n)) 1 s ∧ n ≤ 64 ∧
      (∀ i, i < n → a.getLsbD i = false) ∧ (n < 64 → a.getLsbD n = true)) ∧
    Writes (.popc w) (.s w.d.toNat (BitVec.ofNat 64 ((List.range 64).countP (fun i => a.getLsbD i)))) 1 s) ∧
  ∀ (w : RForm) (s : State) (b : Word), IsB w s b →
    let a := s.sreg w.a
    let old := s.sreg w.d
    let n := if b.toNat % 64 = 0 then 64 else b.toNat % 64
    let m := if w.i = 1 ∧ s.litFor = none then w.b.zeroExtend 64 else b
    let pos := m.toNat % 64
    let len := m.toNat / 64 % 64 + 1
    (Issues w.g (rReads w) s →
      (∃ v, Writes (.sext w) (.s w.d.toNat v) 1 s ∧ ∀ i < 64, v.getLsbD i = a.getLsbD (if i < n then i else n - 1)) ∧
      (∃ v, Writes (.zext w) (.s w.d.toNat v) 1 s ∧ ∀ i < 64, v.getLsbD i = (decide (i < n) && a.getLsbD i)) ∧
      (∃ v, Writes (.bfx w) (.s w.d.toNat v) 1 s ∧ ∀ i < 64, v.getLsbD i = (decide (i < len) && a.getLsbD (i + pos)))) ∧
    (Issues w.g (w.d.toNat :: rReads w) s →
      (∃ v, Writes (.bfi w) (.s w.d.toNat v) 1 s ∧
        ∀ i < 64, v.getLsbD i = if pos ≤ i ∧ i < pos + len then a.getLsbD (i - pos) else old.getLsbD i) ∧
      Writes (.sel w) (.s w.d.toNat (if old ≠ 0 then a else b)) 1 s)

/-- LI, LIH and LIT (R192), with and without a literal in s1; their opcodes are 0x2A, 0x2B and 0x2C. -/
def Obligations.Immediates : Prop :=
  (∀ (w : LForm) (s : State), s.guard w.g = true →
    (s.litFor = none → Writes (.li w) (.s w.d.toNat (BitVec.ofInt 64 w.imm.toInt)) 1 s) ∧
    ∀ l, s.litFor = some l → Writes (.li w) (.s w.d.toNat (BitVec.ofInt 64 (l ++ w.imm).toInt)) 1 s) ∧
  (∀ (w : LForm) (s : State) (v : Word), Issues w.g [w.d.toNat] s →
    ((s.litFor = none ∧ v = BitVec.ofInt 64 w.imm.toInt) ∨ ∃ l, s.litFor = some l ∧ v = BitVec.ofInt 64 (l ++ w.imm).toInt) →
    Writes (.lih w) (.s w.d.toNat ((v <<< 32) ||| ((s.sreg w.d) &&& 0xFFFFFFFF#64))) 1 s) ∧
  (∀ (w : TForm) (s : State), exec (.lit w) s = .next s) ∧
  (∀ w : LForm, (encode (.li w)).map (fun n => n / 2 ^ 21 % 128) = some 0x2A ∧
    (encode (.lih w)).map (fun n => n / 2 ^ 21 % 128) = some 0x2B) ∧
  ∀ w : TForm, (encode (.lit w)).map (fun n => n / 2 ^ 21 % 128) = some 0x2C

def Obligations.ComparesPredicates : Prop :=
  (∀ (w : RForm) (s : State) (b : Word), IsB w s b → Issues w.g (rReads w) s →
    let a := s.sreg w.a
    let d := w.d.toNat
    Writes (.cmpeq w) (.p d (decide (a = b))) 1 s ∧
    Writes (.cmpne w) (.p d (decide (a ≠ b))) 1 s ∧
    Writes (.cmplt w) (.p d (decide (a.toInt < b.toInt))) 1 s ∧
    Writes (.cmple w) (.p d (decide (a.toInt ≤ b.toInt))) 1 s ∧
    Writes (.cmpltn w) (.p d (decide (a.toNat < b.toNat))) 1 s ∧
    Writes (.cmplen w) (.p d (decide (a.toNat ≤ b.toNat))) 1 s) ∧
  ∀ (w : RForm) (s : State), s.guard w.g = true →
    let pa := s.rd.preg w.a.toNat
    let pb := s.rd.preg (w.b.toNat % 8)
    let d := w.d.toNat
    Writes (.pand w) (.p d (pa && pb)) 1 s ∧ Writes (.por w) (.p d (pa || pb)) 1 s ∧
    Writes (.pxor w) (.p d (pa ^^ pb)) 1 s ∧ Writes (.pnot w) (.p d (!pa)) 1 s

/-- The values are exact (`FVal`) and rounded once; `f` reads bits [31:0] of a register as FP32. -/
def Obligations.ScalarFloat : Prop :=
  ∀ (w : RForm) (s : State),
    let f := fun v : Word => fp32.value (v.toNat % 2 ^ 32)
    let r := fun x : FVal => BitVec.ofNat 64 (fp32.round .rne x)
    let a := s.sreg w.a
    let b := s.sreg (w.b.extractLsb' 0 5)
    let d := w.d.toNat
    let ty : IFmt := ⟨64, !w.b.getLsbD 3⟩
    let mode := RMode.ofCode (w.b.toNat % 8)
    (w.i = 0 → Issues w.g (rReads w) s →
      Writes (.fadd w) (.s d (r ((f a).add (f b)))) 4 s ∧
      Writes (.fsub w) (.s d (r ((f a).add (f b).neg))) 4 s ∧
      Writes (.fmul w) (.s d (r ((f a).mul (f b)))) 4 s ∧
      Writes (.fmin w) (.s d (r ((f a).min (f b)))) 4 s ∧
      Writes (.fmax w) (.s d (r ((f a).max (f b)))) 4 s ∧
      Writes (.fcmplt w) (.p d ((f a).lt (f b))) 4 s ∧
      Writes (.fcmpeq w) (.p d ((f a).eq (f b))) 4 s ∧
      (w.d.toNat ∉ s.me.badS → Writes (.fma w) (.s d (r (((f a).mul (f b)).add (f (s.sreg w.d))))) 4 s)) ∧
    (Issues w.g [w.a.toNat] s →
      Writes (.fcvti w) (.s d (BitVec.ofInt 64 ((f a).toInt mode ty.lo ty.hi))) 4 s ∧
      Writes (.icvtf w) (.s d (BitVec.ofNat 64 (fp32.round mode (FVal.ofInt (if w.b.getLsbD 3 then (a.toNat : Int) else a.toInt))))) 4 s ∧
      Writes (.fabs w) (.s d (BitVec.ofNat 64 (a.toNat % 2 ^ 31))) 4 s ∧
      Writes (.fneg w) (.s d (BitVec.ofNat 64 ((a.toNat + 2 ^ 31) % 2 ^ 32))) 4 s)

/-! ## Control -/

/-- The transfer instructions, with and without a LIT-extended displacement. -/
def Obligations.Transfers : Prop :=
  (∀ (w : BForm) (s : State) (disp : Int), s.guard w.g = true →
    ((s.litFor = none ∧ disp = w.disp.toInt) ∨ ∃ l, s.litFor = some l ∧ disp = (l ++ w.disp).toInt) →
    (s.bun.holds = [] → s.atLoopEnd = false →
      exec (.br w) s = .next (Chooses (.go (TargetOf s disp w.idx)) s) ∧
      (s.inBroadcast = false → ∃ t, exec (.call w) s = .next t ∧ t.bun = (Chooses (.go (TargetOf s disp w.idx)) s).bun ∧
        t.me = { (s.put (.s 31 (s.me.follow s.me.pc)) 1).me with rstack := (s.me.follow s.me.pc :: s.me.rstack).take 4 } ∧
        t = { s with cores := t.cores })) ∧
    (s.atLoopEnd = true → TrapsAt (.br w) .illegal s ∧ TrapsAt (.call w) .illegal s)) ∧
  (∀ (w : BPForm) (s : State) (disp : Int), s.guard w.g = true →
    ((s.litFor = none ∧ disp = w.disp.toInt) ∨ ∃ l, s.litFor = some l ∧ disp = (l ++ w.disp).toInt) →
    (s.bun.holds = [] → s.atLoopEnd = false →
      exec (.brp w) s = .next (if s.rd.preg w.p.toNat = true then Chooses (.go (TargetOf s disp w.idx)) s else s) ∧
      exec (.brnp w) s = .next (if s.rd.preg w.p.toNat = true then s else Chooses (.go (TargetOf s disp w.idx)) s)) ∧
    (s.atLoopEnd = true → TrapsAt (.brp w) .illegal s ∧ TrapsAt (.brnp w) .illegal s)) ∧
  ∀ (w : RForm) (s : State), s.guard w.g = true →
    (s.bun.holds = [] → w.a.toNat ∉ s.me.badS → s.atLoopEnd = false → s.inBroadcast = false →
      ∃ t, exec (.ret w) s = .next t ∧ exec (.jmps w) s = .next t ∧ t.bun = (Chooses (.go (s.sreg w.a)) s).bun ∧
        t.me = { s.me with rstack := s.me.rstack.drop 1 } ∧ t = { s with cores := t.cores }) ∧
    (s.atLoopEnd = true → TrapsAt (.ret w) .illegal s ∧ TrapsAt (.jmps w) .illegal s)

/-- `Ctx.advance` applies as a bundle ends whose control action is the argument; `x.follow` is the bundle after a code address. -/
def Obligations.NextBundle : Prop :=
  ∀ (x : Ctx) (c : Option Ctl) (l : Level) (r : List Level),
    let atEnd := l.start.toNat / 512 = x.pc.toNat / 512 ∧ l.endIdx = x.pc.toNat % 512
    (∀ t, x.loops = [] → (x.advance (some (.go t))).pc = t ∧ (x.advance (some (.go t))).loops = []) ∧
    (x.loops = [] → (x.advance none).pc = x.follow x.pc ∧ (x.advance none).loops = []) ∧
    (∀ lv v, (x.advance (some (.push lv v))).pc = x.follow x.pc ∧ (x.advance (some (.push lv v))).loops = lv :: x.loops ∧
      (x.advance (some (.push lv v))).regs.xreg lv.xn = v) ∧
    (∀ e, (x.advance (some (.skip e))).pc = x.follow (codeAddr (segOf x.pc) e) ∧
      (x.advance (some (.skip e))).loops = x.loops ∧ (x.advance (some (.skip e))).regs = x.regs) ∧
    (x.loops = l :: r → atEnd → 0 < l.rem →
      (x.advance none).pc = l.start ∧ (x.advance none).loops = { l with rem := l.rem - 1 } :: r ∧
      (x.advance none).regs.xreg l.xn = x.regs.xreg l.xn + l.step.signExtend 64) ∧
    (x.loops = l :: r → atEnd → l.rem = 0 → x.advance none = ({ x with loops := r } : Ctx).advance none) ∧
    (x.loops = l :: r → ¬ atEnd → (x.advance none).pc = x.follow x.pc ∧ (x.advance none).loops = l :: r ∧ (x.advance none).regs = x.regs) ∧
    (∀ a, x.loops = [l] → l.after = some a → (x.advance (some .brk)).pc = a ∧ (x.advance (some .brk)).loops = [] ∧
      (x.advance (some .brk)).regs = x.regs) ∧
    (x.loops = l :: r → c = some .brk → atEnd → (∀ a, l.after = some a → a = x.follow x.pc) →
      x.advance c = ({ x with loops := r } : Ctx).advance none)

def Obligations.LoopInstructions : Prop :=
  ∀ (w : JForm) (s : State), s.guard w.g = true →
    let c := w.c.toNat % 32
    let v := fun i : Nat => s.rd.sreg (c + i)
    let start := ((v 0).setWidth 32).toInt
    let bound := ((v 1).setWidth 32).toInt
    let step := ((v 2).setWidth 32).toInt
    (LoopFits w s →
      (s.bun.holds = [] → c ∉ s.me.badS →
        ((v 0).toNat < 2 ^ 32 → Loops (.loop w) w (v 0).toNat 0 1 0 s ∧
          Loops (.mloop w) w (if v 0 = 0 then 0 else (v 0).toNat + w.c.toNat / 32 % 16 - 1) 0 1 (w.c.toNat / 32 % 16) s) ∧
        (c + 1 ∉ s.me.badS → c + 2 ∉ s.me.badS → step ≠ 0 → ∃ n, Loops (.loopx w) w n (BitVec.ofInt 64 start) ((v 2).setWidth 32) 0 s ∧
          (∀ j < n, if 0 < step then start + j * step < bound else bound < start + j * step) ∧
          (if 0 < step then bound ≤ start + n * step else start + n * step ≤ bound))) ∧
      (s.bun.holds = [] → Loops (.loopi w) w w.c.toNat 0 1 0 s) ∧
      (2 ^ 32 ≤ (v 0).toNat → TrapsAt (.loop w) .loopStep s ∧ TrapsAt (.mloop w) .loopStep s) ∧
      (step = 0 → TrapsAt (.loopx w) .loopStep s)) ∧
    (¬ LoopFits w s → TrapsAt (.loop w) .illegal s ∧ TrapsAt (.loopi w) .illegal s ∧ TrapsAt (.loopx w) .illegal s ∧
      TrapsAt (.mloop w) .illegal s)

def Obligations.SequencerInstructions : Prop :=
  ∀ (w : RForm) (s : State), s.guard w.g = true →
    let o := (s.sreg w.a).toNat
    let n := (s.opB w).toNat
    Writes (.getx w) (.s w.d.toNat (s.rd.xreg w.a.toNat)) 1 s ∧
    (s.me.loops = [] → TrapsAt (.lbrk w) .illegal s) ∧
    (s.bun.holds = [] → s.me.loops ≠ [] → exec (.lbrk w) s = .next (Chooses .brk s)) ∧
    ((s.sreg w.a).setWidth 32 ≠ ~~~ s.me.sig → TrapsAt (.chksig w) .sig s) ∧
    (s.bun.holds = [] → w.a.toNat ∉ s.me.badS → (s.sreg w.a).setWidth 32 = ~~~ s.me.sig →
      exec (.chksig w) s = .next (s.modMe (fun x => { x with sig := -1 }))) ∧
    (s.inService = true ∨ s.isStopPoint = false → TrapsAt (.yield w) .illegal s) ∧
    (s.bun.holds = [] → s.inService = false → s.isStopPoint = true → s.inBroadcast = false →
      exec (.yield w) s = .next (Chooses .yield s)) ∧
    (s.me.bind.phaseBound = false → TrapsAt (.phase w) .illegal s) ∧
    (Issues w.g (rReads w) s → s.me.bind.phaseBound = true → (s.me.bind.gang = none ∨ s.inBroadcast = true) → 1 ≤ n → n ≤ 3072 →
      o + 512 * n ≤ s.me.bind.spanBytes → (o + 512 * n ≤ s.me.bind.snap ∨ s.me.bind.snap + 37888 ≤ o) → s.isStopPoint = true →
      (o % 512 = 0 → exec (.phase w) s = .next (Chooses (.phase o n) s)) ∧ (o % 512 ≠ 0 → TrapsAt (.phase w) .align s))

/-- TRAP in a task context that is not bound to phases and has no cause pending; its entry is the shared operation of every cause. -/
def Obligations.TrapTakesCause : Prop :=
  (∀ (w : RForm) (s : State), s.guard w.g = true → s.inService = false → s.me.bind.phaseBound = false → s.me.phase.rollback = none →
    s.core.svcTimer = none →
    ∃ t, exec (.trap w) s = .next t ∧ t = s.takeCause .trap 0 (if w.i = 0 then (s.sreg (w.b.extractLsb' 0 5)).toNat % 1024 else w.b.toNat) false s.me.pc ∧
      t.me.status = .held ∧ t.me.addr = s.me.pc ∧
      t.me.cause = { s.me.cause with cause := 31, slot := 0, esc := false, res := false, detail := (if w.i = 0 then (s.sreg (w.b.extractLsb' 0 5)).setWidth 10 else w.b) } ∧
      { t.me with status := s.me.status, addr := s.me.addr, cause := s.me.cause } = s.me ∧
      t.core.svcTimer = some 4 ∧ Freeze.fault ∈ t.core.freeze ∧ t.bun = s.bun ∧
      (s.bun.void = false → ∃ r, t.core.replay = some r ∧ r.addr = s.me.pc ∧ r.bundle = s.bun.bundle ∧ r.done = s.bun.done ∧
        r.latch = (if s.bun.begun then some ⟨s.rd, s.stageBits⟩ else s.bun.latch)) ∧
      (∀ c k, (c ≠ s.cur ∨ k ≠ s.core.issuing) → t.ctxAt c k = s.ctxAt c k) ∧ t = { s with cores := t.cores }) ∧
  ∀ s : State, TrapsAt .unassignedOpcode .illegal s ∧
    (s.inService = false → s.me.bind.phaseBound = false → s.me.phase.rollback = none → s.core.svcTimer = none → s.bun.trap = none →
      s.bun.walking = false →
      ∃ t, exec .unassignedOpcode s = .next t ∧ t.bun.trap = some (s.slot, .illegal, 0) ∧ t.me.status = .held ∧
        t.me.addr = s.me.pc ∧ t.me.cause.cause = 1 ∧ t.mem = s.mem)

/-- The three ERETs; the held context belongs to no running gang here, so no other core is concerned. -/
def Obligations.ServiceReturns : Prop :=
  ∀ (w : RForm) (s : State) (k : Nat), s.guard w.g = true →
    (s.inService = false → TrapsAt (.eretResume w) .priv s ∧ TrapsAt (.eretSkip w) .priv s ∧ TrapsAt (.eretEsc w) .priv s) ∧
    (s.bun.holds = [] → s.core.held = some k → (s.ctxAt s.cur k).bind.gang = none →
      let x := (s.ctxAt s.cur k).unshadow
      let esc := fun t : State => t.core.held = none ∧ t.core.running = s.core.running ∧
        t.ctxAt s.cur k = { x with status := .held, escalating := true, cause := { x.cause with esc := true } } ∧
        t.core.freeze = s.core.freeze.filter (fun f => !(f == Freeze.fault)) ∧ t = { s with cores := t.cores }
      (x.cause.res = false →
        (∃ t, exec (.eretResume w) s = .next t ∧ t.core.held = none ∧ t.core.running = some k ∧ t.ctxAt s.cur k = { x with status := .running } ∧
          t.core.replay = s.core.replay ∧ t.core.freeze = s.core.freeze.filter (fun f => !(f == Freeze.fault)) ∧ t = { s with cores := t.cores }) ∧
        (∃ t, exec (.eretSkip w) s = .next t ∧ t.core.held = none ∧ t.core.running = some k ∧ (t.ctxAt s.cur k).status = .running ∧
          t.core.replay = s.core.replay.map (fun r => { r with done := 1023 }) ∧ (t.ctxAt s.cur k).regs = x.regs ∧
          t.core.freeze = s.core.freeze.filter (fun f => !(f == Freeze.fault)) ∧ t = { s with cores := t.cores }) ∧
        ∃ t, exec (.eretEsc w) s = .next t ∧ esc t) ∧
      (x.cause.res = true →
        (∃ t, exec (.eretResume w) s = .next t ∧ esc t) ∧ (∃ t, exec (.eretSkip w) s = .next t ∧ esc t) ∧
        ∃ t, exec (.eretEsc w) s = .next t ∧ esc t))

/-! ## Queues -/

/-- The bundle of a task context without a control action, a queue change or a pinned source; `popped` and `apps` are its pops and appends. -/
def Obligations.BundleEnd : Prop :=
  ∀ s : State, s.me.phase.rollback = none → s.me.status ≠ .held → s.bun.ctl = none → s.inService = false → s.leaderP = none →
    s.bun.acts = [] → s.bun.pins = [] → s.bun.issued = false →
    ∃ t, exec .emptyBundle s = .next t ∧ t = { s with cores := t.cores } ∧
      (∀ c k, (c ≠ s.cur ∨ k ≠ s.core.issuing) → t.ctxAt c k = s.ctxAt c k) ∧
      t.me = { s.me.openSegment.advance none with
        q := t.me.q, sig := sigStep s.me.sig s.me.pc, spacing := (if s.isStopPoint then 0 else s.me.spacing + 1),
        atStop := s.isStopPoint, stepped := false, now := false, replay := none, met := none } ∧
      ∀ q < 16,
        let d := s.queue q
        let n := s.bun.popped q
        let new := s.bun.apps.filter (fun e => e.2.1 == q)
        (n = 0 → new = [] → t.queue q = d) ∧
        (0 < n → new = [] → d.mode = .localQ → s.me.bind.phaseBound = false →
          (t.queue q).head = qadvance d.head n d.cap ∧ (t.queue q).tail = d.tail ∧
          ∀ i < 256, (t.queue q).pmap.getLsbD i = (d.pmap.getLsbD i && decide (∀ k < n, d.at k ≠ i))) ∧
        (∀ sl i, n = 0 → new = [(sl, q, i)] → d.mode = .localQ → i < 256 →
          (t.queue q).head = d.head ∧ (t.queue q).tail = qadvance d.tail 1 d.cap ∧
          (∀ j < 256, (t.queue q).pmap.getLsbD j = (d.pmap.getLsbD j && decide (j ≠ i))) ∧
          (t.queue q).hwm = max d.hwm (qcount d.head (qadvance d.tail 1 d.cap) d.cap))

/-- The shared checks of every slot that reads or appends (R79): `needSlot` and `appendSlot`. -/
def Obligations.QueueChecks : Prop :=
  ∀ (q k : Nat) (s : State),
    let d := s.queue q
    let i := d.at k
    let n := s.bun.appended q
    let p := s.bun.popped q
    (d.mode = .disabled ∨ d.mode = .spliceOut → needSlot q k s = .error (.trap .queue 0)) ∧
    (d.mode = .localQ → d.used ≤ k → needSlot q k s = .error (.trap (if d.down then .linkDown else .queue) 0)) ∧
    (d.mode = .spliceIn → d.adv ≤ k → needSlot q k s = .error (.trap .queue 0)) ∧
    ((d.mode = .localQ ∧ k < d.used) ∨ (d.mode = .spliceIn ∧ k < d.adv) →
      ∃ t, needSlot q k s = .ok t ∧ BundleOnly s t ∧ t.bun.pops = s.bun.pops ∧ t.bun.apps = s.bun.apps ∧
        t.bun.holds = s.bun.holds ++ (if d.pmap.getLsbD i then [] else [.slot q i])) ∧
    (d.mode = .disabled ∨ d.mode = .spliceIn → (∀ e ∈ s.bun.pre, e.1 ≠ s.slot ∨ e.2.1 ≠ q) → appendSlot q s = .error (.trap .queue 0)) ∧
    (d.mode = .localQ → (∀ e ∈ s.bun.pre, e.1 ≠ s.slot ∨ e.2.1 ≠ q) → d.pinned = [] → d.popped = 0 → s.data.bind.phaseBound = false →
      s.bun.pins = [] →
      (d.cap < d.used - p + n + 1 → appendSlot q s = .error (.trap .queue 0)) ∧
      (d.used - p + n + 1 ≤ d.cap → ∃ t, appendSlot q s = .ok t ∧ BundleOnly s t ∧ t.bun.holds = s.bun.holds ∧ t.bun.pops = s.bun.pops ∧
        t.bun.apps = s.bun.apps ++ [(s.slot, q, (qadvance d.tail n d.cap).idx)])) ∧
    (d.mode = .spliceOut → (∀ e ∈ s.bun.pre, e.1 ≠ s.slot ∨ e.2.1 ≠ q) →
      (d.down = true → appendSlot q s = .error (.trap .linkDown 0)) ∧
      (d.down = false → d.refused = true → appendSlot q s = .error (.trap (if d.ownf then .ownNone else .queue) 0)) ∧
      (d.down = false → d.refused = false → d.pend = false → d.failing = true ∨ d.mirrorOk = false →
        appendSlot q s = .error (.trap .queueSync 0)) ∧
      (d.down = false → d.refused = false → d.pend = false → d.failing = false → d.mirrorOk = true →
        ∃ t, appendSlot q s = .ok t ∧ BundleOnly s t ∧ t.bun.apps = s.bun.apps ++ [(s.slot, q, (qadvance d.tail n (d.rcapw + 1)).idx)] ∧
          t.bun.holds = s.bun.holds ++ (if d.freeOut < n + 1 then [.freeze (.noRoom q)] else [])))

/-- The instructions of R97, each where its own conditions hold; `q` is the queue of its destination field. -/
def Obligations.QueueInstructions : Prop :=
  (∀ (w : RForm) (s : State), s.guard w.g = true → s.bun.holds = [] →
    let q := w.d.toNat % 16
    let d := s.queue q
    let n := (s.opB w).toNat
    let v := (s.sreg w.a).toNat
    (255 < n → TrapsAt (.qwait w) .illegal s) ∧
    (n ≤ 255 → (d.mode = .localQ ∧ n < d.used) ∨ (d.mode = .spliceIn ∧ n < d.adv) →
      exec (.qwait w) s = .next (if d.pmap.getLsbD (d.at n) then s else s.hold (.freeze (.wait (.slot q n))))) ∧
    (n ≤ 255 → d.mode = .disabled ∨ d.mode = .spliceOut → TrapsAt (.qwait w) .queue s) ∧
    (n = 0 ∨ 256 < n → TrapsAt (.qfree w) .illegal s) ∧
    (1 ≤ n → n ≤ 256 → d.mode = .localQ →
      (d.used + n ≤ d.cap → exec (.qfree w) s = .next s) ∧ (d.cap < d.used + n → TrapsAt (.qfree w) .queue s)) ∧
    (1 ≤ n → n ≤ d.rcapm1 + 1 → n ≤ 256 → d.mode = .spliceOut → d.down = false → d.refused = false → d.pend = false → d.failing = false →
      d.mirrorOk = true → exec (.qfree w) s = .next (if n ≤ d.freeOut then s else s.hold (.freeze (.wait (.room q n))))) ∧
    ((d.mode = .localQ ∧ d.used = 0) ∨ d.mode = .disabled → w.a.toNat ∉ s.me.badS →
      v = 0 ∨ (v < 2 ^ 32 ∧ v / 2 ^ 16 % 256 ≠ 0 ∧ v / 2 ^ 24 % 256 ≤ v / 2 ^ 16 % 256 ∧
        (v % 4096 + (v / 2 ^ 16 % 256 + 1) * (v / 2 ^ 12 % 16 + 1)) * 512 ≤ s.data.bind.spanBytes) →
      Defers (.qcfg w) q (.cfg q (s.sreg w.a)) s) ∧
    (d.mode = .localQ → 0 < d.used → TrapsAt (.qcfg w) .queue s) ∧
    (v < 2 ^ 15 → v % 128 < 96 → spliceDst v ≠ ⟨s.cur, s.core.dataIdx, q⟩ → d.mode = .localQ → d.used = 0 → w.a.toNat ∉ s.me.badS →
      Defers (.qsplc w) q (.splice q ⟨96 * (v / 2 ^ 7 % 4) + v % 128, v / 2 ^ 9 % 4, v / 2 ^ 11 % 16⟩) s) ∧
    (d.mode = .spliceOut → (d.pend = false ∨ d.refused = true ∨ d.down = true → Defers (.qunsp w) q (.unsplice q) s) ∧
      (d.pend = true → d.refused = false → d.down = false → exec (.qunsp w) s = .next (s.hold (.freeze (.unsplice q)))) ∧
      exec (.qsync w) s = .next (s.modBun (fun b => { b with acts := b.acts ++ [.sync q] }))) ∧
    (d.mode ≠ .spliceOut → TrapsAt (.qunsp w) .queue s ∧ TrapsAt (.qsync w) .queue s) ∧
    (d.mode = .localQ ∨ d.mode = .spliceIn → (∀ k < d.used, d.pmap.getLsbD (d.at k) = true) → Defers (.qclr w) q (.clear q d.used) s) ∧
    (MayAppend q 0 s → ∃ u, BundleOnly s u ∧ u.bun.holds = [] ∧ u.bun.pops = s.bun.pops ∧
      exec (.qzap w) s = .next (u.put (if d.mode = .spliceOut then .remote d.partner q (u.appIdx q) 0x0F (List.replicate ((d.ssz + 1) * 512) 0)
        else .slot q (u.appIdx q) 0x0F (List.replicate ((d.ssz + 1) * 512) 0)) (d.ssz + 1)))) ∧
  (∀ (w : RForm) (s : State) (n : Nat), s.guard w.g = true → s.bun.holds = [] →
    (w.i = 1 ∧ n = w.b.toNat) ∨ (w.i = 0 ∧ n = (s.sreg (w.b.extractLsb' 0 5)).toNat ∧ (w.b.extractLsb' 0 5).toNat ∉ s.me.badS) →
    let q := w.d.toNat % 16
    let d := s.queue q
    (n = 0 → exec (.qpop w) s = .next s) ∧
    (d.mode = .localQ → d.used < n → TrapsAt (.qpop w) (if d.down then .linkDown else .queue) s) ∧
    (0 < n → (d.mode = .localQ ∧ n ≤ d.used) ∨ (d.mode = .spliceIn ∧ n ≤ d.adv) →
      ((∀ k < n, d.pmap.getLsbD (d.at k) = true) → ∃ t, exec (.qpop w) s = .next t ∧ BundleOnly s t ∧ t.bun.holds = [] ∧
        t.bun.pops = s.bun.pops ++ [(q, n)]) ∧
      (∀ k < n, d.pmap.getLsbD (d.at k) = false → ∃ t, exec (.qpop w) s = .next t ∧ BundleOnly s t ∧ Hold.slot q (d.at k) ∈ t.bun.holds))) ∧
  (∀ (w : RForm) (s : State), s.guard w.g = true →
    let d := s.queue (w.a.toNat % 16)
    ∃ v, Writes (.qstat w) (.s w.d.toNat v) 1 s ∧
      (d.mode = .localQ → d.capm1 < 256 → d.head.idx ≤ d.capm1 → d.tail.idx ≤ d.capm1 → d.hwm ≤ 256 → d.used ≤ d.cap →
        v.toNat % 2 ^ 9 = d.head.bits ∧ v.toNat / 2 ^ 9 % 2 ^ 9 = d.tail.bits ∧ v.toNat / 2 ^ 18 % 2 ^ 9 = d.used ∧
        v.toNat / 2 ^ 27 % 2 ^ 9 = d.cap - d.used ∧
        v.toNat / 2 ^ 36 % 2 ^ 9 = (List.range d.used).countP (fun k => d.pmap.getLsbD (d.at k)) ∧ v.toNat / 2 ^ 45 % 4 = 1 ∧
        v.toNat / 2 ^ 50 % 2 = 0 ∧ v.toNat / 2 ^ 51 = d.hwm)) ∧
  (∀ (w : RForm) (s : State), s.guard w.g = true →
    let a := w.a.toNat
    let v : BitVec 256 := s.rd.sreg (a + 3) ++ s.rd.sreg (a + 2) ++ s.rd.sreg (a + 1) ++ s.rd.sreg a
    let old := s.rd.dreg (a % 16)
    (streamOk v = false → TrapsAt (.dset w) .format s) ∧
    (s.bun.holds = [] → s.inService = false → streamOk v = true → (∀ i < 4, a + i ∉ s.me.badS) → Writes (.dset w) (.d (w.d.toNat % 16) v) 1 s) ∧
    (s.inService = false → exec (.dget w) s = .next ((((s.put (.s w.d.toNat (old.extractLsb' 0 64)) 1).put
      (.s (w.d.toNat + 1) (old.extractLsb' 64 64)) 1).put (.s (w.d.toNat + 2) (old.extractLsb' 128 64)) 1).put
      (.s (w.d.toNat + 3) (old.extractLsb' 192 64)) 1))) ∧
  ∀ (s : State) (c k q : Nat) (v : Word) (e : QEnd),
    let d := (s.ctxAt c k).queue q
    let after := fun a : QAct => ((s.applyAct c k a).ctxAt c k).queue q
    (v ≠ 0 → (after (.cfg q v)).mode = .localQ ∧ (after (.cfg q v)).base = v.toNat % 2 ^ 12 ∧ (after (.cfg q v)).ssz = v.toNat / 2 ^ 12 % 16 ∧
      (after (.cfg q v)).capm1 = v.toNat / 2 ^ 16 % 256 ∧ (after (.cfg q v)).occm1 = v.toNat / 2 ^ 24 % 256 ∧ (after (.cfg q v)).pmap = 0 ∧
      (after (.cfg q v)).used = 0) ∧
    (after (.cfg q 0)).mode = .disabled ∧ (after (.clear q d.used)).head = qadvance d.head d.used d.cap ∧
    (after (.splice q e)).mode = .spliceOut ∧ (after (.splice q e)).pend = true ∧ (after (.sync q)).pend = true ∧
    (e.core < 384 → (after (.splice q e)).partner = e) ∧
    ((s.ctxAt c k).bind.array = false → (after (.unsplice q)).mode = .localQ ∧ (after (.unsplice q)).used = 0) ∧
    (s.applyAct c k (.splice q e)).seq = s.seq + 1

/-! ## Waits, barriers, gangs, launches and system registers -/

/-- GETX (R202): its effect and its fields. -/
def Obligations.GetxReadsIndex : Prop :=
  ∀ w : RForm,
    (∀ s : State, s.guard w.g = true → Writes (.getx w) (.s w.d.toNat (s.rd.xreg w.a.toNat)) 1 s) ∧
    ∀ n slot, encode (.getx w) = some n → (Instr.getx w).wfIn slot = true →
      n / 2 ^ 21 % 128 = 0x5B ∧ n / 2 ^ 16 % 32 = w.d.toNat ∧ n / 2 ^ 11 % 32 = w.a.toNat ∧ n % 2 ^ 11 = 0 ∧
      n / 2 ^ 14 % 4 = 0 ∧ w.a.toNat ≤ 5

/-- The waits and the gang instructions, each where its conditions hold; `g` is the gang of the issuing context. -/
def Obligations.WaitsBarriersGangs : Prop :=
  (∀ (w : RForm) (s t : State) (p : Piece), Issues w.g (rReads w) s → MayAccess .bypass (s.sreg w.a).toNat 8 8 s [p] t →
    t.piecesOf .bypass (s.sreg w.a).toNat 8 = [p] → t.inReach (s.cur / 96) p.pa = true → t.remote p.pa = false →
    (t.payWaitc p.pa).isSome = true → t.enFenced t.cur t.core.issuing = false → (∀ r, t.sreg r = s.sreg r) → t.opB w = s.opB w → t.me.badS = s.me.badS →
    t.cur = s.cur → t.bun = s.bun →
    let v := leNat (t.homeBytes p.pa 8)
    ((s.opB w).toNat ≤ v → ∃ u, exec (.waitc w) s = .next u ∧ u.mem = s.mem ∧ (∀ c k, u.ctxAt c k = t.ctxAt c k) ∧ u.bun = s.bun ∧ u.own = t.own) ∧
    (v < (s.opB w).toNat → exec (.waitc w) s = .next (t.hold (.freeze (.wait (.object p.pa (s.opB w).toNat)))))) ∧
  (∀ (w : RForm) (s : State), Issues w.g (rReads w) s →
    let v := s.sreg w.a
    let key := barKey s.cur v
    let b := if w.i = 0 then (s.sreg (w.b.extractLsb' 0 5)).toNat % 2 ^ 32 else w.b.toNat
    (MayUseBarrier v s → (s.me.bind.phaseBound = true → barScope v ≤ 1) →
      (barScope v < 4 → exec (.bara w) s = .next (s.send (.arrive v false false))) ∧
      (4 ≤ barScope v → exec (.bara w) s =
        .next ((s.modMe (fun x => { x with flushSeq := x.flushSeq + 1 })).send (.arrive v false false))) ∧
      (s.me.land.length < 32 → ∃ t f, exec (.bar w) s = .next t ∧ t.mem = s.mem ∧ t.own = s.own ∧ t.seq = s.seq + 1 ∧
        Tab.find t.flight s.seq = some f ∧ f.msg = .arrive v true false ∧ f.core = s.cur ∧ f.ctx = s.core.issuing ∧
        t.core.freeze = s.core.freeze ++ [.bar (.object s.seq 0)] ∧ t.me.regs = s.me.regs ∧
        t.me.land = s.me.land ++ [⟨0, s.slot, s.seq, .s w.d.toNat 0, false, none, s.me.pc, s.maskSel⟩])) ∧
    (MayUseBarrier v s → (w.i = 1 → s.litFor = none) →
      (Reached (s.bar key).phase b → exec (.barw w) s = .next s) ∧
      (¬ Reached (s.bar key).phase b → exec (.barw w) s = .next (s.hold (.freeze (.wait (.barrier v b)))))) ∧
    (barOk v = false ∨ s.inService = true → TrapsAt (.bara w) .illegal s ∧ TrapsAt (.barw w) .illegal s ∧ TrapsAt (.bar w) .illegal s) ∧
    (barOk v = true → s.inService = false → s.me.bind.phaseBound = false → (s.bar key).launch ≠ s.me.bind.launch →
      TrapsAt (.bara w) .gang s ∧ TrapsAt (.barw w) .gang s ∧ TrapsAt (.bar w) .gang s)) ∧
  ∀ (w : RForm) (s : State) (n : Nat) (g : Gang), Issues w.g [w.a.toNat] s → s.me.bind.gang = some n → Tab.find s.gangs n = some g →
    s.inService = false →
    let m := s.me.bind.member
    let v := s.sreg w.a
    let put := s.put (.s w.d.toNat (BitVec.ofNat 64 (m + 4 * (g.members.length - 1)))) 1
    (g.states[m]? = some .broadcast → exec (.gend w) s = .next (Chooses .gend s) ∧ TrapsAt (.giss w) .gang s) ∧
    (g.states[m]? ≠ some .broadcast → TrapsAt (.gend w) .gang s ∧
      (s.isStopPoint = true → exec (.gjoin w) s =
        .next (if m = 0 then put else { put with gangs := s.gangs.put n { g with parking := m :: g.parking } })) ∧
      (m ≠ 0 → TrapsAt (.giss w) .gang s) ∧
      (m = 0 → v = 0 ∨ (MayUseBarrier v s ∧ (s.me.bind.phaseBound = true → barScope v = 1)) →
        ∃ t, exec (.giss w) s = .next t ∧ t.mem = s.mem ∧ t.core.freeze = s.core.freeze ++ [.giss] ∧
          t.gangs = s.gangs.put n { g with comp := v, giss := true } ∧ ∀ c k, t.ctxAt c k = s.ctxAt c k)) ∧
    (s.isStopPoint = false → TrapsAt (.gjoin w) .illegal s)

/-- The service context refers to the context it holds (R210); `s.data` is that context, or the issuing one. -/
def Obligations.LaunchDoneSystem : Prop :=
  ∀ (w : RForm) (s : State), Issues w.g [w.a.toNat] s →
    let n := w.b.toNat
    let x := s.data
    let reads := fun v : Word => Writes (.sysrd w) (.s w.d.toNat v) 1 s
    (∀ t ps, s.inService = false → s.data.bind.phaseBound = false → s.inBroadcast = false →
      MayAccess .bypass (s.sreg w.a).toNat 64 64 s ps t → t.piecesOf .bypass (s.sreg w.a).toNat 64 = ps → t.me.land.length < 32 →
      t.me.badS = s.me.badS → t.sreg w.a = s.sreg w.a → t.bun = s.bun →
      exec (.lnch w) s = .next ((t.awaitLanding 0 [.s w.d.toNat 0]).send (.launch (s.sreg w.a).toNat
        (ps.map (fun p => (p.pa, p.len))) t.data.bind.asn t.data.bind.party none))) ∧
    (s.inService = true ∨ s.data.bind.phaseBound = true → TrapsAt (.lnch w) .illegal s) ∧
    (s.inService = false → s.isStopPoint = true → s.inBroadcast = false → exec (.done w) s = .next (Chooses .done s)) ∧
    (s.inService = true ∨ s.isStopPoint = false → TrapsAt (.done w) .illegal s) ∧
    (n = 0x00 → reads (BitVec.ofNat 64 s.core.issuing)) ∧ (n = 0x01 → reads (BitVec.ofNat 64 (s.cur % 96))) ∧
    (n = 0x02 → reads (BitVec.ofNat 64 (s.cur % 96 / 4))) ∧ (n = 0x03 → reads (BitVec.ofNat 64 (s.cur / 96))) ∧
    (n = 0x04 → reads (BitVec.ofNat 64 s.pkgid)) ∧ (n = 0x05 → reads (s.podid.setWidth 64)) ∧
    (n = 0x08 → reads (BitVec.ofNat 64 s.cycle)) ∧
    (∀ l, Tab.find s.thyme.launches x.bind.lkey = some l →
      (n = 0x09 → reads (BitVec.ofNat 64 l.frame)) ∧
      (n = 0x22 → reads (BitVec.ofNat 64 (l.sticks % 2 ^ 32 + min l.sevents 65535 * 2 ^ 32)))) ∧
    (n = 0x10 → ∃ v, reads v ∧ let r : Sage := Tab.get {} s.sage s.cur
      v.toNat % 8 = r.st % 8 ∧ v.toNat / 8 % 2 = (if r.eccs then 1 else 0) ∧ v.toNat / 16 % 2 = (if s.core.slow then 1 else 0) ∧
      v.toNat / 32 % 8 = r.cause % 8 ∧ v.toNat / 2 ^ 16 % 2 ^ 16 = r.margin % 65536) ∧
    (n = 0x18 → ∃ v, reads v ∧ v.extractLsb' 0 5 = x.cause.cause ∧ v.extractLsb' 5 4 = x.cause.slot ∧ v.getLsbD 9 = x.cause.esc ∧
      v.getLsbD 10 = x.cause.res ∧ v.extractLsb' 16 10 = x.cause.detail ∧ v.extractLsb' 32 16 = x.cause.rollbk) ∧
    (n = 0x19 → reads x.addr) ∧ (n = 0x1A → reads (BitVec.ofNat 64 capBase)) ∧ (n = 0x21 → reads (BitVec.ofNat 64 x.bind.stopmax)) ∧
    (n = 0x23 → reads (BitVec.ofNat 64 x.nctx)) ∧
    (n = 0x20 → (s.inService = true ∨ x.bind.tkadm = true → reads (x.hdbg.setWidth 64) ∧
        exec (.syswr w) s = .next (s.modBun (fun b => { b with acts := b.acts ++ [.hdbg ((s.sreg w.a).setWidth 2)] }))) ∧
      (s.inService = false → x.bind.tkadm = false → TrapsAt (.sysrd w) .priv s ∧ TrapsAt (.syswr w) .priv s)) ∧
    (0x40 ≤ n → s.inService = false → TrapsAt (.sysrd w) .priv s ∧ TrapsAt (.syswr w) .priv s) ∧
    (n = 0x18 ∨ n = 0x19 → s.inService = false → TrapsAt (.syswr w) .illegal s) ∧
    (s.inService = true →
      (∀ r < 32, n = 0x40 + r → reads (x.regs.sreg r) ∧ exec (.syswr w) s = .next (s.modData (fun x => x.write (.s r (s.sreg w.a))))) ∧
      (n = 0x60 → (∃ v, reads v ∧ ∀ i < 8, v.getLsbD i = x.regs.preg i) ∧
        ∃ t, exec (.syswr w) s = .next t ∧ ∀ i < 8, t.data.regs.preg i = (decide (i = 0) || (s.sreg w.a).getLsbD i)) ∧
      (n = 0x61 → reads (match s.core.replay with | some r => r.addr | none => x.pc)) ∧
      (n = 0x62 → reads (BitVec.ofNat 64 (match s.core.replay with | some r => r.done | none => 0))) ∧
      (n = 0x63 → reads (BitVec.ofNat 64 x.shadows)) ∧
      (n = 0x19 → exec (.syswr w) s = .next (s.modData (fun x => { x with addr := s.sreg w.a }))) ∧
      (n = 0x18 → ∃ t, exec (.syswr w) s = .next t ∧ t.mem = s.mem ∧ t.data.cause.cause = (s.sreg w.a).extractLsb' 0 5 ∧
        t.data.cause.slot = (s.sreg w.a).extractLsb' 5 4 ∧ t.data.cause.esc = (s.sreg w.a).getLsbD 9 ∧
        t.data.cause.res = (s.sreg w.a).getLsbD 10 ∧ t.data.cause.detail = (s.sreg w.a).extractLsb' 16 10 ∧
        t.data.cause.rollbk = x.cause.rollbk ∧ { t.data with cause := x.cause } = x))

/-! ## Memory -/

/-- The checks at issue of one access, its translated part within one page. -/
def Obligations.AccessChecks : Prop :=
  ∀ (k : RKind) (a n align : Nat) (s : State),
    let wr := k == .store || k == .atom
    let asn := s.data.bind.asn
    (a % align ≠ 0 → checkAccess k a n align s = .error (.trap .align 0)) ∧
    (a % align = 0 →
      (a < 0x200000 → a + n ≤ s.data.bind.spanBytes → a + n ≤ 0x180000 → checkAccess k a n align s = .ok s) ∧
      (a < 0x200000 → (s.data.bind.spanBytes < a + n ∨ 0x180000 < a + n) → checkAccess k a n align s = .error (.trap .xlate 0)) ∧
      (0x200000 ≤ a → 2 ^ 48 < a + n → checkAccess k a n align s = .error (.trap .xlate 0)) ∧
      (0x200000 ≤ a → a + n ≤ 2 ^ 48 → 0 < n →
        (s.core.tlbFind asn a = none → s.core.walkFailed asn a = false → checkAccess k a n align s = .ok (s.hold (.walk a))) ∧
        (s.core.tlbFind asn a = none → s.core.walkFailed asn a = true → checkAccess k a n align s = .error (.trap .xlate 0)) ∧
        (∀ e, s.core.tlbFind asn a = some e →
          let p : Piece := ⟨s.key (e.pa + (a - e.va)), n, e.w, e.nc, false, a⟩
          (wr = true → e.w = false → checkAccess k a n align s = .error (.trap .xlate 0)) ∧
          (s.reaches s.cur (e.pa + (a - e.va)) = false → checkAccess k a n align s = .error (.trap .xlate 0)) ∧
          (a % 4096 + n ≤ 4096 → (wr = false ∨ e.w = true) → s.reaches s.cur (e.pa + (a - e.va)) = true → s.tokenPending [p] = false →
            (e.w = false → checkAccess k a n align s = .ok s) ∧
            (e.w = true → s.own.regionAt p.pa = none → checkAccess k a n align s = .error (.trap .ownNone 0)) ∧
            (∀ r c, e.w = true → (s.lendOnDemand [p]).own.regionAt p.pa = some r →
              (s.lendOnDemand [p]).rightsOn k s.data.bind.party p.pa r = c →
              checkAccess k a n align s = (match c with | some x => .error (.trap x 0) | none => .ok (s.lendOnDemand [p])))))))

def Obligations.RegionRights : Prop :=
  ∀ (s : State) (k : RKind) (p : Word) (pa : Nat) (r : Region), pa < 0x10000000000000 →
    let mine := r.owner = p
    let shares := (r.base, p) ∈ s.own.shares
    (r.st = .poison → s.rightsOn k p pa r = some .poison) ∧
    (r.st = .orphan → s.rightsOn k p pa r = some .ownNone) ∧
    (r.st = .held → r.atomic = false → r.shares = 0 → (mine → s.rightsOn k p pa r = none) ∧ (¬ mine → s.rightsOn k p pa r = some .ownNone)) ∧
    (r.st = .held → r.atomic = false → r.shares ≠ 0 →
      (mine ∨ shares → s.rightsOn k p pa r = (if k = .store ∨ k = .atom then some .ownShared else none)) ∧
      (¬ mine → ¬ shares → s.rightsOn k p pa r = some .ownNone)) ∧
    (r.st = .held → r.atomic = true →
      (partyPkg p ≠ s.pkgid → s.rightsOn k p pa r = some .ownNone) ∧
      (partyPkg p = s.pkgid → s.rightsOn k p pa r = (if k = .load ∨ k = .store then some .ownMode else none)))

/-- LD into one or two scalar registers, into a queue, into a stream's queue, and LDV; `u` is the state after the checks. -/
def Obligations.Loads : Prop :=
  ∀ (m : MForm) (s t : State) (ps : List Piece), s.guard m.g = true → m.base.toNat ∉ s.me.badS → m.idx.toNat ∉ s.me.badS →
    let kind : RKind := if 3 ≤ m.sc.toNat then .bypass else .load
    let d := m.data.toNat % 32
    let n := sizeBytes m.sz.toNat
    (s.bun.holds = [] → HasRoom t →
      (m.data.toNat < 64 → m.sz ≠ 7 → MayAccess kind (s.ea m) n n s ps t → t.me.land.length + 1 ≤ 32 →
        exec (.ld m) s = .next ((t.awaitLanding m.at16 [.s d 0]).send (LoadOf m (t.piecesOf kind (s.ea m) n) (.scalar d m.sz.toNat) t))) ∧
      (m.data.toNat < 64 → m.sz = 7 → MayAccess kind (s.ea m) 16 16 s ps t → t.me.land.length + 2 ≤ 32 →
        exec (.ld m) s = .next ((t.awaitLanding m.at16 [.s d 0, .s (d + 1) 0]).send (LoadOf m (t.piecesOf kind (s.ea m) 16) (.pair d) t))) ∧
      (MayAccess kind (s.ea m) 512 64 s ps t → t.me.land.length + 1 ≤ 32 →
        let en := s.laneSel (BitVec.ofNat 2 (m.sz.toNat % 4))
        let d := if m.data.toNat / 64 % 4 < 2 then d else m.data.toNat % 16
        exec (.ldv m) s = .next ((t.awaitLanding m.at16 [.l d en 0]).send (LoadOf m (t.piecesOf kind (s.ea m) 512) (.lanes d en) t)))) ∧
    (∀ q a, s.bun.holds = [] → HasRoom t → MayAppend q 0 s →
      let n := (s.queue q).slotBytes
      let into := fun tag : Byte => ∃ u, BundleOnly t u ∧ u.bun.holds = [] ∧ u.bun.pops = s.bun.pops ∧
        exec (.ld m) s = .next (u.send (LoadOf m (t.piecesOf kind a n) (u.slotDst q tag) t))
      MayAccess kind a n 64 s ps t →
      (m.data.toNat / 64 = 2 → q = m.data.toNat % 16 → a = s.ea m → into (tagByte (queueFmt m.sz.toNat) 0)) ∧
      (∀ st, m.data.toNat / 64 = 3 → s.stream (m.data.toNat % 16) = st → st.en = true → st.kind < 2 → q = st.qn → SlotAt m st n a s →
        into (tagByte st.fmt 0)))

def Obligations.Stores : Prop :=
  ∀ (m : MForm) (s t : State) (ps : List Piece), s.guard m.g = true → m.base.toNat ∉ s.me.badS → m.idx.toNat ∉ s.me.badS →
    let d := m.data.toNat % 32
    let n := sizeBytes m.sz.toNat
    let v := (s.rd.sreg d).toNat
    (s.bun.holds = [] → HasRoom t → d ∉ s.me.badS → m.data.toNat < 64 →
      (m.sz ≠ 7 → MayStore (s.ea m) n n s ps t →
        exec (.st m) s = .next (t.sendStore m.sc (Along (t.piecesOf .store (s.ea m) n) (leBytes v n)))) ∧
      (m.sz = 7 → d + 1 ∉ s.me.badS → MayStore (s.ea m) 16 16 s ps t →
        exec (.st m) s = .next (t.sendStore m.sc
          (Along (t.piecesOf .store (s.ea m) 16) (leBytes v 8 ++ leBytes (s.rd.sreg (d + 1)).toNat 8))))) ∧
    (s.bun.holds = [] → HasRoom t → m.data.toNat / 64 < 2 → d ∉ t.me.badL → MayStore (s.ea m) 512 64 s ps t →
      let en := s.laneSel (BitVec.ofNat 2 (m.sz.toNat % 4))
      let ps' := t.piecesOf .store (s.ea m) 512
      exec (.stv m) s = .next (t.sendStore m.sc (((List.range 128).filter (fun j => en.getLsbD j)).flatMap (fun j =>
        (pieceAt ps' (4 * j)).map (fun p => (p, paAt ps' (4 * j), leBytes ((s.rd.lreg d).toNat / 2 ^ (32 * j) % 2 ^ 32) 4)))))) ∧
    (∀ q a, s.bun.holds = [] → HasRoom t → SlotPresent q 0 s → s.badRange (s.slotPA q 0) (s.queue q).slotBytes = false →
      let n := (s.queue q).slotBytes
      let from_ := fun pops : List (Nat × Nat) => ∃ u, BundleOnly t u ∧ u.bun.holds = [] ∧ u.bun.apps = s.bun.apps ∧ u.bun.pops = s.bun.pops ++ pops ∧
        exec (.st m) s = .next (u.sendStore m.sc (Along (t.piecesOf .store a n) (s.slotBytes q 0)))
      MayStore a n 64 s ps t →
      (m.data.toNat / 64 = 2 → q = m.data.toNat % 16 → a = s.ea m → from_ (if m.data.toNat / 16 % 2 = 1 then [(q, 1)] else [])) ∧
      (∀ st, m.data.toNat / 64 = 3 → s.stream (m.data.toNat % 16) = st → st.en = true → st.kind < 2 → q = st.qn → SlotAt m st n a s → from_ [])) ∧
    ∀ (ws : List PWrite) (v : State),
      (∃ rs : List (List PWrite), rs.flatten = ws ∧ v.sendStore m.sc ws = rs.foldl (fun y r => y.sendRun m.sc r) v ∧
        ∀ r ∈ rs, r ≠ [] ∧ ∀ x ∈ r, ∀ y ∈ r, v.route m.sc x.1 = v.route m.sc y.1) ∧
      v.sendRun m.sc ws = (v.send (StoreOf m.sc ws v)).reporting (v.toReport (ws.map (fun w => w.1))) ∧
      (v.sendRun m.sc ws).mem = v.mem ∧ ∀ c k, (v.sendRun m.sc ws).ctxAt c k = v.ctxAt c k

def Obligations.Atomics : Prop :=
  ∀ (m : MForm) (s t : State) (ps : List Piece), s.guard m.g = true → m.data.toNat < 64 →
    let cls := m.sz.toNat
    let n := atomBytes cls
    let a := s.eaNoIdx m
    let d := m.data.toNat % 32
    let regs := m.base.toNat :: (if cls = 7 then [m.idx.toNat, m.idx.toNat + 1] else [m.idx.toNat])
    (s.bun.holds = [] → (∀ r ∈ regs, r ∉ s.me.badS) → MayUpdate a n n s ps t → HasRoom t → t.me.land.length + (if cls = 7 then 2 else 1) ≤ 32 →
      Updates (.aadd m) .add m s t ∧ Updates (.amin m) .min m s t ∧ Updates (.amax m) .max m s t ∧ Updates (.aand m) .band m s t ∧
      Updates (.aor m) .bor m s t ∧ Updates (.axor m) .bxor m s t ∧ Updates (.aswp m) .swap m s t ∧ Updates (.afadd m) .fadd m s t ∧
      ((∀ r ∈ (if cls = 7 then [d, d + 1] else [d]), r ∉ s.me.badS) → Updates (.acas m) .cas m s t)) ∧
    (s.data.bind.phaseBound = true → TrapsAt (.aadd m) .illegal s ∧ TrapsAt (.acas m) .illegal s ∧ TrapsAt (.redadd m) .illegal s) ∧
    (s.data.bind.phaseBound = false → a % n ≠ 0 → TrapsAt (.aadd m) .align s ∧ TrapsAt (.acas m) .align s ∧ TrapsAt (.redadd m) .align s) ∧
    (s.data.bind.phaseBound = false → a % n = 0 → a < 0x200000 →
      TrapsAt (.aadd m) .xlate s ∧ TrapsAt (.acas m) .xlate s ∧ TrapsAt (.redadd m) .xlate s)

def Obligations.Reductions : Prop :=
  ∀ (m : MForm) (s t : State) (ps : List Piece), s.guard m.g = true → m.base.toNat ∉ s.me.badS →
    let a := s.eaNoIdx m
    let d := m.data.toNat % 32
    let all := fun (n : Nat) (es : List (Nat × Nat)) => Reduces (.redadd m) .add m n es s t ∧ Reduces (.redmin m) .min m n es s t ∧
      Reduces (.redmax m) .max m n es s t ∧ Reduces (.redfadd m) .fadd m n es s t
    (m.data.toNat < 64 → s.bun.holds = [] → d ∉ s.me.badS → HasRoom t → MayUpdate a (atomBytes m.sz.toNat) (atomBytes m.sz.toNat) s ps t →
      all (atomBytes m.sz.toNat) [(0, (s.rd.sreg d).toNat)]) ∧
    (m.data.toNat / 64 = 1 → s.bun.holds = [] → d ∉ s.me.badL → HasRoom t → MayUpdate a 512 64 s ps t →
      all 512 (((List.range 128).filter (fun j => (s.laneSel (BitVec.ofNat 2 (m.at16.toNat % 4))).getLsbD j)).map
        (fun j => (4 * j, (s.rd.lreg d).toNat / 2 ^ (32 * j) % 2 ^ 32)))) ∧
    (∀ q, m.data.toNat / 64 = 2 → q = m.data.toNat % 16 → s.bun.holds = [] → SlotPresent q 0 s → HasRoom t →
      s.badRange (s.slotPA q 0) (s.queue q).slotBytes = false → MayUpdate a (s.queue q).slotBytes 64 s ps t →
      ∃ u, BundleOnly t u ∧ u.bun.pops = s.bun.pops ++ (if m.data.toNat / 16 % 2 = 1 then [(q, 1)] else []) ∧
        let es := (List.range ((s.slotBytes q 0).length / 4)).map (fun j => (4 * j, leNat (((s.slotBytes q 0).drop (4 * j)).take 4)))
        let n := (s.queue q).slotBytes
        Reduces (.redadd m) .add m n es s u ∧ Reduces (.redmin m) .min m n es s u ∧ Reduces (.redmax m) .max m n es s u ∧
          Reduces (.redfadd m) .fadd m n es s u)

/-- The place of lane `j`'s word is `j` × 2,048 + the task's base in each slice + its offset. -/
def Obligations.LanePrivate : Prop :=
  ∀ (m : MForm) (s : State), s.guard m.g = true →
    let en := s.laneSel (BitVec.ofNat 2 (m.sz.toNat / 2))
    let off := fun j => laneOff m s j
    let at' := fun j => j * 2048 + s.data.bind.privBase + off j
    let d := if m.data.toNat / 64 % 4 < 2 then m.data.toNat % 32 else m.data.toNat % 16
    let fits := ∀ j < 128, en.getLsbD j = true → off j % 4 = 0 ∧ off j < s.data.bind.privBytes
    ((∃ j < 128, en.getLsbD j = true ∧ off j % 4 ≠ 0) → TrapsAt (.ldl m) .align s ∧ TrapsAt (.stl m) .align s) ∧
    ((∀ j < 128, en.getLsbD j = true → off j % 4 = 0) → (∃ j < 128, en.getLsbD j = true ∧ s.data.bind.privBytes ≤ off j) →
      TrapsAt (.ldl m) .xlate s ∧ TrapsAt (.stl m) .xlate s) ∧
    (fits → s.bun.holds = [] → AddrSound s → m.base.toNat ∉ s.me.badS → (laneIdx m = false → m.idx.toNat ∉ s.me.badS) →
      (∃ v, Writes (.ldl m) (.l d en v) 3 s ∧
        ∀ j < 128, en.getLsbD j = true → v.toNat / 2 ^ (32 * j) % 2 ^ 32 = leNat (s.core.lanes.readBytes (at' j) 4)) ∧
      (s.core.lanes.wf = true → s.data.bind.privBase + s.data.bind.privBytes ≤ 2048 → s.data.bind.privBytes % 4 = 0 →
        ∃ t, exec (.stl m) s = .next t ∧ t = s.modMyCore (fun c => { c with lanes := t.core.lanes }) ∧
          (∀ j < 128, en.getLsbD j = true → leNat (t.core.lanes.readBytes (at' j) 4) = (s.rd.lreg d).toNat / 2 ^ (32 * j) % 2 ^ 32) ∧
          ∀ b, (∀ j < 128, en.getLsbD j = true → b < at' j ∨ at' j + 4 ≤ b) → t.core.lanes.read b = s.core.lanes.read b))

/-- The last clause has its conditions on the state alone, where no row lends anything on demand; in the others `u` is the state after the
queue checks, `t` after all checks. -/
def Obligations.GatherScatter : Prop :=
  ∀ (m : MForm) (s : State), s.guard m.g = true →
    let kind : RKind := if 3 ≤ m.sc.toNat then .bypass else .load
    let sd := if m.data.toNat / 64 % 4 < 2 then m.data.toNat % 32 else m.data.toNat % 16
    let st := s.stream sd
    let w := if st.iw then 4 else 2
    let len := st.rows * st.rowBytes
    let sound := fun u t : State => u.bun.holds = [] ∧ t.bun.holds = [] ∧ t.stream sd = st ∧ HasRoom t ∧ m.base.toNat ∉ t.me.badS ∧
      m.idx.toNat ∉ t.me.badS ∧ t.badRange (t.slotPA st.iq 0) (t.queue st.iq).slotBytes = false ∧ u.hasSlot st.iq = true
    st.en = true → st.kind = 2 → st.rows * w ≤ (s.queue st.iq).slotBytes → st.rowBytes % 64 = 0 →
    (∀ u t v, sound u t → (if m.sz.getLsbD 2 then popSlots st.iq 1 s else needSlot st.iq 0 s) = .ok v → checkRows kind m st (u.rowIdx st) u = .ok t →
      let ps := (t.rowIdx st).flatMap (fun i => t.piecesOf kind (rowAddr m st t i) st.rowBytes)
      (m.sz.toNat % 4 = 0 → len = (v.queue st.qn).slotBytes → appendSlot st.qn v = .ok u →
        exec (.ldg m) s = .next (t.send (LoadOf m ps (t.slotDst st.qn (tagByte st.fmt 0)) t))) ∧
      (∀ i, m.sz.toNat % 4 = i + 1 → len ≤ 16384 → (v.core.latch i).readers = 0 → u = v →
        let t' := t.modMyCore (fun c => c.setLatch i { c.latch i with ready := false, filled := some (c.dataIdx, sd) })
        exec (.ldg m) s = .next (t'.send (LoadOf m ps (.latch i) t')))) ∧
    (∀ u t v, sound u t → (if m.sz.getLsbD 0 then popSlots st.qn 1 s else needSlot st.qn 0 s) = .ok v →
      (if m.sz.getLsbD 1 then popSlots st.iq 1 v else needSlot st.iq 0 v) = .ok u → len = (u.queue st.qn).slotBytes →
      checkRows .store m st (u.rowIdx st) u = .ok t → t.badRange (t.slotPA st.qn 0) (t.queue st.qn).slotBytes = false →
      let ps := (t.rowIdx st).flatMap (fun i => t.piecesOf .store (rowAddr m st t i) st.rowBytes)
      exec (.sts m) s = .next (t.sendStore m.sc (Along ps (t.slotBytes st.qn 0)))) ∧
    (s.bun.holds = [] → HasRoom s → m.base.toNat ∉ s.me.badS → m.idx.toNat ∉ s.me.badS → SlotPresent st.iq 0 s →
      s.badRange (s.slotPA st.iq 0) (s.queue st.iq).slotBytes = false →
      let len := st.rows * st.rowBytes
      ((∀ i ∈ s.rowIdx st, ∃ ps, MayAccess kind (rowAddr m st s i) st.rowBytes 64 s ps s) →
        let ps := (s.rowIdx st).flatMap (fun i => s.piecesOf kind (rowAddr m st s i) st.rowBytes)
        let pop := m.sz.getLsbD 2
        let after := fun u : State => BundleOnly s u ∧ u.bun.holds = [] ∧ u.bun.pops = s.bun.pops ++ (if pop then [(st.iq, 1)] else [])
        (m.sz.toNat % 4 = 0 → len = (s.queue st.qn).slotBytes → MayAppend st.qn (if pop = true ∧ st.qn = st.iq then 1 else 0) s →
          ∃ u, after u ∧ exec (.ldg m) s = .next (u.send (LoadOf m ps (u.slotDst st.qn (tagByte st.fmt 0)) s))) ∧
        (∀ i, m.sz.toNat % 4 = i + 1 → len ≤ 16384 → (s.core.latch i).readers = 0 → ∃ u, after u ∧
          exec (.ldg m) s = .next ((u.modMyCore (fun c => c.setLatch i
            { c.latch i with ready := false, filled := some (c.dataIdx, sd) })).send (LoadOf m ps (.latch i) s)))) ∧
      ((∀ i ∈ s.rowIdx st, ∃ ps, MayStore (rowAddr m st s i) st.rowBytes 64 s ps s) → len = (s.queue st.qn).slotBytes → SlotPresent st.qn 0 s →
        s.badRange (s.slotPA st.qn 0) (s.queue st.qn).slotBytes = false →
        let ps := (s.rowIdx st).flatMap (fun i => s.piecesOf .store (rowAddr m st s i) st.rowBytes)
        ∃ u, BundleOnly s u ∧ u.bun.holds = [] ∧ exec (.sts m) s = .next (u.sendStore m.sc (Along ps (s.slotBytes st.qn 0)))))

def Obligations.CacheMaintenance : Prop :=
  ∀ (m : MForm) (s : State), s.guard m.g = true →
    let a := s.ea m
    let d := if m.data.toNat / 64 % 4 < 2 then m.data.toNat % 32 else m.data.toNat % 16
    let n := min (max (s.rd.sreg d).toNat 1) (2 ^ 30)
    let lines := (List.range (4 ^ (m.sz.toNat % 4))).map (fun i => a / 128 * 128 + 128 * i)
    let pred := BitVec.ofNat 5 (m.data.toNat / 8)
    let succ := BitVec.ofNat 5 (m.data.toNat % 8 * 4 + m.base.toNat / 8)
    (∀ va pre b post, lines = pre ++ b :: post → (∀ x ∈ pre, ∀ y, s.resolve false x 1 ≠ .miss y) → s.resolve false b 1 = .miss va →
      s.bun.holds = [] → exec (.pref m) s = .next (s.hold (.walk va))) ∧
    ((∀ x ∈ lines, ∀ y, s.resolve false x 1 ≠ .miss y) → Issues m.g [m.base.toNat, m.idx.toNat] s → AddrSound s →
      ∃ t, exec (.pref m) s = .next t ∧ t.me.regs = s.me.regs ∧ t.flight = s.flight ∧
        (m.sz.toNat = 0 → s.outstanding s.cur < 1024 → s.core.l1.length < 512 →
          ∀ p, s.resolve false (a / 128 * 128) 1 = .pieces [p] → s.pieceCause .load [p] = none → s.caches 1 p = true →
            Tab.find s.core.l1 (p.pa / 128) = none → (s.takePort s.cur (s.shareClass s.cur s.core.issuing) 128).isSome = true →
            Tab.find t.core.l1 (p.pa / 128) = some { asn := s.data.bind.asn, va := a / 128 * 128, data := s.mem.readBytes (p.pa / 128 * 128) 128, dirty := 0 } ∧
              t.mem = s.mem)) ∧
    (Issues m.g [d, m.base.toNat, m.idx.toNat] s → AddrSound s →
      exec (.flush m) s = .next (s.send (.flush s.data.bind.asn a n false false)) ∧
      exec (.flushInv m) s = .next (s.send (.flush s.data.bind.asn a n false true))) ∧
    exec (.flushAll m) s = .next (s.send (.flush s.data.bind.asn 0 0 true true)) ∧
    (pred ≠ 0 → succ ≠ 0 → succ.getLsbD 4 = false → exec (.fence m) s = .next (s.send (.fence pred succ m.sc.toNat false))) ∧
    (pred ≠ 0 → succ ≠ 0 → succ.getLsbD 4 = true → exec (.fence m) s =
      .next ((s.send (.fence pred succ m.sc.toNat false)).modData (fun x => { x with q := x.q.map (fun e => (e.1, e.2.cutHead)) }))) ∧
    (pred = 0 ∨ succ = 0 → exec (.fence m) s = .next s)

def Obligations.LineLocks : Prop :=
  ∀ (m : MForm) (s t : State) (ps : List Piece), s.guard m.g = true →
    let d := if m.data.toNat / 64 % 4 < 2 then m.data.toNat % 32 else m.data.toNat % 16
    let qs := t.piecesOf .load (s.ea m) 1
    let req := fun unlock : Bool => (t.awaitLanding m.at16 [.s d 0]).send (.access
      { cls := .ld, scope := 1, dst := .word d 0, lock := some (unlock, paAt qs 0 / 128, qs.all (t.caches 1)) })
    (s.data.bind.phaseBound = true → TrapsAt (.lock m) .illegal s ∧ TrapsAt (.unlock m) .illegal s) ∧
    (s.data.bind.phaseBound = false → s.bun.holds = [] → m.base.toNat ∉ s.me.badS → m.idx.toNat ∉ s.me.badS → MayAccess .load (s.ea m) 1 1 s ps t →
      HasRoom t → t.me.land.length + 1 ≤ 32 → exec (.lock m) s = .next (req false) ∧ exec (.unlock m) s = .next (req true))

/-! ## Events of the memory system -/

/-- HOME_ACCESS, form by form: an access outside L1, one in L1, a lock, a fence, a flush (R142). -/
def Obligations.HomeAccess : Prop :=
  ∀ (n : Nat) (f : Flight) (a : Acc) (s : State),
    (Ready n f a s → a.atom = none → a.lock = none → a.cached = [] →
      ∃ t b, exec (.homeAccess n) s = .next t ∧ SameContexts s t ∧ Becomes n f b s t ∧ b.performed = true ∧ b.dst = a.dst ∧
        b.fault = (if a.reads.any (fun r => s.badRange r.1 r.2) then some .eccUe else none) ∧
        t.mem = storeAll s.mem a.writes ∧
        (∀ x, (∀ w ∈ a.writes, ¬ Covers w x) → t.mem.read x = s.mem.read x) ∧
        ∀ pa len, a.reads = [(pa, len)] → pa / 4096 ≠ capBase / 4096 → Binds n f s pa len s.mem.read b.data) ∧
    (Ready n f a s → a.atom = none → a.lock = none → a.cached ≠ [] → (∀ r ∈ a.touched, (a.cachedAt r.1).isSome = true) →
      (∀ l ∈ linesOf a.touched, ∃ y, Tab.find (s.coreAt f.core).l1 l = some y ∧ y.data.length = 128) →
      ∃ t, exec (.homeAccess n) s = .next t ∧ SameContexts s t ∧ t.mem = s.mem ∧
        (a.cls = .ld → ∃ b, Becomes n f b s t ∧ b.performed = true ∧
          ∀ pa len, a.reads = [(pa, len)] → Binds n f s pa len (s.l1Byte f.core) b.data) ∧
        (a.cls = .st → t.flight = s.flight.drop n) ∧
        ∀ pa bs, a.reads = [] → a.writes = [(pa, bs)] → ∀ x l, Tab.find (s.coreAt f.core).l1 (x / 128) = some l →
          t.l1Byte f.core x = if pa ≤ x ∧ x < pa + bs.length then bs.getD (x - pa) 0 else s.l1Byte f.core x) ∧
    (Ready n f a s → a.atom = none → a.lock = none → a.cls = .ld → a.writes = [] →
      a.reads ≠ [] → (∀ r ∈ a.touched, (a.cachedAt r.1).isSome = true) →
      ∀ l, linesOf a.touched = [l] → Tab.find (s.coreAt f.core).l1 l = none → (s.coreAt f.core).l1.length < 512 →
        ∃ t y, exec (.homeAccess n) s = .next t ∧ SameContexts s t ∧ t.mem = s.mem ∧
          Tab.find (t.coreAt f.core).l1 l = some y ∧ y.data = s.mem.readBytes (l * 128) 128 ∧ y.dirty = 0) ∧
    (∀ unlock line ok, Ready n f a s → a.atom = none → a.lock = some (unlock, line, ok) →
      let x := s.ctxAt f.core f.ctx
      let same := fun l : Nat => l % 32768 = line % 32768 ∧ l / 2 ^ 30 % 4 = line / 2 ^ 30 % 4
      let st := if ok = false then 5
        else if unlock = true then (if line ∈ x.locks then 0 else 4)
        else if line ∈ x.locks then 3
        else if x.bind.lockq ≤ x.locks.length then 1
        else if 12 ≤ s.l2locks.countP (fun l => same l) then 2 else 0
      ∃ t b, exec (.homeAccess n) s = .next t ∧ t.mem = s.mem ∧ t.own = s.own ∧ Becomes n f b s t ∧ b.performed = true ∧
        b.data = leBytes st 8 ∧
        (t.ctxAt f.core f.ctx).locks = (if st ≠ 0 then x.locks else if unlock then x.locks.erase line else line :: x.locks) ∧
        t.l2locks = (if st ≠ 0 then s.l2locks else if unlock then s.l2locks.erase line else line :: s.l2locks) ∧
        (t.ctxAt f.core f.ctx).regs = x.regs) ∧
    (∀ p sc scope sent, Tab.find s.flight n = some f → f.msg = .fence p sc scope sent → s.fencePredsDone n f p scope = true →
      (scope < 4 ∨ (sent = true ∧ s.markersDone n = true) → exec (.homeAccess n) s = .next { s with flight := s.flight.drop n }) ∧
      (4 ≤ scope → sent = false → ∃ t, exec (.homeAccess n) s = .next t ∧ SameContexts s t ∧ t.mem = s.mem ∧
        t.seq = s.seq + (s.markerDests n f scope).length)) ∧
    ∀ asn lo k all inv, Tab.find s.flight n = some f → f.msg = .flush asn lo k all inv → s.mayPerform n f = true →
      Tab.sorted (s.coreAt f.core).l1 = true →
      ∃ t, exec (.homeAccess n) s = .next t ∧ SameContexts s t ∧ t.mem = s.mem ∧
        ∀ j l, Tab.find (s.coreAt f.core).l1 j = some l →
          let mine := if all then l.of asn else l.usedIn asn lo k
          Tab.find (t.coreAt f.core).l1 j = (if mine = false then some l else if inv then none else some { l with dirty := 0 }) ∧
          (mine = true → l.writes (j * 128) ≠ [] → ∃ e ∈ t.flight, e.2.core = f.core ∧ e.2.ctx = f.ctx ∧
            e.2.msg = .access { cls := .st, scope := 1, writes := l.writes (j * 128) })

/-- HOME_ATOMIC for an element whose line is not in the issuer's L1 (`g` is the record of its granule once the line is at its home), and the new values of the whole-number operations. -/
def Obligations.HomeAtomic : Prop :=
  (∀ (n : Nat) (f : Flight) (a : Acc) (u : Atom) (s : State) (pa v : Nat), Ready n f a s → a.atom = some u → u.elems = [(pa, v)] →
    Tab.find (s.coreAt f.core).l1 (pa / 128) = none →
    let k := atomBytes u.cls
    let old := leNat (s.mem.readBytes pa k)
    let g := (s.useHome (a.ncAt pa) true [(pa, k)]).granule pa
    ((u.mac = false ∨ ∀ e, g.head? = some e → e.2 = k) →
      ∃ t b, exec (.homeAtomic n) s = .next t ∧ SameContexts s t ∧ Becomes n f b s t ∧ b.performed = true ∧ b.fault = none ∧
        b.data = leBytes old k ∧ (t.granule pa).head? = some (pa, k) ∧
        (∀ x, x < pa ∨ pa + k ≤ x → t.mem.read x = s.mem.read x) ∧
        (s.mem.wf = true → (∀ e ∈ g, e.2 = k ∨ e.1 + e.2 ≤ pa ∨ pa + k ≤ e.1) →
          t.mem.readBytes pa k = leBytes (atomNew u.op u.cls old v u.cmp) k)) ∧
    (∀ e, u.mac = true → g.head? = some e → e.2 ≠ k →
      ∃ t b, exec (.homeAtomic n) s = .next t ∧ SameContexts s t ∧ Becomes n f b s t ∧ b.performed = true ∧
        b.fault = some .mixedAtomic ∧ t.mem = s.mem)) ∧
  ∀ cls old v cmp : Nat,
    let w := 8 * atomBytes cls
    old < 2 ^ w → v < 2 ^ w →
    let sg := fun x : Nat => if x < 2 ^ (w - 1) then (x : Int) else (x : Int) - 2 ^ w
    atomNew .add cls old v cmp = (old + v) % 2 ^ w ∧ atomNew .band cls old v cmp = old &&& v ∧
    atomNew .bor cls old v cmp = old ||| v ∧ atomNew .bxor cls old v cmp = old ^^^ v ∧ atomNew .swap cls old v cmp = v ∧
    atomNew .cas cls old v cmp = (if old = cmp % 2 ^ w then v else old) ∧
    (cls = 0 ∨ cls = 2 → atomNew .min cls old v cmp = min old v ∧ atomNew .max cls old v cmp = max old v) ∧
    (cls = 1 ∨ cls = 3 → sg (atomNew .min cls old v cmp) = min (sg old) (sg v) ∧ sg (atomNew .max cls old v cmp) = max (sg old) (sg v))

/-- The events by which answers reach registers, slots and latches. -/
def Obligations.Landings : Prop :=
  (∀ (n : Nat) (f : Flight) (a : Acc) (s : State) (pre post : List Landing) (e : Landing) (d cls : Nat),
    Tab.find s.flight n = some f → f.msg = .access a → a.performed = true → s.dataAway a = false → s.returning a.reads = false →
    a.dst = .scalar d cls ∨ (a.dst = .old d cls ∧ cls ≠ 1) → (s.ctxAt f.core f.ctx).land = pre ++ e :: post → e.flight = n →
    (∀ l ∈ pre ++ post, l.flight ≠ n) →
    let v := if a.dst = .scalar d cls then extend cls (leNat a.data) else BitVec.ofNat 64 (leNat a.data)
    ∃ t, exec (.loadDataArrival n) s = .next t ∧ t.mem = s.mem ∧ t.flight = s.flight.drop n ∧
      t.ctxAt f.core f.ctx = { s.ctxAt f.core f.ctx with
        land := pre ++ { e with arrived := true, w := .s d v, fault := a.fault } :: post }) ∧
  (∀ (c k : Nat) (s : State) (pre post : List Landing) (e : Landing), (s.ctxAt c k).land = pre ++ e :: post →
    e.due = 0 → e.arrived = true → (∀ l ∈ pre ++ post, l.due ≠ 0) →
    (∃ d v, e.w = .s d v) ∨ (∃ d m v, e.w = .l d m v) →
    let x := s.ctxAt c k
    (e.fault = none → ∃ t, exec (.registerLanding c k) s = .next t ∧ t.mem = s.mem ∧ t.own = s.own ∧ t.flight = s.flight ∧
      (∀ c' k', (c', k') ≠ (c, k) → t.ctxAt c' k' = s.ctxAt c' k') ∧
      (∀ d v, e.w = .s d v → (∀ r, (t.ctxAt c k).regs.sreg r = if r = d ∧ d ≠ 0 then v else x.regs.sreg r) ∧
        t.ctxAt c k = { x with land := pre ++ post, regs := { x.regs with s := (t.ctxAt c k).regs.s }, badS := (t.ctxAt c k).badS }) ∧
      (∀ d m v, e.w = .l d m v → (∀ r, r ≠ d → (t.ctxAt c k).regs.lreg r = x.regs.lreg r) ∧
        (∀ j < 128, ((t.ctxAt c k).regs.lreg d).toNat / 2 ^ (32 * j) % 2 ^ 32 =
          (if m.getLsbD j then v else x.regs.lreg d).toNat / 2 ^ (32 * j) % 2 ^ 32) ∧
        t.ctxAt c k = { x with land := pre ++ post, regs := { x.regs with l := (t.ctxAt c k).regs.l }, badL := (t.ctxAt c k).badL })) ∧
    (∀ cs, e.fault = some cs → (s.coreAt c).held = none → (s.coreAt c).running = some k → x.bind.phaseBound = false →
      x.phase.rollback = none → (s.coreAt c).svcTimer = none → ∃ t, exec (.registerLanding c k) s = .next t ∧ t.mem = s.mem ∧
        (t.ctxAt c k).regs = x.regs ∧ (t.ctxAt c k).status = .held ∧ (t.ctxAt c k).cause.cause.toNat = cs.code % 32 ∧
        (t.ctxAt c k).addr = e.addr ∧ (t.ctxAt c k).land = pre ++ post)) ∧
  (∀ (c k : Nat) (s : State), (s.coreAt c).held = none → k < 5 → (∀ j < 5, j ≠ k → ∀ p ∈ (s.ctxAt c j).pend, p.due ≠ 0) →
    let x := s.ctxAt c k
    x.late = false → (∀ p ∈ x.pend, p.flaw = 0) →
    (∀ p d v, x.pend = [p] → p.due = 0 → p.w = .s d v → ∃ t, exec (.exposedWriteLanding c) s = .next t ∧ t.mem = s.mem ∧
      (∀ r, (t.ctxAt c k).regs.sreg r = if r = d ∧ d ≠ 0 then v else x.regs.sreg r) ∧
      t.ctxAt c k = { x with pend := [], regs := { x.regs with s := (t.ctxAt c k).regs.s }, badS := (t.ctxAt c k).badS }) ∧
    (∀ p d v, x.pend = [p] → p.due = 0 → p.w = .p d v → d < 8 → ∃ t, exec (.exposedWriteLanding c) s = .next t ∧ t.mem = s.mem ∧
      (∀ r < 8, (t.ctxAt c k).regs.preg r = if r = d ∧ d ≠ 0 then v else x.regs.preg r)) ∧
    (∀ p q d v w, x.pend = [p, q] → p.due = 0 → q.due = 0 → q.slot < p.slot → p.w = .s d v → q.w = .s d w → d ≠ 0 →
      ∃ t, exec (.exposedWriteLanding c) s = .next t ∧ (t.ctxAt c k).regs.sreg d = v) ∧
    (∀ p, x.pend = [p] → p.due ≠ 0 → ∃ t, exec (.exposedWriteLanding c) s = .next t ∧ t.mem = s.mem ∧
      ∀ c' k', t.ctxAt c' k' = s.ctxAt c' k')) ∧
  (∀ (n : Nat) (f : Flight) (a : Acc) (s : State), Tab.find s.flight n = some f → f.msg = .access a → a.performed = true →
    (∀ q idx tag, a.dst = .slot q idx tag none → f.ctx < 4 → s.dataAway a = false → a.fault = none →
      let x := s.ctxAt f.core f.ctx
      let pa := spanPA f.core x ((x.queue q).slotOff idx)
      ∃ t, exec (.slotLanding n) s = .next t ∧ t.flight = s.flight.drop n ∧ t.mem = s.mem.writeBytes pa a.data ∧
        (∀ b, b < pa ∨ pa + a.data.length ≤ b → t.mem.read b = s.mem.read b) ∧
        (∀ r, (t.ctxAt f.core f.ctx).queue r =
          if r = q then { x.queue q with pmap := (x.queue q).pmap ||| (1#256 <<< idx) } else x.queue r) ∧
        (∀ b ≤ (x.queue q).ssz, Tab.get 0 t.tags (pa / 512 + b) = tag) ∧ (t.ctxAt f.core f.ctx).regs = x.regs) ∧
    (∀ i, a.dst = .latch i → s.dataAway a = false → ∃ t, exec (.latchReady n) s = .next t ∧ t.flight = s.flight.drop n ∧ t.mem = s.mem ∧
      ((t.coreAt f.core).latch i).ready = true ∧ ((t.coreAt f.core).latch i).data.take a.data.length = a.data ∧
      ∀ c k, t.ctxAt c k = s.ctxAt c k) ∧
    (a.cls = .st → s.atBank a.nc = false → exec (.writeAcknowledgement n) s = .next { s with flight := s.flight.drop n }))

/-- The events of translation, of the prefetch engine, of the L1 write-back, of the first-write report and of the flush. -/
def Obligations.Background : Prop :=
  (∀ (c i : Nat) (s : State) (w : Walk), (s.coreAt c).walks[i]? = some w → w.failed = false → w.group = false →
    w.busy = true ∨ s.walkers (c / 96) < 512 → w.asked = true → s.inReach (c / 96) w.table = true →
    s.atBank [(w.table + 8 * (w.va / 2 ^ (39 - 9 * w.level) % 512), 8)] = false →
    let idx := w.va / 2 ^ (39 - 9 * w.level) % 512
    let e := leNat (s.mem.readBytes (w.table + 8 * idx) 8)
    let out := e / 4096 % 2 ^ 40 * 4096
    let w' := { w with busy := true, asked := false }
    ∃ t, exec (.tableWalkRead c i) s = .next t ∧ SameContexts s t ∧ t.mem = s.mem ∧
      (e % 2 = 0 → w.level ≠ 3 ∨ e / 16 % 2 = 0 → (t.coreAt c).walks = (s.coreAt c).walks.set i { w' with failed := true } ∧ (t.coreAt c).tlb = (s.coreAt c).tlb) ∧
      (e % 64 = 1 → e / 64 % 64 = 0 → e / 2 ^ 52 % 2 ^ 12 = 0 → w.level < 3 → s.targetOf (s.key out) = .hbm (out / 2 ^ 37 % 4) →
        (t.coreAt c).walks = (s.coreAt c).walks.set i { w' with level := w.level + 1, table := s.key out }) ∧
      (e / 16 % 2 = 1 → w.level = 3 → (t.coreAt c).walks = (s.coreAt c).walks.set i { w' with group := true }) ∧
      (e % 4 = 3 → e / 16 % 2 = 0 → e / 64 % 64 = 0 → e / 2 ^ 52 % 2 ^ 12 = 0 → w.level = 3 →
        s.leafOk c out 4096 (e.testBit 2) = true →
        (t.coreAt c).walks = (s.coreAt c).walks.eraseIdx i ∧
        ((s.coreAt c).tlb.length < 256 → (t.coreAt c).tlb =
          ⟨w.asn, w.va / 4096 * 4096, 4096, out, e.testBit 2, e.testBit 3, e.testBit 5⟩ :: (s.coreAt c).tlb)) ∧
      (e % 4 = 3 → e / 16 % 2 = 0 → e / 64 % 64 = 0 → e / 2 ^ 52 % 2 ^ 12 = 0 → w.level = 2 → out % 2 ^ 21 = 0 →
        s.leafOk c out (2 ^ 21) (e.testBit 2) = true →
        (s.coreAt c).tlb.length < 256 → (t.coreAt c).tlb =
          ⟨w.asn, w.va / 2 ^ 21 * 2 ^ 21, 2 ^ 21, out, e.testBit 2, e.testBit 3, e.testBit 5⟩ :: (s.coreAt c).tlb)) ∧
  (∀ (c k seg : Nat) (s : State), (s.ctxAt c k).wanted = some seg → s.led (s.ctxAt c k) = false →
    (∀ hd bs, s.fetch c k 3 (seg * 64) 16 [] = .bytes hd → s.fetch c k 20 (seg * 64) (segHeader hd).slen [] = .bytes bs →
      let g := expandSegment seg bs
      ∃ t, exec (.segmentExpansion c k seg) s = .next t ∧ t.mem = s.mem ∧ t.own = s.own ∧
        (g.bad = none → (t.ctxAt c k).buf.head? = some { g with left := g.bundles.length + 5 }) ∧
        (g.bad = some .sig → (s.ctxAt c k).doubt ≠ some seg → (t.ctxAt c k).buf = (s.ctxAt c k).buf ∧ (t.ctxAt c k).doubt = some seg) ∧
        (g.bad ≠ none → g.bad ≠ some .sig ∨ (s.ctxAt c k).doubt = some seg → (t.ctxAt c k).buf.head? = some { g with left := 0 }) ∧ (t.ctxAt c k).regs = (s.ctxAt c k).regs ∧
        (t.ctxAt c k).pc = (s.ctxAt c k).pc) ∧
    (∀ e, s.fetch c k 3 (seg * 64) 16 [] = .fault e → ∃ t g, exec (.segmentExpansion c k seg) s = .next t ∧
      (t.ctxAt c k).buf.head? = some g ∧ g.addr = seg ∧ g.bad = some e ∧ g.bundles = []) ∧
    (∀ va, s.fetch c k 3 (seg * 64) 16 [] = .miss va → ∃ t, exec (.segmentExpansion c k seg) s = .next t ∧ SameContexts s t ∧
      ∃ w ∈ (t.coreAt c).walks, w.asn = (s.ctxAt c k).bind.asn ∧ w.va / 4096 = va / 4096)) ∧
  (∀ addr bs, (expandSegment addr bs).bad = none →
    let h := segHeader bs
    ∃ bundles xs, expandBundles (h.lastb + 1) 0 [] (words32 ((bs.take h.slen).drop 16)) = some (bundles, xs, []) ∧
      4 * xs.length = h.xlen ∧ crc32c (xs.flatMap (fun w => leBytes w 4)) = h.xsig ∧
      (expandSegment addr bs).bundles = bundles ∧ (expandSegment addr bs).next = h.next) ∧
  (∀ (c line : Nat) (s : State) (l : Line), Tab.find (s.coreAt c).l1 line = some l → l.data.length = 128 → s.mem.wf = true →
    ∃ t, exec (.l1Eviction c line) s = .next t ∧ SameContexts s t ∧ (t.coreAt c).l1 = (s.coreAt c).l1.drop line ∧
      ∀ x, t.mem.read x = if x / 128 = line ∧ l.dirty.getLsbD (x % 128) then l.data.getD (x % 128) 0 else s.mem.read x) ∧
  (∀ (n : Nat) (f : Flight) (a : Acc) (s : State), Tab.find s.flight n = some f → f.msg = .access a →
    (∀ b ∈ a.report, s.fixedUp f.core (s.tokenTile b) = true) →
    ∃ t, exec (.dirtyReport n) s = .next t ∧ t.mem = s.mem ∧ (∀ c k, t.ctxAt c k = s.ctxAt c k) ∧
      Becomes n f { a with report := [] } s t ∧
      t.own = { s.own with regions := s.own.regions.map (fun e => if e.2.base ∈ a.report then (e.1, { e.2 with dirty := true }) else e) }) ∧
  (∀ (n k d : Nat) (f : Flight) (s : State), Tab.find s.flight n = some f →
    (f.msg = .marker k d → d < 8 → s.canReach (f.core / 96) d = true → s.fixedUp (1000 + d) f.core = true →
      (∀ e ∈ s.flight, e.2.core = f.core → e.2.ctx = f.ctx →
        (e.2.place e.1 < 2 * k + 1 → e.2.msg.cls.isSome → e.2.msg.done = false → ∀ h ∈ e.2.msg.homes, s.homeDie h ≠ d) ∧
        (e.1 < n → ∀ b, e.2.msg ≠ .marker b d)) →
      ∃ t, exec (.flushMarker n) s = .next t ∧ SameContexts s t ∧ t.mem = s.mem ∧
        Tab.find t.flight n = some { f with msg := .ack k d }) ∧
    (f.msg = .ack k d → exec (.flushAcknowledgement n) s = .next { s with flight := s.flight.drop n }))

/-! ## The vector, special-function and permute slots -/

/-- The vector slots; `A j e` and `B j e` are element e of lane j of the sources, read as R39 and R241 give in the last clause; the clause before it says
where the checks of `LanesReady` pass, by the state and operands alone. -/
def Obligations.VectorInstructions : Prop :=
  (∀ (x : VForm) (s : State), s.guard x.g = true →
    let ty := x.ty.toNat
    let w := (ekind ty).width
    (∀ f : FFmt, ekind ty = .flt f →
      let r := fun v : FVal => f.round .rne v
      Vec2 (.vadd x) x 2 (fun a b => r ((f.value a).add (f.value b))) s ∧ Vec2 (.vsub x) x 2 (fun a b => r ((f.value a).add (f.value b).neg)) s ∧
      Vec2 (.vmul x) x 5 (fun a b => r ((f.value a).mul (f.value b))) s ∧ Vec2 (.vmin x) x 2 (fun a b => r ((f.value a).min (f.value b))) s ∧
      Vec2 (.vmax x) x 2 (fun a b => r ((f.value a).max (f.value b))) s ∧
      Vec2 (.vabd x) x 2 (fun a b => r (((f.value a).add (f.value b).neg).abs)) s ∧
      Vec1 (.vabs x) x 2 (fun a => a % 2 ^ (w - 1)) s ∧ Vec1 (.vneg x) x 2 (fun a => (a + 2 ^ (w - 1)) % 2 ^ w) s ∧
      ∀ t, LanesReady [x.a, x.b, x.c] x.dst s t →
        let fma := fun (op : FVal → FVal → FVal → FVal) (j e : Nat) => r (op (f.value (El w (vsrc ty x.a t j) e))
          (f.value (El w (vsrc ty x.b t j) e)) (f.value (El w (vsrc ty x.c t j) e)))
        Lanewise (.vfma x) x.dst (t.enabled x.gm x.lm) 5 ty w (fma (fun a b c => (a.mul b).add c)) s t ∧
        Lanewise (.vfms x) x.dst (t.enabled x.gm x.lm) 5 ty w (fma (fun a b c => (a.mul b).add c.neg)) s t ∧
        Lanewise (.vfnma x) x.dst (t.enabled x.gm x.lm) 5 ty w (fma (fun a b c => (a.mul b).neg.add c)) s t) ∧
    (∀ f : IFmt, ekind ty = .int f →
      let v := f.value
      Vec2 (.vadd x) x 2 (fun a b => f.wrap (v a + v b)) s ∧ Vec2 (.vsub x) x 2 (fun a b => f.wrap (v a - v b)) s ∧
      Vec2 (.vmul x) x 5 (fun a b => f.wrap (v a * v b)) s ∧ Vec2 (.vmulh x) x 5 (fun a b => f.wrap (v a * v b / 2 ^ f.w)) s ∧
      Vec2 (.vmin x) x 2 (fun a b => if v a ≤ v b then a else b) s ∧ Vec2 (.vmax x) x 2 (fun a b => if v b ≤ v a then a else b) s ∧
      Vec2 (.vabd x) x 2 (fun a b => (v a - v b).natAbs % 2 ^ f.w) s ∧
      Vec2 (.vadds x) x 2 (fun a b => f.clamp (v a + v b)) s ∧ Vec2 (.vsubs x) x 2 (fun a b => f.clamp (v a - v b)) s ∧
      Vec1 (.vabs x) x 2 (fun a => f.wrap (v a).natAbs) s ∧ Vec1 (.vneg x) x 2 (fun a => f.wrap (-(v a))) s) ∧
    (ekind ty = .res → Vec2 (.vadd x) x 2 (resMap2 (fun a b => a + b)) s ∧ Vec2 (.vsub x) x 2 (resMap2 (fun a b => a - b)) s ∧
      Vec2 (.vmul x) x 5 (resMap2 (fun a b => a * b)) s) ∧
    Vec2 (.vshl x) x 2 (fun a b => a * 2 ^ (b % w) % 2 ^ w) s ∧ Vec2 (.vshrl x) x 2 (fun a b => a / 2 ^ (b % w)) s ∧
    Vec2 (.vshra x) x 2 (fun a b => (((if a < 2 ^ (w - 1) then (a : Int) else (a : Int) - 2 ^ w) / 2 ^ (b % w)) % 2 ^ w).toNat) s ∧
    Vec1 (.vclz x) x 2 (fun a => if a = 0 then w else w - 1 - Nat.log2 a) s ∧
    Vec1 (.vpopc x) x 2 (fun a => (List.range w).countP (fun i => a.testBit i)) s ∧
    VecLane (.vand x) x 2 [x.a, x.b] ty (fun t j => vsrc ty x.a t j &&& vsrc ty x.b t j) s ∧
    VecLane (.vor x) x 2 [x.a, x.b] ty (fun t j => vsrc ty x.a t j ||| vsrc ty x.b t j) s ∧
    VecLane (.vxor x) x 2 [x.a, x.b] ty (fun t j => vsrc ty x.a t j ^^^ vsrc ty x.b t j) s ∧
    VecLane (.vnot x) x 2 [x.a] ty (fun t j => 2 ^ 32 - 1 - vsrc ty x.a t j) s ∧
    VecLane (.vmov x) x 2 [x.a] ty (fun t j => vsrc ty x.a t j) s ∧
    VecLane (.vsel x) x 2 [x.a, x.b] ty
      (fun t j => if (t.rd.lpreg (x.c.toNat % 8)).getLsbD j then vsrc ty x.a t j else vsrc ty x.b t j) s ∧
    (ty = 5 ∨ ty = 6 → VecLane (.vidx x) x 2 [x.a] ty (fun t j => (j + vsrc ty x.a t j) % 2 ^ 32) s) ∧
    (ty = 0 → VecLane (.vidx x) x 2 [x.a] ty (fun t j => fp32.round .rne ((fp32.value (fp32.round .rne (FVal.ofInt j))).add (fp32.value (vsrc ty x.a t j)))) s) ∧
    VecLane (.xcp x) x 6 [x.a] ty (fun t j => vsrc ty x.a t (16 * ((j / 16) ^^^ (x.b.toNat % 8)) + j % 16)) s ∧
    VecLane (.xbc x) x 6 [x.a] ty (fun t j => vsrc ty x.a t (16 * (x.b.toNat % 8) + j % 16)) s ∧
    (let every := (fun (rel : Nat → Nat → Bool) (t : State) (j : Nat) =>
        ∀ e < 32 / w, rel (El w (vsrc ty x.a t j) e) (El w (vsrc ty x.b t j) e) = true);
      let k := ekind ty;
      VecPred (.vcmpeq x) x [x.a, x.b] (every (elemEq k)) s ∧ VecPred (.vcmpne x) x [x.a, x.b] (fun t j => ¬ every (elemEq k) t j) s ∧
      VecPred (.vcmplt x) x [x.a, x.b] (every (elemLt k)) s ∧
      VecPred (.vcmple x) x [x.a, x.b] (every (fun a b => elemLt k a b || elemEq k a b)) s) ∧
    (let lp := (fun (t : State) (sp : BitVec 10) (j : Nat) => (t.rd.lpreg (sp.toNat % 8)).getLsbD j = true);
      VecPred (.vpand x) x [] (fun t j => lp t x.a j ∧ lp t x.b j) s ∧ VecPred (.vpor x) x [] (fun t j => lp t x.a j ∨ lp t x.b j) s ∧
      VecPred (.vpnot x) x [] (fun t j => ¬ lp t x.a j) s) ∧
    (∀ t, LanesReady [x.a] x.dst s t →
      let en := t.enabled x.gm x.lm
      let red := fun (op : Nat → Nat → Nat) (j e : Nat) => groupReduce op ((List.range 16).map (fun i =>
        if en.getLsbD (16 * (j / 16) + i) then some (El w (vsrc ty x.a t (16 * (j / 16) + i)) e) else none))
      Lanewise (.vradd x) x.dst en 6 ty w (red (arith FVal.add (fun a b => a + b) (ekind ty))) s t ∧
      Lanewise (.vrmax x) x.dst en 6 ty w (red (elemMax (ekind ty))) s t ∧
      Lanewise (.vrmin x) x.dst en 6 ty w (red (elemMin (ekind ty))) s t) ∧
    (let acc := dotAcc ty;
      let prod := fun (t : State) (j : Nat) => (List.range (32 / w)).map (fun e => (El w (vsrc ty x.a t j) e, El w (vsrc ty x.b t j) e));
      (∀ f, ekind ty = .flt f → let r := (fun (t : State) (j : Nat) => fp32.round .rne
          ((prod t j).foldl (fun v p => v.add ((f.value p.1).mul (f.value p.2))) (fp32.value (vsrc acc x.c t j))));
        VecLane (.vdot2 x) x 5 [x.a, x.b, x.c] acc r s ∧ VecLane (.vdot4 x) x 5 [x.a, x.b, x.c] acc r s) ∧
      ∀ f, ekind ty = .int f → let r := (fun (t : State) (j : Nat) =>
          (((vsrc acc x.c t j : Int) + ((prod t j).map (fun p : Nat × Nat => f.value p.1 * f.value p.2)).sum) % 2 ^ 32).toNat);
        VecLane (.vdot2 x) x 5 [x.a, x.b, x.c] acc r s ∧ VecLane (.vdot4 x) x 5 [x.a, x.b, x.c] acc r s)) ∧
  (∀ (srcs : List (BitVec 10)) (dst : BitVec 8) (s : State), s.bun.holds = [] → (∀ sp ∈ srcs, LaneSource sp s) → LaneDest dst srcs s →
    ∃ t, LanesReady srcs dst s t ∧ BundleOnly s t ∧
      (∃ u, vsrcsIssue srcs s = .ok u ∧ BundleOnly s u ∧ u.bun.holds = [] ∧ vsrcsRead srcs u = .ok u) ∧
      t.bun.pops = s.bun.pops ++ srcs.flatMap (fun sp =>
        if sp.toNat / 256 = 1 ∧ sp.getLsbD 0 = true then [(sp.toNat / 16 % 16, sp.toNat / 2 % 8 + 1)] else [])) ∧
  ∀ (ty : Nat) (sp : BitVec 10) (t : State), ∀ j < 128,
    (sp.toNat / 256 = 0 → vsrc ty sp t j = Lane (t.rd.lreg (sp.toNat % 32)) j) ∧
    (sp.toNat / 256 = 1 → (t.queue (sp.toNat / 16 % 16)).ssz = 0 →
      vsrc ty sp t j = leNat ((t.mem.readBytes (t.slotPA (sp.toNat / 16 % 16) (sp.toNat / 2 % 8)) 512).drop (4 * j) |>.take 4)) ∧
    (sp.toNat / 256 = 2 → vsrc ty sp t j = (t.rd.sreg (sp.toNat % 32)).toNat % 2 ^ 32) ∧
    (sp.toNat / 256 = 3 → vsrc ty sp t j = constLane ty (sp.toNat % 256))

/-- The special functions; which value within its bound a result has is left open by R223 (log entry 9): the statement holds for each. -/
def Obligations.SpecialFunctions : Prop :=
  (∀ (x : SForm) (s : State), s.guard x.g = true → s.bun.holds = [] → LaneSource x.src s → LaneDest x.dst [x.src] s →
    let all := fun P : Instr → SFn → Prop => P (.sfexp2 x) .exp2 ∧ P (.sflog2 x) .log2 ∧ P (.sfrcp x) .rcp ∧ P (.sfrsq x) .rsq ∧
      P (.sfsqrt x) .sqrt ∧ P (.sfsin x) .sin ∧ P (.sfcos x) .cos ∧ P (.sftanh x) .tanh ∧ P (.sfsigm x) .sigm ∧ P (.sferf x) .erf
    (s.core.fBusy ≠ 0 → all (fun i _ => ∃ t, BundleOnly s t ∧ exec i s = .next (t.hold .interlock))) ∧
    (s.core.fBusy = 0 → all (fun i f =>
      ∃ (t : State) (y : Write), exec i s = .next ((t.put y 12).modMyCore (fun c => { c with fBusy := 4 })) ∧ BundleOnly s t ∧ t.bun.holds = [] ∧
        (x.dst.toNat < 128 → ∃ v : Lanes, y = .l (x.dst.toNat % 32) (s.enabled x.gm x.lm) v ∧
          ∀ j < 128, (x.ty.toNat = 0 → Lane v j = f.apply .rne 0 (vsrc 0 x.src s j) (fp32.value (vsrc 0 x.src s j))) ∧
            ∀ g, ekind x.ty.toNat = .flt g → x.ty.toNat ≠ 0 → ∀ e < 32 / g.width,
              let b := El g.width (vsrc x.ty.toNat x.src s j) e
              El g.width (Lane v j) e = g.round .rne (fp32.value (f.apply .rto x.ty.toNat b (g.value b)))) ∧
        (128 ≤ x.dst.toNat → ∃ v : Lanes, y = t.slotWrite (x.dst.toNat % 16) (tagByte x.ty.toNat 0) (leBytes v.toNat 512) ∧
          ∀ j < 128, ((s.enabled x.gm x.lm).getLsbD j = false → Lane v j = 0) ∧ ((s.enabled x.gm x.lm).getLsbD j = true →
            (x.ty.toNat = 0 → Lane v j = f.apply .rne 0 (vsrc 0 x.src s j) (fp32.value (vsrc 0 x.src s j))) ∧
            ∀ g, ekind x.ty.toNat = .flt g → x.ty.toNat ≠ 0 → ∀ e < 32 / g.width,
              let b := El g.width (vsrc x.ty.toNat x.src s j) e
              El g.width (Lane v j) e = g.round .rne (fp32.value (f.apply .rto x.ty.toNat b (g.value b)))))))) ∧
  (∀ (f : SFn) (md : RMode) (ty b : Nat),
    let one := 0x3F800000
    let inf := 0x7F800000
    let n := fp32.nan
    let at' := fun v : FVal => f.apply md ty b v
    let row : Nat × Nat × Nat × Nat := match f with
      | .exp2 => (0, one, one, inf) | .log2 => (n, 0xFF800000, 0xFF800000, inf) | .rcp => (0x80000000, 0xFF800000, inf, 0)
      | .rsq => (n, 0xFF800000, inf, 0) | .sqrt => (n, 0x80000000, 0, inf) | .sin => (n, 0x80000000, 0, n) | .cos => (n, one, one, n)
      | .tanh => (0xBF800000, 0x80000000, 0, one) | .sigm => (0, 0x3F000000, 0x3F000000, one) | .erf => (0xBF800000, 0x80000000, 0, one)
    at' .nan = n ∧ at' (.inf true) = row.1 ∧ at' (.fin true 0 0) = row.2.1 ∧ at' (.fin false 0 0) = row.2.2.1 ∧ at' (.inf false) = row.2.2.2 ∧
    ∀ m e, 0 < m →
      (f = .log2 ∨ f = .rsq ∨ f = .sqrt → at' (.fin true m e) = n) ∧
      (f = .sin ∨ f = .cos → 20 ≤ (Nat.log2 m : Int) + e → at' (.fin false m e) = n ∧ at' (.fin true m e) = n) ∧
      (f = .rcp → ∀ neg, at' (.fin neg m e) = fp32.round md (rcpSticky neg m e)) ∧
      (f = .sqrt → at' (.fin false m e) = fp32.round md (sqrtSticky m e)) ∧
      (f.exact m e = false → (f = .exp2 → (Nat.log2 m : Int) + e < 8) → (f = .sin ∨ f = .cos → (Nat.log2 m : Int) + e < 20) →
        ∀ neg, (f = .log2 ∨ f = .rsq → neg = false) → f.inBound (.fin neg m e) (f.approx neg m e) (at' (.fin neg m e)) = true ∨
          at' (.fin neg m e) = fp32.round .rne (f.approx neg m e)) ∧
      (f.exact m e = false → (f = .exp2 → (Nat.log2 m : Int) + e < 8) → (f = .sin ∨ f = .cos → (Nat.log2 m : Int) + e < 20) →
        ∀ neg, (f = .log2 ∨ f = .rsq → neg = false) → (f.approx neg m e).tiny = true →
          at' (.fin neg m e) = fp32.round .rne (f.approx neg m e))) ∧
  ∀ (md : RMode) (ty b k : Nat), k < 127 → SFn.apply .exp2 md ty b (.fin false k 0) = (if k = 0 then 0x3F800000 else fp32.round md (.fin false 1 k)) ∧
    SFn.apply .log2 md ty b (.fin false (2 ^ k) 0) = fp32.round md (.ofInt k) ∧
    SFn.apply .rsq md ty b (.fin false (4 ^ k) 0) = fp32.round md (.fin false 1 (-k))

/-! ## The permute slot -/

/-- The permute instructions, `A` and `B` being the bytes of their source slots; PSCL with computed scales appends their slot as well. -/
def Obligations.PermuteInstructions : Prop :=
  ∀ (x : PForm) (s : State),
    let tf := x.tf.toNat
    let tt := x.tt.toNat
    let wf := (ekind tf).width
    let wt := (ekind tt).width
    let A := PBytes x.a s
    let B := PBytes x.b s
    let a := PSize (PStream x.a) s
    let b := PSize (PStream x.b) s
    let d := PSize (x.dst.toNat % 16) s
    let n := a / (wf / 8)
    let md := RMode.ofCode (x.imm.toNat % 8)
    let cv := convElem md tf tt
    (PermuteReady x false none false false s → d * wf = a * wt →
      ∃ bs, Holds wt n bs (fun e => cv (SlotEl wf A e) % 2 ^ wt) ∧ Permutes (.pcvt x) x false bs s ∧ Permutes (.pres x) x false bs s ∧
        Permutes (.pcrt x) x false bs s) ∧
    (PermuteReady x true (some tf) false false s → a = d → b = d → wf = 2 * wt →
      ∃ bs, Holds wt (2 * n) bs (fun e => let m := 32 / wf
        cv (SlotEl wf (if e % (2 * m) < m then A else B) (e / (2 * m) * m + e % m)) % 2 ^ wt) ∧ Permutes (.ppack x) x true bs s) ∧
    (PermuteReady x false none false false s → a = d → wt = 2 * wf →
      ∃ bs, Holds wt (n / 2) bs (fun e => let m := 32 / wt
        convElem .rne tf tt (SlotEl wf A (e / m * (2 * m) + x.imm.toNat % 2 * m + e % m)) % 2 ^ wt) ∧ Permutes (.punpk x) x false bs s) ∧
    (PermuteReady x true (some 12) false false s → d * wf = a * wt → (n + 31) / 32 ≤ b →
      ∃ bs cs, Holds wt n bs (fun e => (fltOf tt).round md (scaled true (B.getD (e / 32) 0).toNat ((fltOf tf).value (SlotEl wf A e))) % 2 ^ wt) ∧
        Permutes (.pdscl x) x true bs s ∧
        (x.imm.getLsbD 3 = false → wt = 8 → Holds 8 n cs (fun e => (fltOf tt).round md
          (scaled false (B.getD (e / 32) 0).toNat ((fltOf tf).value (SlotEl wf A e))) % 2 ^ 8) ∧ Permutes (.pscl x) x true cs s)) ∧
    (PermuteReady x false none false true s → x.imm.getLsbD 3 = true → d * wf = a * wt → wt = 8 → (s.stream (x.dst.toNat % 16)).scen = true →
      (n + 31) / 32 ≤ (s.queue (s.stream (x.dst.toNat % 16)).sq).slotBytes →
      let st := s.stream (x.dst.toNat % 16)
      let blk := fun q : Nat => (s.queue q).ssz + 1
      let c := max (blk (s.stream (PStream x.a)).qn) (blk st.qn + blk st.sq)
      ∃ (t : State) (out ss : List Byte), exec (.pscl x) s = .next (((t.put (t.slotWrite st.qn (tagByte st.fmt st.swz) out) (3 + c)).put
          (t.scaleWrite st.sq (tagByte 12 0) ss) (3 + c)).modMyCore (fun k => { k with kBusy := c })) ∧ BundleOnly s t ∧ t.bun.holds = [] ∧
        out.length = n ∧ ss.length = (s.queue st.sq).slotBytes ∧
        (∀ k < (n + 31) / 32, (ss.getD k 0).toNat = blockScale (if tt = 3 then 8 else 15)
          ((List.range (min 32 (n - 32 * k))).map (fun i => (fltOf tf).value (SlotEl wf A (32 * k + i))))) ∧
        ∀ e < n, (out.getD e 0).toNat = if x.gm.getLsbD (e % 512 / 64) then
          (fltOf tt).round md (scaled false (ss.getD (e / 32) 0).toNat ((fltOf tf).value (SlotEl wf A e))) % 2 ^ 8 else 0) ∧
    (PermuteReady x (shufUsesB x) none false false s → a = d → (shufUsesB x = true → b = d) →
      (x.imm.toNat / 128 = 1 → n % 2 ^ (x.imm.toNat % 128) = 0) → (x.imm.toNat / 128 = 6 → x.imm.toNat % 128 < n) →
      let p := x.imm.toNat % 128
      let both := fun e : Nat => if e < n then SlotEl wf A e else SlotEl wf B (e - n)
      ∃ bs, Permutes (.pshuf x) x (shufUsesB x) bs s ∧
        (x.imm.toNat / 128 = 0 → Holds wf n bs (fun e => SlotEl wf A ((e + p) % n))) ∧
        (x.imm.toNat / 128 = 1 → Holds wf n bs (fun e => SlotEl wf A (e ^^^ (2 ^ p - 1)))) ∧
        (x.imm.toNat / 128 = 2 → Holds wf n bs (fun e => if e % 2 = 0 then SlotEl wf A (e / 2) else SlotEl wf B (e / 2))) ∧
        (x.imm.toNat / 128 = 3 → Holds wf n bs (fun e => if e % 2 = 0 then SlotEl wf A (e / 2 + n / 2) else SlotEl wf B (e / 2 + n / 2))) ∧
        (x.imm.toNat / 128 = 4 → Holds wf n bs (fun e => both (2 * e))) ∧ (x.imm.toNat / 128 = 5 → Holds wf n bs (fun e => both (2 * e + 1))) ∧
        (x.imm.toNat / 128 = 6 → Holds wf n bs (fun _ => SlotEl wf A p)) ∧
        (x.imm.toNat / 128 = 7 → Holds wf n bs (fun e => SlotEl wf A (SlotEl wf B e % n)))) ∧
    (PermuteReady x false none false false s →
      let st := s.stream (PStream x.a)
      let sd := s.stream (x.dst.toNat % 16)
      st.rows * st.cols * (wf / 8) = a → a = d → sd.rows = st.cols → sd.cols = st.rows →
      ∃ bs, bs.length = a ∧ (∀ i < st.rows, ∀ j < st.cols, SlotEl wf bs (j * st.rows + i) = SlotEl wf A (i * st.cols + j)) ∧
        Permutes (.ptrn x) x false bs s) ∧
    (PermuteReady x false none true false s → a = d →
      ∃ bs, bs.length = a ∧ (∀ o < a, bs.getD (swz (s.stream (x.dst.toNat % 16)).swz o) 0 = A.getD (swz (s.stream (PStream x.a)).swz o) 0) ∧
        Permutes (.pswz x) x false bs s) ∧
    (PermuteReady x true (some tt) false false s → x.imm.toNat + 1 ≤ b * 8 / wt → d = a * 8 / wf * (wt / 8) →
      ∃ bs, Holds wt n bs (fun e => if SlotEl wf A e ≤ x.imm.toNat then SlotEl wt B (SlotEl wf A e) else 0) ∧ Permutes (.plut x) x true bs s)

/-! ## Tokens -/

/-- The seventeen token instructions; `p` is the party word of S[p] for the forms that name one. -/
def Obligations.TokenInstructions : Prop :=
  ∀ (m : MForm) (s : State), s.guard m.g = true →
    let d := m.data.toNat % 32
    let p := s.sreg m.idx
    let one : List Write := [.s d 0]
    let clean := s.bun.holds = [] ∧ m.base.toNat ∉ s.me.badS
    (∀ base, clean →
      let ask := fun (i : Instr) (op : TokOp) => MayAsk (Request op m 0 base s) m 1 s → Asks i (Request op m 0 base s) m one s
      ask (.retn m) .retn ∧ ask (.split m) .split ∧ ask (.join m) .join ∧ ask (.unshr m) .unshr ∧ ask (.tkmodePlain m) .plain ∧
      ask (.tkmodeAtomic m) .atomic ∧ ask (.reclaimDestroy m) .destroy ∧
      (p.toNat ≤ 3 → ask (.tkqryChain m) (.chain p.toNat)) ∧
      (MayAsk (Request .query m 0 base s) m 2 s → Asks (.tkqry m) (Request .query m 0 base s) m [.s d 0, .s (d + 1) 0] s)) ∧
    (∀ base, clean → m.idx.toNat ∉ s.me.badS →
      let ask := fun (i : Instr) (op : TokOp) => MayAsk (Request op m p base s) m 1 s → Asks i (Request op m p base s) m one s
      ask (.lend m) .lend ∧ ask (.lendPass m) .lendPass ∧ ask (.share m) .share ∧ ask (.reclaimClean m) .clean ∧
      ask (.reclaimReinit m) .reinit ∧ ask (.reclaimCreate m) .create ∧ ask (.reclaimSeize m) .seize) ∧
    (s.bun.holds = [] → HasRoom s → s.me.land.length < 32 → Asks (.tkqrySelf m)
      { op := .me, base := 0, sz := 0, self := s.data.bind.party, scope := m.sc.toNat, d := d } m one s) ∧
    (3 < p.toNat → TrapsAt (.tkqryChain m) .illegal s) ∧
    (s.data.bind.phaseBound = true → TrapsAt (.lend m) .illegal s ∧ TrapsAt (.retn m) .illegal s ∧ TrapsAt (.reclaimCreate m) .illegal s) ∧
    (s.data.bind.phaseBound = false → desOk (s.designator m) = false →
      TrapsAt (.lend m) .align s ∧ TrapsAt (.retn m) .align s ∧ TrapsAt (.split m) .align s ∧ TrapsAt (.tkqry m) .align s) ∧
    (∀ a, s.data.bind.phaseBound = false → desOk (s.designator m) = true → s.desBase s.cur s.data (s.designator m) = .pieces [a] →
      s.tokenPending [a] = false →
      (s.own.exact a.pa (s.designator m % 32) = none →
        TrapsAt (.lend m) .ownNone s ∧ TrapsAt (.retn m) .ownNone s ∧ TrapsAt (.share m) .ownNone s ∧ TrapsAt (.tkmodePlain m) .ownNone s) ∧
      (∀ r, s.own.exact a.pa (s.designator m % 32) = some r → r.st = .held → r.owner = s.data.bind.party → 0 < r.shares →
        TrapsAt (.lend m) .ownShared s ∧ TrapsAt (.retn m) .ownShared s) ∧
      (s.inService = false → s.data.bind.tkadm = false →
        TrapsAt (.reclaimClean m) .priv s ∧ TrapsAt (.reclaimReinit m) .priv s ∧ TrapsAt (.reclaimCreate m) .priv s ∧
        TrapsAt (.reclaimDestroy m) .priv s ∧ TrapsAt (.reclaimSeize m) .priv s))

/-- The events of ownership; `r` is the entry of the region that the request names. -/
def Obligations.TokenSlice : Prop :=
  (∀ (n : Nat) (f : Flight) (q : TokReq) (s : State), TakesTurn n f q s →
    (s.tokenStatus q ≠ 0 → q.op.reads = false →
      ∃ t, exec (.tokenSliceRequest n) s = .next t ∧ t.own = s.own ∧ t.mem = s.mem ∧ t.cores = s.cores ∧
        Answered n f q (BitVec.ofNat 64 (s.tokenStatus q)) 0 t) ∧
    (q.op = .me → ∃ t, exec (.tokenSliceRequest n) s = .next t ∧ t.own = s.own ∧ Answered n f q q.self 0 t) ∧
    (q.op = .query → ∃ t v o, exec (.tokenSliceRequest n) s = .next t ∧ t.own = s.own ∧ Answered n f q v o t ∧
      (s.own.regionAt q.base = none → v = 0 ∧ o = 0) ∧
      ∀ r, s.own.regionAt q.base = some r → r.sz ≤ 18 → r.chain.length ≤ 4 → r.shares < 2 ^ 16 → o = r.owner ∧ v.toNat % 2 = 1 ∧ v.toNat / 2 % 32 = r.sz ∧
        (v.getLsbD 6 = true ↔ r.atomic = true) ∧ (v.getLsbD 7 = true ↔ r.dirty = true) ∧ v.toNat / 2 ^ 10 % 8 = r.chain.length ∧
        (v.getLsbD 13 = true ↔ r.owner = q.self) ∧ v.toNat / 2 ^ 16 = r.shares) ∧
    (s.tokenStatus q = 0 → q.op.reads = false → (q.op.releases = true → s.fencePredsDone n f 31 (s.tokenScope f.core q) = true) →
      q.op.withdraws = true → q.invSent = false →
      ∃ t, exec (.tokenSliceRequest n) s = .next t ∧ t.own = s.own ∧ t.mem = s.mem ∧ t.seq = s.seq + s.cores.length) ∧
    (s.tokenStatus q = 0 → (q.op.releases = true → s.fencePredsDone n f 31 (s.tokenScope f.core q) = true) →
      (q.op.withdraws = true → q.invSent = true ∧ ∀ e ∈ s.flight, e.2.msg ≠ .inval n) →
      (∀ e ∈ (s.coreAt f.core).l1, q.base + 2 ^ (12 + q.sz) ≤ e.1 * 128 ∨ e.1 * 128 < q.base) →
      let half := 2 ^ (11 + q.sz)
      let does := fun (op : TokOp) (own : Ownership) => q.op = op → ∃ t, exec (.tokenSliceRequest n) s = .next t ∧ t.own = own ∧
        (op ≠ .reinit → t.mem = s.mem) ∧ Answered n f q 0 0 t ∧ ∀ c k, t.ctxAt c k = s.ctxAt c k
      let put := fun r : Region => { s.own with regions := s.own.regions.put r.base r }
      (∀ r, s.own.exact q.base q.sz = some r → r.base = q.base →
        does .lend (put { r with owner := q.target, chain := q.self :: r.chain, dirty := false }) ∧
        does .lendPass (put { r with owner := q.target, dirty := false }) ∧
        does .plain (put { r with atomic := false, dirty := false }) ∧ does .atomic (put { r with atomic := true, dirty := false }) ∧
        (∀ a c, r.chain = a :: c → s.live a = true → does .retn (put { r with owner := a, chain := c, dirty := false })) ∧
        (0 < q.sz → does .split { s.own with regions := ((s.own.regions.put q.base { r with sz := q.sz - 1, dirty := false }).put
            (q.base + half) { r with sz := q.sz - 1, dirty := false, base := q.base + half }) }) ∧
        does .share { put ({ r with shares := r.shares + 1, dirty := false }) with shares := s.own.shares ++ [(q.base, q.target)] } ∧
        does .unshr { put ({ r with shares := r.shares - 1, dirty := false }) with shares := s.own.shares.erase (q.base, q.self) } ∧
        does .clean { put ({ r with owner := q.target, chain := [], shares := 0, dirty := false, st := .held }) with
          shares := s.own.shares.filter (fun e => e.1 != q.base) } ∧
        does .seize { put ({ r with owner := q.target, chain := [], shares := 0, dirty := false }) with
          shares := s.own.shares.filter (fun e => e.1 != q.base) } ∧
        does .destroy { s.own with regions := s.own.regions.drop q.base, shares := s.own.shares.filter (fun e => e.1 != q.base) } ∧
        (q.target ≠ 0 → does .reinit (put { r with atomic := false, dirty := false, owner := q.target, chain := [], st := .held })) ∧
        (q.op = .reinit → ∃ t, exec (.tokenSliceRequest n) s = .next t ∧
          ∀ x, t.mem.read x = if q.base ≤ x ∧ x < q.base + 2 ^ (12 + q.sz) then 0 else s.mem.read x)) ∧
      (∀ lo hi, 0 < q.sz → s.own.exact q.base (q.sz - 1) = some lo → lo.base = q.base → s.own.exact (q.base + half) (q.sz - 1) = some hi →
        does .join { s.own with regions := (s.own.regions.drop (q.base + half)).put q.base { lo with sz := q.sz, dirty := false } }) ∧
      (s.own.exact q.base q.sz = none → does .create (put { base := q.base, sz := q.sz, owner := q.target }))) ∧
    (∀ r, s.own.exact q.base q.sz = some r → q.op = .lend →
      s.tokenStatus q = if (q.base, q.self) ∈ s.own.engaged then 3 else if s.live q.target = false then 2 else if q.target = q.self then 5
        else if 4 ≤ r.chain.length then 1 else 0)) ∧
  (∀ (n k : Nat) (f g : Flight) (q : TokReq) (s : State), Tab.find s.flight n = some f → f.msg = .inval k → Tab.find s.flight k = some g →
    g.msg = .token q → s.oldAccess n f.core q.base (2 ^ (12 + q.sz)) = false →
    ∃ t, exec (.ownershipInvalidation n) s = .next t ∧ t.flight = s.flight.drop n ∧ t.own = s.own ∧
      (∀ e ∈ (t.coreAt f.core).l1, q.base + 2 ^ (12 + q.sz) ≤ e.1 * 128 ∨ e.1 * 128 < q.base) ∧
      q.base ∉ (t.coreAt f.core).reported ∧ ∀ c j, t.ctxAt c j = s.ctxAt c j) ∧
  (∀ (p : Word) (s : State), p ∈ s.own.live → ∃ t, exec (.partyDeath p) s = .next t ∧ t.mem = s.mem ∧ t.own.live = s.own.live.erase p ∧
    (∃ d ∈ t.own.dead, d.party = p ∧ d.launch = s.launchOf p ∧
      ∀ c k, k < 4 → (s.ctxAt c k).status ≠ .free → (s.ctxAt c k).bind.party = p → c ∈ d.cores) ∧ (∀ e ∈ t.own.engaged, e.2 ≠ p) ∧ t.own.regions = s.own.regions) ∧
  ∀ (die : Nat) (d : Dead) (s : State), s.own.dead.find? (fun e => e.party == d.party) = some d → s.own.regions.sorted = true →
    (∀ e ∈ s.own.regions, e.2.base = e.1) →
    ∃ t, exec (.orphanScan die d.party) s = .next t ∧ ((∀ c ∈ d.cores, (s.coreAt c).l1 = []) → t.mem = s.mem) ∧ (∀ c k, t.ctxAt c k = s.ctxAt c k) ∧
      ∀ b r, (b, r) ∈ s.own.regions → ∃ r', (b, r') ∈ t.own.regions ∧
        let concerned := s.homeDie b = die ∧ ∀ c ∈ d.cores, s.oldAccess d.no c b r.bytes = false
        (¬ concerned → r' = r ∧ ∀ q, (b, q) ∈ s.own.shares → (b, q) ∈ t.own.shares) ∧
        (concerned → (b, d.party) ∉ t.own.shares ∧ (r.owner ≠ d.party → r'.owner = r.owner ∧ r'.st = r.st) ∧
          (r.owner = d.party ∨ (b, d.party) ∈ s.own.shares → ∀ c ∈ d.cores, ∀ e ∈ (t.coreAt c).l1, b + r.bytes ≤ e.1 * 128 ∨ e.1 * 128 < b) ∧
          (r.owner = d.party → r.st = .held →
            (r.dirty = true → r'.st = .poison ∧ r'.dlaunch = d.launch) ∧
            (r.dirty = false → ∀ a c, r.chain = a :: c → s.live a = true → r'.owner = a ∧ r'.chain = c ∧ r'.st = .held) ∧
            (r.dirty = false → r.chain = [] → s.live d.launch = false → r'.st = .orphan)))

/-! ## Copies and sparse-index operations -/

/-- The engine instructions: over the state `t` that the checks of R261 or R277 leave, and over conditions on the state alone for operations that name
no completion object and read the span. -/
def Obligations.EngineInstructions : Prop :=
  ∀ (m : MForm) (s : State), s.guard m.g = true →
    let a := s.ea m
    let d := CopyOf m s
    let span := s.data.bind.spanBytes
    let clean := fun t : State => t.bun.holds = [] ∧ m.base.toNat ∉ t.me.badS ∧ m.idx.toNat ∉ t.me.badS ∧ AddrSound t
    (∀ t, copyIssue .cpy m s = .ok t → clean t → Copies (.cpy m) .cpy m t s) ∧
    (∀ t, copyIssue .cpym m s = .ok t → clean t → Copies (.cpym m) .cpym m t s) ∧
    (∀ t, copyIssue .cpyn m s = .ok t → clean t → Copies (.cpyn m) .cpyn m t s) ∧
    (∀ t, copyIssue .cpyq m s = .ok t → clean t → Copies (.cpyq m) .cpyq m t s) ∧
    (∀ t, copyIssue .cpyf m s = .ok t → clean t → Copies (.cpyf m) .cpyf m t s) ∧
    (∀ t run, sxIssue run m s = .ok t → clean t → Indexes run m t s) ∧
    (MayCopy .cpy m s → d.dqk = false → SpanRows d.dst d.dpitch d.len d.rows s → Copies (.cpy m) .cpy m s s) ∧
    (MayCopy .cpym m s → (d.dqk = false → d.dst % 64 = 0 ∧ d.dpitch % 64 = 0) → (∀ c ∈ s.mcastCores d, MayTarget d c s) →
      Copies (.cpym m) .cpym m s s) ∧
    (MayCopy .cpyn m s → SpanRows d.dst d.dpitch d.len d.rows s → s.cur < 384 → s.data.bind.spanBase + span ≤ 0x180000 →
      Copies (.cpyn m) .cpyn m s s) ∧
    (MayCopy .cpyq m s → (s.queue d.dq).mode = .spliceOut → d.bytes = (s.queue d.dq).slotBytes → MayAppend d.dq 0 s →
      ∃ t, BundleOnly s t ∧ Copies (.cpyq m) .cpyq m t s) ∧
    (MayCopy .cpyf m s → SpanRows d.dst d.dpitch d.len d.rows s → s.data.bind.phaseBound = true → s.data.phase.reg.length < 4 →
      (∀ r < d.rows,
        let b := d.dst + r * d.dpitch
        (b + d.len ≤ s.data.phase.out ∨ s.data.phase.out + 512 * s.data.phase.blocks ≤ b) ∧
          (b + d.len ≤ s.data.bind.snap ∨ s.data.bind.snap + 37888 ≤ b)) →
      Copies (.cpyf m) .cpyf m s s) ∧
    (∀ run, MayIndex run m s → Indexes run m s s) ∧
    (a % 64 ≠ 0 → TrapsAt (.cpy m) .align s ∧ TrapsAt (.cpym m) .align s ∧ TrapsAt (.cpyn m) .align s ∧ TrapsAt (.cpyq m) .align s ∧
      TrapsAt (.cpyf m) .align s ∧ TrapsAt (.sxbm m) .align s ∧ TrapsAt (.sxrl m) .align s) ∧
    (a % 64 = 0 → span < a + 64 → TrapsAt (.cpy m) .xlate s ∧ TrapsAt (.cpyq m) .xlate s ∧ TrapsAt (.sxbm m) .xlate s) ∧
    (a % 64 = 0 → a + 64 ≤ span → a < 0x200000 → d.len % 64 ≠ 0 ∨ d.inc = 0 ∨ 2 ^ 30 < d.len * d.rows ∨ d.zeros = false →
      TrapsAt (.cpy m) .illegal s ∧ TrapsAt (.cpym m) .illegal s ∧ TrapsAt (.cpyn m) .illegal s ∧ TrapsAt (.cpyq m) .illegal s ∧
      TrapsAt (.cpyf m) .illegal s) ∧
    (a % 64 = 0 → a + 64 ≤ span → a < 0x200000 → s.data.bind.phaseBound = false → TrapsAt (.cpyf m) .illegal s) ∧
    (s.bun.holds = [] → HasRoom s → s.me.land.length < 32 →
      let mine := fun e : Nat × EngOp => e.2.core == s.cur && e.2.ctx == s.core.dataIdx && e.2.copy?.isNone
      (∃ t f, exec (.sxstopAll m) s = .next t ∧ t.mem = s.mem ∧ t.ops = s.ops ∧ Tab.find t.flight s.seq = some f ∧
        f.msg = .sxstop ((s.ops.filter mine).map (fun e => e.1)) 0 false) ∧
      (m.base.toNat ∉ s.me.badS → (s.sreg m.base).toNat < 32 →
        let l := (s.ops.filter (fun e => mine e && e.2.ent == (s.sreg m.base).toNat)).map (fun e => e.1)
        ∃ t f, exec (.sxstop m) s = .next t ∧ t.mem = s.mem ∧ t.ops = s.ops ∧ Tab.find t.flight s.seq = some f ∧
          f.msg = .sxstop l (if l = [] then 5 else 0) false ∧ t.own = s.own)) ∧
    (32 ≤ (s.sreg m.base).toNat → TrapsAt (.sxstop m) .illegal s)

/-- The events of the copy and sparse-index engines, each where it is enabled; every other byte of memory keeps its value. -/
def Obligations.EngineEvents : Prop :=
  (∀ (die n : Nat) (o : EngOp) (s : State),
    (s.ops.filter (fun e => e.2.core / 96 == die && e.2.started && e.2.copy?.isSome)).length < 16 → s.nextCopy die = some (n, o) →
    s.forkReady n o = true →
    exec (.copyStart die) s = .next { s with ops := s.ops.put n { o with started := true, since := s.cycle + 8 } } ∧
    ∀ e ∈ s.ops, e.2.core / 96 = die → e.2.started = false → e.2.copy?.isSome = true → o.prio ≤ e.2.prio) ∧
  (∀ (n i : Nat) (o : EngOp) (c : CopyOp) (r r' : Row) (s s' : State), HasOp n o s → o.body = .copy c → o.started = true → o.since ≤ s.cycle →
    o.back ≠ some s.cycle → i ∈ c.todo → c.kind = .cpy ∨ c.kind = .cpyn ∨ c.kind = .cpyf → c.src[(c.d.piece i).1]? = some r →
    c.dst[(c.d.piece i).1]? = some r' →
    let p := c.d.piece i
    let row := cutRow r p.2.1 p.2.2
    let out := cutRow r' p.2.1 p.2.2
    let from_ := pairs row
    let away := fun u : State => u.atBank from_ = true ∨ ∃ q ∈ from_, u.remote q.1 = true
    s.withdrawing (from_ ++ pairs (out ++ s.compRow o)) = false → s.opCause o row out = none → (∀ q ∈ from_, q.1 / 4096 ≠ capBase / 4096) →
    (i ∉ c.asked → o.turn ≠ some s.cycle → c.asked.length < 64 → s.payEngine n o from_ = .ok s' →
      let c' := { c with asked := c.asked ++ [i] }
      let o' := { o with turn := some s.cycle, body := .copy c' }
      let u : State := { s'.useRow row with ops := (s'.useRow row).ops.put n o' }
      (away u → exec (.copyPiece n i) s = .next u ∧ u.mem = s.mem ∧ u.own = s.own ∧ HasOp n o' u) ∧
      (¬ away u → (∀ q ∈ from_, s.badRange q.1 q.2 = false) → ∃ t, exec (.copyPiece n i) s = .next t ∧ PieceSent n i o' c' from_ (pairs out) s t)) ∧
    (i ∈ c.asked → (away s → exec (.copyPiece n i) s = .next s) ∧
      (¬ away s → (∀ q ∈ from_, s.badRange q.1 q.2 = false) → ∃ t, exec (.copyPiece n i) s = .next t ∧ PieceSent n i o c from_ (pairs out) s t) ∧
      (¬ away s → (∃ q ∈ from_, s.badRange q.1 q.2 = true) → c.slot = none → c.targets = [] → c.srcQ = none →
        (s.ctxAt o.core o.ctx).bind.phaseBound = false →
        ∃ t, exec (.copyPiece n i) s = .next t ∧ t.mem = s.mem ∧ t.ops = s.ops.drop n ∧
          ⟨.eccUe, o.ent, o.comp, none⟩ ∈ (t.ctxAt o.core o.ctx).async))) ∧
  (∀ (n k : Nat) (f : Flight) (o : EngOp) (c : CopyOp) (ws : List (Nat × List Byte)) (s : State), Tab.find s.flight n = some f →
    f.msg = .piece k ws false [] → HasOp k o s → o.body = .copy c → c.slot = none →
    (∀ w ∈ ws, s.remote w.1 = false ∧ s.presentAt w.1 w.2.length = false) →
    ∃ t, exec (.homeAccess n) s = .next t ∧ t.flight = s.flight.drop n ∧ t.mem = storeAll s.mem ws ∧
      (∀ x, (∀ w ∈ ws, ¬ Covers w x) → t.mem.read x = s.mem.read x) ∧ HasOp k { o with body := .copy { c with left := c.left - 1 } } t ∧
      ∀ c k, t.ctxAt c k = s.ctxAt c k) ∧
  (∀ (n : Nat) (o : EngOp) (c : CopyOp) (s : State), HasOp n o s → o.body = .copy c → o.started = true →
    (c.todo = [] → c.left = 0 → (c.kind = .cpyn → c.notified = true) → c.kind ≠ .refetch →
      (c.d.dqk = true → ∀ t ∈ c.targets, t.2 = .done) → s.appendOut o c = false → s.withdrawing (pairs (s.compRow o)) = false →
      s.opCause o [] [] = none →
      ∃ t, exec (.copyCompletion n) s = .next t ∧ t.ops = s.ops.drop n ∧ (∀ c k, t.ctxAt c k = s.ctxAt c k) ∧
        (o.comp = none → t.mem = s.mem) ∧
        ∀ a, o.comp = some a → (s.mem.wf = true → t.mem.readBytes a 8 = leBytes ((leNat (s.mem.readBytes a 8) + o.inc) % 2 ^ 64) 8) ∧
          ∀ x, x < a ∨ a + 8 ≤ x → t.mem.read x = s.mem.read x) ∧
    (c.kind = .cpyn → c.notified = false → c.todo = [] → c.left = 0 → s.olderNotify n o c = false →
      let x := s.ctxAt c.ncore c.d.tctx
      let rec_ : NotifyRec := ⟨BitVec.ofNat 64 c.d.hndl, BitVec.ofNat 64 c.d.narg, BitVec.ofNat 64 c.d.dst, BitVec.ofNat 64 (c.d.len * c.d.rows)⟩
      (x.bind.isNotify = true → x.status = .dormant → ∃ t, exec (.notify n) s = .next t ∧ t.mem = s.mem ∧
        HasOp n { o with body := .copy { c with notified := true } } t ∧
        let y := t.ctxAt c.ncore c.d.tctx
        y.status = .ready ∧ y.pc = rec_.entry ∧ y.regs.sreg 1 = rec_.arg ∧ y.regs.sreg 2 = rec_.dst ∧ y.regs.sreg 3 = rec_.bytes) ∧
      (x.bind.isNotify = true → x.status ≠ .dormant → x.status ≠ .free → x.notifies.length < 4 →
        ∃ t, exec (.notify n) s = .next t ∧ (t.ctxAt c.ncore c.d.tctx).notifies = x.notifies ++ [rec_])) ∧
    (∀ k, c.kind = .cpym → c.d.dqk = true →
      let d := (s.ctxAt k c.d.tctx).queue c.d.dq
      (Tab.find c.targets k = some .waiting → c.todo.length ≠ c.d.pieces → s.olderDelivery n o c k = false → d.mode = .localQ →
        d.slotBytes = c.d.bytes → d.roomAtPort = true → ∃ t, exec (.cpymDelivery n k) s = .next t ∧ t.mem = s.mem ∧
          HasOp n { o with body := .copy { c with targets := c.targets.put k (.slot d.tail.idx) } } t ∧
          ((t.ctxAt k c.d.tctx).queue c.d.dq).tail = qadvance d.tail 1 d.cap) ∧
      ∀ i, Tab.find c.targets k = some (.slot i) → c.todo = [] →
        let r := s.targetRow o.core o.ctx c.d k 0 0 0
        s.withdrawing (pairs r) = false → s.opCause o [] r = none → r = [] ∨ s.opReports o (s.slotRow k c i) = [] → ∃ t, exec (.cpymDelivery n k) s = .next t ∧
        t.mem = s.mem.writeBytes (spanPA k (s.ctxAt k c.d.tctx) (d.slotOff i)) (c.buf.readBytes 0 c.d.bytes) ∧
        HasOp n { o with body := .copy { c with targets := c.targets.put k .done } } t ∧
        ((t.ctxAt k c.d.tctx).queue c.d.dq).pmap = d.pmap ||| (1#256 <<< i))) ∧
  (∀ (c n : Nat) (o : EngOp) (r : Tab EngOp) (s : State), s.sxRunning c = none → s.sxWaiting c = (n, o) :: r → s.forkReady n o = true →
    exec (.sparseStart c) s = .next { s with ops := s.ops.put n { o with started := true, since := s.cycle + 4 } }) ∧
  (∀ (c n : Nat) (o : EngOp) (x : SxOp) (s : State), s.sxRunning c = some (n, o, x) →
    let live := s.sxHalted o = false ∧ x.ending = none
    let may := fun i : Nat => s.withdrawing (pairs (x.wordRow i) ++ pairs (s.compRow o)) = false ∧ s.opCause o (x.wordRow i) [] = none
    let away := fun (u : State) (i : Nat) => u.atBank (pairs (x.wordRow i)) = true ∨ ∃ p ∈ pairs (x.wordRow i), u.remote p.1 = true
    (live → o.since ≤ s.cycle → may x.got → x.got < x.asked → ¬ away s x.got →
      (∀ p ∈ pairs (x.wordRow x.got), s.badRange p.1 p.2 = false ∧ p.1 / 4096 ≠ capBase / 4096) →
      exec (.metadataArrival c) s = .next { s with ops := s.ops.put n { o with body := .sparse { x with
        got := x.got + 1, words := x.words ++ [leNat ((pairs (x.wordRow x.got)).flatMap (fun p => s.mem.readBytes p.1 p.2))] } } }) ∧
    (∀ s', live → o.since ≤ s.cycle → may x.got → may x.asked → x.got < x.asked → away s x.got →
      x.asked < (if x.run then x.count else (x.count + 63) / 64) → x.asked - x.got + x.words.length < 16 →
      s.payEngine n o (pairs (x.wordRow x.asked)) = .ok s' →
      let u := s'.useRow (x.wordRow x.asked)
      exec (.metadataArrival c) s = .next { u with ops := u.ops.put n { o with body := .sparse { x with asked := x.asked + 1 } } } ∧ u.mem = s.mem) ∧
    (∀ v ws j l, live → o.turn ≠ some s.cycle → x.words = v :: ws → x.stop = false → x.run = false → x.rate = 1 → x.rqen = false → x.oslot = some l → l.n + 1 < x.g →
      j < 64 → x.pos / 64 * 64 + j < x.count → x.pos ≤ x.pos / 64 * 64 + j → v.testBit j = true →
      (∀ i < j, x.pos ≤ x.pos / 64 * 64 + i → v.testBit i = false) →
      let e := x.cbase + x.pos / 64 * 64 + j
      e ≤ x.top → ∃ t y, exec (.sparseEmit c) s = .next t ∧
        t.mem = s.mem.writeBytes (s.sxSlotPA o x.oq l.idx + l.n * x.ebytes) (leBytes e x.ebytes) ∧
        HasOp n { o with turn := some s.cycle, body := .sparse y } t ∧ y.cnt = x.cnt + 1 ∧ y.pos = x.pos / 64 * 64 + j + 1 ∧ y.oslot = some { l with n := l.n + 1 })) ∧
  ∀ (c n : Nat) (o : EngOp) (x : SxOp) (s : State), s.sxFinishing c = some (n, o, x) → x.oslot = none → x.rslot = none →
    (x.ending = none → exec (.sparseFinish c) s = .next { s with ops := s.ops.put n { o with body := .sparse { x with ending := some s.cycle } } }) ∧
    ∀ k, x.ending = some k → k + 4 ≤ s.cycle → s.withdrawing (pairs (s.compRow o)) = false → s.opCause o [] [] = none →
      ∃ t, exec (.sparseFinish c) s = .next t ∧ t.ops = s.ops.drop n ∧ (∀ c k, t.ctxAt c k = s.ctxAt c k) ∧
        ∀ a, o.comp = some a → (s.mem.wf = true → t.mem.readBytes (a + 8) 8 = leBytes x.cnt 8 ∧
          t.mem.readBytes a 8 = leBytes ((leNat (s.mem.readBytes a 8) + o.inc) % 2 ^ 64) 8) ∧
          ∀ y, y < a ∨ a + 16 ≤ y → t.mem.read y = s.mem.read y

/-! ## The matrix array -/

/-- The beat operations of R287, each where its checks pass; `k` is its bank. -/
def Obligations.MatrixArray : Prop :=
  (∀ (w : XForm) (s : State), s.guard w.g = true →
    let b := w.bank.toNat
    let k := s.core.arr.bank b
    let q := w.q.toNat
    let fmt := w.fmt.toNat
    let close := w.flags.getLsbD 0
    (s.data.bind.array = false → TrapsAt (.mnop w) .illegal s ∧ TrapsAt (.mpa w) .illegal s ∧ TrapsAt (.mpsh w) .illegal s ∧
      TrapsAt (.macc w) .illegal s ∧ TrapsAt (.mclr w) .illegal s ∧ TrapsAt (.mshf w) .illegal s ∧ TrapsAt (.mdrn w) .illegal s ∧
      TrapsAt (.mlda w) .illegal s) ∧
    (s.data.bind.array = true → s.core.arr.staging = none → TrapsAt (.macc w) .format s) ∧
    (s.data.bind.array = true → s.bun.holds = [] →
      exec (.mnop w) s = .next s ∧
      exec (.mclr w) s = .next (s.modArr (fun a => a.setBank b { k with acc := 0, bad := [] })) ∧
      (∃ k', exec (.mshf w) s = .next (s.modArr (fun a => a.setBank b k')) ∧ Shifted k k' (fun _ _ => 0) ∧ k'.drain = k.drain ∧ k'.load = k.load) ∧
      (∀ st, s.core.arr.staging = some st → (st.fa = 9 ∨ st.fa = 10 → w.cell = 0) →
        exec (.macc w) s = .next (s.modArr (fun a => { a with beats := a.beats ++ [⟨6, b, w.cell.toNat, st⟩] }))) ∧
      (∀ n z, SliceReady w.a.toNat w.slice.toNat n z true s → SliceReady w.b.toNat w.slice.toNat n z false s → (n = 16 → w.cell = 0) →
        w.flags.getLsbD 1 = false → ∃ (bn : Bun) (st : Staging),
          exec (.mpsh w) s = .next ((s.modBun (fun _ => bn)).modArr (fun a => { a with next := a.next ++ [(2, st)] })) ∧
          exec (.mpa w) s = .next ((s.modBun (fun _ => bn)).modArr (fun a => { a with
            next := a.next ++ [(2, st)], beats := a.beats ++ [⟨6, b, w.cell.toNat, st⟩] })) ∧
          bn.holds = [] ∧ bn.apps = s.bun.apps ∧ bn.pops = s.bun.pops ++ (if close then
            [((s.stream w.a.toNat).qn, w.slice.toNat / ((s.stream w.a.toNat).k / n) + 1),
             ((s.stream w.b.toNat).qn, w.slice.toNat / ((s.stream w.b.toNat).k / n) + 1)] else []) ∧
          st.fa = (s.stream w.a.toNat).fmt ∧ st.fb = (s.stream w.b.toNat).fmt ∧ st.ea = List.replicate 32 127 ∧ st.eb = List.replicate 32 127 ∧
          ∀ l < 32, ∀ j < n, (st.a.getD l []).getD j 0 = SliceElem w.a.toNat w.slice.toNat n z l j s ∧
            (st.b.getD l []).getD j 0 = SliceElem w.b.toNat w.slice.toNat n z l j s) ∧
      (∀ t, (pushIssue w w.cell.toNat s = .ok t ∨ pushIssue w 0 s = .ok t) → t.bun.holds = [] →
        fetchCheck w.a.toNat w.slice.toNat (w.flags.getLsbD 1) t = .ok t → fetchCheck w.b.toNat w.slice.toNat (w.flags.getLsbD 1) t = .ok t →
        ∃ st, (pushIssue w 0 s = .ok t → exec (.mpsh w) s = .next (((t.fetching w.a.toNat).fetching w.b.toNat).modArr (fun a =>
            { a with next := a.next ++ [(2, st)] }))) ∧
          (pushIssue w w.cell.toNat s = .ok t → exec (.mpa w) s = .next (((t.fetching w.a.toNat).fetching w.b.toNat).modArr (fun a =>
            { a with next := a.next ++ [(2, st)], beats := a.beats ++ [⟨6, b, w.cell.toNat, st⟩] })))) ∧
      (fmt ≤ 4 → (∀ i ∈ k.bad, i < 896) → ∀ o t, DrainsInto w o s t → o.data.wf = true →
        let z := if fmt = 1 ∨ fmt = 2 then 2 else 4
        let off := fun row c : Nat => TileByte o.groups z (4 * (o.groups - o.m - 1) + row) c
        ∃ (k' : Bank) (d : Memory), Shifted k k' (fun _ _ => 0) ∧ k'.load = k.load ∧
          (∀ row < 4, ∀ c < 32, d.readBytes (off row c) z = leBytes (DrainAs fmt (k.at (28 + row) c)) z) ∧
          (∀ x, (∀ row < 4, ∀ c < 32, x < off row c ∨ off row c + z ≤ x) → d.read x = o.data.read x) ∧
          (o.m + 1 < o.groups → close = false → k'.drain = some { o with m := o.m + 1, data := d } ∧
            exec (.mdrn w) s = .next (t.modArr (fun a => a.setBank b k'))) ∧
          (o.m + 1 = o.groups ∨ close = true → k'.drain = none ∧ exec (.mdrn w) s = .next ((t.modArr (fun a => a.setBank b k')).put
            (.slot q o.idx (tagByte (if fmt = 3 then 5 else if fmt = 4 then 11 else fmt) 0) (d.readBytes 0 (o.groups * 128 * z))) 4))) ∧
      (∀ o, k.drain = some o → o.q ≠ q ∨ o.fmt ≠ fmt → TrapsAt (.mdrn w) .format s) ∧
      (k.drain = none → (s.queue q).ssz ≤ 15 → 8 * (if fmt = 1 ∨ fmt = 2 then 1 else 2) < ((s.queue q).ssz + 1) * 2 → TrapsAt (.mdrn w) .format s) ∧
      (fmt = 0 ∨ fmt = 4 → k.load = none → (∀ i ∈ k.bad, i < 896) → (s.queue q).mode = .localQ → 0 < (s.queue q).used →
        (s.queue q).pmap.getLsbD ((s.queue q).at 0) = true → (s.queue q).ssz ≤ 7 →
        s.badRange (s.slotPA q 0) (s.queue q).slotBytes = false →
        (∀ i ≤ (s.queue q).ssz, tagOk (s.tagAt (s.slotPA q 0 + 512 * i)) (if fmt = 4 then 11 else 0) 0 = true) →
        let g := (s.queue q).ssz + 1
        let v := fun r c : Nat => leNat (s.mem.readBytes (s.slotPA q 0 + TileByte g 4 (4 * (g - 1) + r) c) 4)
        ∃ (bn : Bun) (k' : Bank), exec (.mlda w) s = .next ((s.modBun (fun _ => bn)).modArr (fun a => a.setBank b k')) ∧ bn.holds = [] ∧
          bn.pops = s.bun.pops ++ (if g = 1 ∨ close = true then [(q, 1)] else []) ∧
          k'.load = (if g = 1 ∨ close = true then none else some { q := q, idx := (s.queue q).at 0, fmt := fmt, m := 1 }) ∧
          Shifted k k' (fun r c => if fmt = 4 then DrainAs 4 (v r c) else v r c)))) ∧
  (∀ (c b : Nat) (e : Beat) (s : State), (s.coreAt c).arr.beats.filter (fun e => e.due == 0) = [e] → e.bank = b → b < 2 →
    let st := e.ops
    let old := (s.coreAt c).arr.bank b
    ∃ t, exec (.matrixAccumulationLanding c) s = .next t ∧ t.mem = s.mem ∧ t.flight = s.flight ∧ (∀ c k, t.ctxAt c k = s.ctxAt c k) ∧
      (t.coreAt c).arr.beats = (s.coreAt c).arr.beats.filter (fun e => e.due != 0) ∧
      (t.coreAt c).arr.bank (1 - b) = (s.coreAt c).arr.bank (1 - b) ∧
      ∀ r < 32, ∀ j < 32,
        let va := (st.a.getD r []).map (fun v => if st.ea.getD r 127 = 255 then FVal.nan else ((fltOf st.fa).value v).scale ((st.ea.getD r 127 : Int) - 127))
        let vb := (st.b.getD j []).map (fun v => if st.eb.getD j 127 = 255 then FVal.nan else ((fltOf st.fb).value v).scale ((st.eb.getD j 127 : Int) - 127))
        let acc := fp32.value (old.at r j)
        let new := ((t.coreAt c).arr.bank b).at r j
        (st.fa ≠ 9 → st.fa ≠ 10 →
          (e.cell = 0 → new = fp32.round .rne ((va.zip vb).foldl (fun x p => x.add (p.1.mul p.2)) acc) % 2 ^ 32) ∧
          (e.cell = 1 → new = fp32.round .rne ((va.zip vb).foldl (fun x p => x.add (p.1.add p.2.neg).abs) acc) % 2 ^ 32) ∧
          (e.cell = 2 → new = fp32.round .rne ((va.zip vb).foldl (fun x p => x.min (p.1.add p.2)) acc) % 2 ^ 32) ∧
          (e.cell = 3 → new = fp32.round .rne ((va.zip vb).foldl (fun x p => x.max (p.1.add p.2)) acc) % 2 ^ 32)) ∧
        (st.fa = 9 ∨ st.fa = 10 →
          let x := fun f v : Nat => if f = 9 then signed v 8 else (v : Int)
          let ch := resChannels (old.at r j)
          new = resOf (((((st.a.getD r []).zip (st.b.getD j [])).map (fun p => x st.fa p.1 * x st.fb p.2)).sum +
            (crt ch.1 ch.2.1 ch.2.2 : Int)) % resM) % 2 ^ 32)) ∧
  ∀ (c k q i : Nat) (tag : Byte) (bs : List Byte) (p : Pend) (s : State), k < 4 → (s.ctxAt c k).pend = [p] →
    p.due = 0 → p.slot = 9 → p.w = .slot q i tag bs →
    (∀ j, j ≠ k → (s.ctxAt c j).pend = []) → i < 256 →
    let pa := spanPA c (s.ctxAt c k) (((s.ctxAt c k).queue q).slotOff i)
    ∃ t, exec (.drainSlotPresent c) s = .next t ∧ t.mem = s.mem.writeBytes pa bs ∧ (t.ctxAt c k).pend = [] ∧ t.tagAt pa = tag ∧
      ((t.ctxAt c k).queue q).pmap.getLsbD i = true ∧ (t.ctxAt c k).regs = (s.ctxAt c k).regs

/-! ## Events of a core -/

/-- The events of a core's sequencer, each where it is enabled. -/
def Obligations.CoreEvents : Prop :=
  ∀ (c k : Nat) (s : State),
    let y := s.coreAt c
    let x := s.ctxAt c k
    (y.ilock = true → s.coreGang c = none → k = y.issuing → k < 4 → x.ticked = false → x.status ≠ .held → x.land = [] →
      (∀ p ∈ x.pend, p.flaw = 0 ∧ ∃ n v, p.w = .s n v ∨ ∃ m u, p.w = .l n m u) →
      (∀ j, j ≠ k → (s.ctxAt c j).pend = [] ∧ (s.ctxAt c j).land = []) →
      ∃ t, exec (.interlockHold c) s = .next t ∧ t.mem = s.mem ∧ (t.coreAt c).ilock = false ∧ (t.ctxAt c k).ticked = true ∧
        (t.coreAt c).isd = y.isd + 1 ∧ OnlyCtx c k s t ∧
        ((∀ p ∈ x.pend, 2 ≤ p.due) → (t.ctxAt c k).pend = x.pend.map (fun p => { p with due := p.due - 1 }) ∧ (t.ctxAt c k).regs = x.regs) ∧
        ∀ n v p, x.pend = [p] → p.due = 1 → p.w = .s n v → 0 < n → (t.ctxAt c k).pend = [] ∧ (t.ctxAt c k).regs.sreg n = v) ∧
    (∀ f, y.freeze = [f] → y.svcFreeze = [] → y.running = some k → Cleared c k f s →
      CoreStep (.freezeThaw c) c (fun y => { y with freeze := [] }) s) ∧
    (∀ q i, y.freeze = [.absent q i] → y.svcFreeze = [] → y.running = some k → x.now = false → (x.queue q).pmap.getLsbD i = false →
      (x.queue q).mode = .spliceIn → exec (.freezeThaw c) s = .next s) ∧
    (∀ w, x.wait = some w → x.status = .waiting → (∃ q n, w = .slot q n ∨ w = .room q n) → Cleared c k (.wait w) s →
      CtxStep (.waitConditionMet c k) c k (fun x => { x with wait := none, status := .ready }) s) ∧
    (∀ pa b, s.enFenced c k = false → s.targetOf pa = .scratch c → pa / 4096 ≠ capBase / 4096 →
      let v := leNat (s.mem.readBytes pa 8)
      (x.wait = some (.object pa b) → x.status = .waiting → y.running ≠ some k → exec (.completionReread c k) s =
        .next (if b ≤ v then s.modCtx c k (fun x => { x with wait := none, status := .ready }) else s)) ∧
      (x.wait = none → y.running = some k → y.freeze = [.wait (.object pa b)] → CoreStep (.completionReread c k) c
        (fun y => { y with freeze := if b ≤ v then [] else y.freeze }) s)) ∧
    (∀ j, y.running = some k → x.status = .running → 65536 ≤ x.starve → x.atStop = true → y.held = none → x.bind.gang = none →
      x.phase.next = none → y.freeze = [] → j < 4 → j ≠ k → (∃ z, (j, z) ∈ y.ctxs ∧ z.status = .ready ∧ z.preempt = none) →
      ∃ t, exec (.starvationGuard c k) s = .next t ∧ t.mem = s.mem ∧ OnlyCtx c k s t ∧ (t.coreAt c).running = none ∧
        (t.coreAt c).next = (k + 1) % 4 ∧ t.ctxAt c k = { x with status := .ready, starve := 0 }) ∧
    (∀ l, k < 4 → x.bind.isNotify = false → x.bind.notify = [] → x.bind.gang = none → x.bind.nopre = false → x.preempt = none →
      (∀ e ∈ s.own.regions, scratchPA c + x.bind.spanBase ≤ e.1 → e.1 < scratchPA c + x.bind.spanBase + x.bind.spanBytes →
        e.2.owner = x.bind.party ∧ ∀ h ∈ s.own.shares, h.1 = e.1 → h.2 = x.bind.party) →
      Tab.find s.thyme.launches x.bind.lkey = some l → 0 < (s.lq l.src.q).spsize →
      (x.status = .running ∨ x.status = .held ∨ x.status = .ready → CtxStep (.preemptionRequest c k) c k (fun x => { x with preempt := some 0 }) s) ∧
      (x.status = .waiting → CtxStep (.preemptionRequest c k) c k (fun x => { x with preempt := some 0, status := .ready, wait := none }) s)) ∧
    (∀ n, y.running = some k → x.status = .running → y.held = none → x.preempt = some n → max s.thyme.plimit 256 ≤ n → x.finishing = false →
      s.memberState x ≠ some .parked → s.memberState x ≠ some .done →
      ∃ t, exec (.preemptionLimitExpiry c k) s = .next t ∧ t.mem = s.mem ∧ OnlyCtx c k s t ∧
        t.ctxAt c k = { x with status := .held, escalating := true, cause := { x.cause with esc := true } } ∧
        ∀ r, y.replay = some r → r.void = false → ∃ r', (t.coreAt c).replay = some r' ∧ r'.addr = x.pc ∧ r'.bundle = r.bundle ∧ r'.done = r.done ∧
          r'.latch = r.latch ∧ r'.apps = r.apps) ∧
    (k < 4 → y.running = some k → y.svcTimer = some 0 → x.status = .held → y.held = none → x.bind.gang = none →
      ∃ t, exec (.serviceEntry c) s = .next t ∧ t.mem = s.mem ∧ OnlyCtx c 4 s t ∧ (t.coreAt c).held = some k ∧ (t.coreAt c).svcTimer = none ∧
        let z := t.ctxAt c 4
        z.pc = BitVec.ofNat 64 s.mgmt.svcEntry ∧ z.status = .running ∧ z.loops = [] ∧ z.pend = [] ∧ z.land = [] ∧ z.regs = (s.ctxAt c 4).regs) ∧
    (x.escalating = true → (∀ e ∈ y.ctxs, e.1 < k → e.2.escalating = false) → (∀ l ∈ x.land, l.arrived = true) → x.barNo = none →
      x.shadow = [] →
      let b := y.freeBlock k
      let store := scratchPA c + 0x178000
      ((∀ p ∈ x.pend, ∃ n v, p.w = .s n v ∨ ∃ m u, p.w = .l n m u) →
        ∃ t, exec (.escalationDrainComplete c k) s = .next t ∧ OnlyCtx c k s t ∧
          (∀ a, a < store + 512 * b ∨ store + 512 * (b + x.blocks.length) ≤ a → t.mem.read a = s.mem.read a) ∧
          (s.mem.wf = true → ∀ i v, x.blocks[i]? = some v → t.mem.readBytes (store + 512 * (b + i)) 512 = leBytes v 512) ∧
          t.ctxAt c k = { x with escalating := false, vbase := b, replay := if y.running = some k then y.replay else x.replay } ∧
          (y.running = some k → (t.coreAt c).running = none ∧ (t.coreAt c).replay = none ∧ (t.coreAt c).next = (k + 1) % 4)) ∧
      ∀ p q i tag bs, x.pend = [p] → p.w = .slot q i tag bs → p.slot < 10 → i < 256 → x.land = [] →
        (∀ r, y.replay = some r ∨ x.replay = some r → r.pops = none) → ∃ t, exec (.escalationDrainComplete c k) s = .next t ∧
        t.mem = s.mem.writeBytes (spanPA c x ((x.queue q).slotOff i)) bs ∧ (t.ctxAt c k).pend = [] ∧
        ((t.ctxAt c k).queue q).pmap.getLsbD i = true ∧ (t.ctxAt c k).regs = x.regs)

/-- PHASE_SNAPSHOT and the steps of PHASE_ROLLBACK for a context outside a gang. -/
def Obligations.PhaseEvents : Prop :=
  ∀ (c k : Nat) (s : State),
    let x := s.ctxAt c k
    (∀ base n, x.phase.next = some (base, n) → x.pend = [] → x.land = [] → s.accessesOut c k = false → x.phase.frame ≤ 1 → 1 ≤ x.frames.length →
      let f := 1 - x.phase.frame
      let pa := spanPA c x (x.bind.snap + 18944 * f)
      ∃ t fr, exec (.phaseSnapshot c k) s = .next t ∧ OnlyCtx c k s t ∧
        (∀ a, a < pa ∨ pa + 18944 ≤ a → t.mem.read a = s.mem.read a) ∧
        (s.mem.wf = true → (∀ r < 32, (∀ j < 128, t.mem.readBytes (pa + 128 * j + 4 * r) 4 = leBytes (laneAt (x.regs.lreg r).toNat j) 4) ∧
          t.mem.readBytes (pa + 0x4080 + 8 * r) 8 = leBytes (x.regs.sreg r).toNat 8) ∧
          ∀ d < 16, t.mem.readBytes (pa + 0x4680 + 32 * d) 32 = leBytes (x.regs.dreg d).toNat 32) ∧
        let z := t.ctxAt c k
        z.frames[f]? = some fr ∧ fr.regs = x.regs ∧ fr.pc = x.pc ∧ fr.sig = x.sig ∧ fr.loops = x.loops ∧ fr.out = base ∧ fr.blocks = n ∧
          fr.input = x.phase.reg ∧ (∀ q, (Tab.get {} fr.qs q).popped = 0) ∧ z.regs = x.regs ∧ z.pc = x.pc ∧
          z.phase = { x.phase with out := base, blocks := n, frame := f, input := x.phase.reg, reg := [], next := none }) ∧
    (∀ e, x.phase.rollback = some e → x.bind.gang = none →
      let frame := spanPA c x (x.bind.snap + 18944 * x.phase.frame)
      (∀ f, x.phase.failed = false → x.frames[x.phase.frame]? = some f → s.badRange frame 18944 = false → x.phase.refetched = false →
        f.input = [] → (∀ o ∈ s.ops, o.2.core ≠ c ∨ o.2.ctx ≠ k) →
        ∃ t, exec (.phaseRollback c k) s = .next t ∧ t.mem = s.mem ∧ OnlyCtx c k s t ∧
          let z := t.ctxAt c k
          (∀ r < 32, (∀ j < 128, laneAt (z.regs.lreg r).toNat j = leNat (s.mem.readBytes (frame + 128 * j + 4 * r) 4)) ∧
            (0 < r → z.regs.sreg r = BitVec.ofNat 64 (leNat (s.mem.readBytes (frame + 0x4080 + 8 * r) 8)))) ∧
            (∀ d < 16, z.regs.dreg d = BitVec.ofNat 256 (leNat (s.mem.readBytes (frame + 0x4680 + 32 * d) 32))) ∧
            ((∀ e < 6, (leNat (s.mem.readBytes (frame + 0x41C0 + 32 * e) 32)).testBit 208 = false) → z.loops = []) ∧
            z.regs.p = f.regs.p ∧ z.pc = f.pc ∧ z.sig = f.sig ∧ z.pend = [] ∧ z.land = [] ∧ z.wait = none ∧
            z.phase = { x.phase with out := f.out, blocks := f.blocks, input := [], reg := [], next := none, refetched := true } ∧
            (∀ q d, Tab.find f.qs q = some d → d.mode ≠ .spliceIn →
              z.queue q = { d.ofWord (leNat (s.mem.readBytes (frame + 0x4280 + 64 * q) 64)) with pinned := (x.queue q).pinned }) ∧
            (∀ m g a, Tab.find t.flight m = some g → g.core = c → g.ctx = k → g.msg = .access a → a.dst = .none)) ∧
      (∀ f, x.phase.failed = false → x.frames[x.phase.frame]? = some f → s.badRange frame 18944 = false → x.phase.refetched = true →
        (∀ o ∈ s.ops, o.2.core ≠ c ∨ o.2.ctx ≠ k) →
        ∃ t, exec (.phaseRollback c k) s = .next t ∧ t.mem = s.mem ∧ OnlyCtx c k s t ∧ t.mgmt.errors = s.mgmt.errors ++ [(c, k, e, x.addr)] ∧
          (t.ctxAt c k).cause.rollbk = (if x.cause.rollbk = 65535 then 65535 else x.cause.rollbk + 1) ∧ (t.ctxAt c k).regs = x.regs ∧
          (t.ctxAt c k).phase = { x.phase with rollback := none, refetched := false } ∧
          ((s.coreAt c).running = some k → Freeze.rollback ∉ (t.coreAt c).freeze)) ∧
      (x.phase.failed = true ∨ x.frames[x.phase.frame]? = none ∨ s.badRange frame 18944 = true →
        ∃ t, exec (.phaseRollback c k) s = .next t ∧ t.mem = s.mem ∧ OnlyCtx c k s t ∧
          let z := t.ctxAt c k
          z.status = .held ∧ z.escalating = true ∧ z.cause.cause = 9 ∧ z.cause.slot = 15 ∧ z.cause.esc = true ∧ z.phase.rollback = none ∧
            z.regs = x.regs))

/-! ## Splice messages, barriers and gangs -/

/-- The messages, each as it arrives. -/
def Obligations.MessageEvents : Prop :=
  (∀ (n ssz : Nat) (a b : QEnd) (p : Word) (s : State), Arrives n (.spliceReq a b ssz p) a b s → s.fixedUp a.core b.core = true →
    s.fixedUp b.core a.core = true →
    let x := s.ctxAt b.core b.ctx
    let d := s.qEnd b
    let fits := x.status ≠ .free ∧ d.mode = .localQ ∧ d.ssz = ssz
    let own := s.covers p (spanPA b.core x (d.base * 512)) (d.cap * d.slotBytes)
    (fits → own = true →
      ∃ t, exec (.spliceRequest n) s = .next t ∧ Posts (.spliceAns b a true false d.head d.tail d.capm1 d.adv) s t ∧
        EndBecomes b { d with mode := .spliceIn, pcore := a.core % 96, pdie := a.core / 96, pctx := a.ctx, pq := a.q, failing := false,
                              headDue := false, nextHead := s.cycle } s t) ∧
    (¬ (fits ∧ own = true) →
      ∃ t, exec (.spliceRequest n) s = .next t ∧ Posts (.spliceAns b a false (!own) {} {} 0 0) s t ∧ EndBecomes b d s t)) ∧
  (∀ (n cap adv : Nat) (a b : QEnd) (h tl : QPtr) (own : Bool) (s : State), 1 ≤ adv → (s.qEnd a).mode = .spliceOut → (s.qEnd a).partner = b →
    (s.qEnd a).pend = true →
    (Arrives n (.spliceAns b a true own h tl cap adv) b a s → ∃ t d, exec (.spliceAnswer n) s = .next t ∧ EndBecomes a d s t ∧
      MirrorIs { s.qEnd a with tail := tl } d h false ∧ d.rcapw = cap ∧ d.rcapm1 + 1 = adv ∧ d.pend = false) ∧
    (Arrives n (.spliceAns b a false own h tl cap adv) b a s → ∃ t, exec (.spliceAnswer n) s = .next t ∧
      EndBecomes a { s.qEnd a with refused := true, ownf := own, pend := false } s t)) ∧
  (∀ (n i : Nat) (f : Flight) (a b : QEnd) (tag : Byte) (bs : List Byte) (bad : List Nat) (s : State), Tab.find s.flight n = some f →
    f.msg = .append a b i tag bs bad → f.admitted = true → s.mayPerform n f = true → b.core < 1000 → i < 256 →
    let d := s.qEnd b
    (d.mode = .spliceIn → d.partner = a → i ∈ d.pinned → d.pmap.getLsbD i = false → exec (.remoteAppend n) s = .next s) ∧
    (d.mode = .spliceIn → d.partner = a → i ∉ d.pinned → d.pmap.getLsbD i = false → d.tail.idx = i → ∃ t, exec (.remoteAppend n) s = .next t ∧
      t.flight = s.flight.drop n ∧ t.mem = s.mem.writeBytes (spanPA b.core (s.ctxAt b.core b.ctx) (d.slotOff i)) bs ∧
      (t.qEnd b).pmap = d.pmap ||| (1#256 <<< i) ∧ (t.qEnd b).tail = qadvance d.tail 1 d.cap ∧ (t.qEnd b).head = d.head ∧
      (∀ k ∈ bad, spanPA b.core (s.ctxAt b.core b.ctx) (d.slotOff i) / 32 + k ∈ t.bad) ∧
      t.tagAt (spanPA b.core (s.ctxAt b.core b.ctx) (d.slotOff i)) = tag) ∧
    (d.mode = .spliceIn → d.partner = a → d.pmap.getLsbD i = true → ∃ t, exec (.remoteAppend n) s = .next t ∧ t.flight = s.flight.drop n ∧
      EndBecomes b { d with failing := true } s t) ∧
    (d.mode ≠ .spliceIn → exec (.remoteAppend n) s = .next { s with flight := s.flight.drop n })) ∧
  (∀ (c k q : Nat) (s : State),
    let d := (s.ctxAt c k).queue q
    d.mode = .spliceIn → d.nextHead ≤ s.cycle → (d.headDue = true ∨ d.nextHead + 1016 ≤ s.cycle) → d.popped = 0 → d.pinned = [] →
    d.cuts = [] →
    ∃ t, exec (.headMessageSend c k q) s = .next t ∧ Posts (.head ⟨c, k, q⟩ d.partner d.head d.failing) s t ∧
      EndBecomes ⟨c, k, q⟩ { d with headDue := false, nextHead := s.cycle + 8 } s t) ∧
  (∀ (n : Nat) (a b : QEnd) (p : QPtr) (fl : Bool) (s : State), (s.qEnd a).mode = .spliceOut → (s.qEnd a).partner = b →
    (Arrives n (.head b a p fl) b a s → s.mayGo n = true →
      (∃ t d, exec (.headMessage n true) s = .next t ∧ t.flight = s.flight.drop n ∧ EndBecomes a d s t ∧ MirrorIs (s.qEnd a) d p fl) ∧
      ∃ t, exec (.headMessage n false) s = .next t ∧ t.flight = s.flight.drop n ∧ EndBecomes a (s.qEnd a) s t) ∧
    (Arrives n (.headAns b a p fl) b a s → ∃ t d, exec (.headRequestAnswer n) s = .next t ∧ EndBecomes a d s t ∧
      MirrorIs (s.qEnd a) d p (fl || (s.qEnd a).failing) ∧ d.pend = false)) ∧
  (∀ (n : Nat) (a b : QEnd) (s : State),
    let d := s.qEnd b
    (Arrives n (.unsplice a b d.tail.bits) a b s → d.mode = .spliceIn → d.partner = a → ∃ t, exec (.unspliceMarker n) s = .next t ∧
      t.flight = s.flight.drop n ∧ EndBecomes b { d with mode := .localQ, headDue := false, cuts := [] } s t) ∧
    (Arrives n (.headReq a b) a b s → d.popped = 0 → d.pinned = [] → ∃ t, exec (.headRequest n) s = .next t ∧
      Posts (.headAns b a d.head d.failing) s t ∧ EndBecomes b d s t)) ∧
  (∀ (n : Nat) (f : Flight) (v : Word) (bar sent : Bool) (s : State), Tab.find s.flight n = some f → f.msg = .arrive v bar sent →
    s.fencePredsDone n f 31 (barScope v) = true → s.olderArrival n f v = false →
    let key := barKey f.core v
    let p := ((s.bar key).phase + 1) % 2 ^ 32
    (4 ≤ barScope v → sent = false → n < s.seq → ∃ t, exec (.barrierArrival n) s = .next t ∧ t.bars = s.bars ∧ t.mem = s.mem ∧
      Tab.find t.flight n = some { f with msg := .arrive v bar true }) ∧
    (barScope v < 4 ∨ sent = true → s.markersDone n = true → ∃ t, exec (.barrierArrival n) s = .next t ∧ Counted key s t ∧ t.mem = s.mem ∧ t.own = s.own ∧
      (∀ e ∈ s.cores, (s.bar key).arrived + 1 = (s.bar key).expect → Core.awaits e.1 e.2 key = true →
        ∃ m g, Tab.find t.flight m = some g ∧ g.core = e.1 ∧ g.msg = .release key p) ∧
      (bar = false → t.cores = s.cores) ∧
      (bar = true → (s.coreAt f.core).freeze = [.bar (.object n 0)] → (t.coreAt f.core).freeze = [.bar (.barrier v p)] ∧
        t.ctxAt f.core f.ctx = { s.ctxAt f.core f.ctx with barNo := some (n, p) }))) ∧
  (∀ (n key p : Nat) (f : Flight) (s : State), Tab.find s.flight n = some f → f.msg = .release key p →
    let y := s.coreAt f.core
    ((∀ w, Freeze.bar w ∉ y.freeze) → ∃ t, exec (.barrierRelease n) s = .next t ∧ t.mem = s.mem ∧ t.flight = s.flight.drop n ∧
      (∀ k v b, (s.ctxAt f.core k).wait = some (.barrier v b) → barKey f.core v = key → Reached p b → (s.ctxAt f.core k).status = .waiting →
        t.ctxAt f.core k = { s.ctxAt f.core k with wait := none, status := .ready }) ∧
      ∀ v b, y.freeze = [.wait (.barrier v b)] → barKey f.core v = key → Reached p b → (t.coreAt f.core).freeze = []) ∧
    ∀ k m d v x l, y.ctxs = [(k, x)] → y.freeze = [.bar (.barrier v p)] → barKey f.core v = key → x.barNo = some (m, p) → x.wait = none →
      x.land = [l] → l.flight = m → l.w = .s d 0 → 0 < d → ∃ t, exec (.barrierRelease n) s = .next t ∧ t.mem = s.mem ∧
        (t.coreAt f.core).freeze = [] ∧ (t.ctxAt f.core k).barNo = none ∧ (t.ctxAt f.core k).land = [] ∧
        (t.ctxAt f.core k).regs.sreg d = BitVec.ofNat 64 p) ∧
  ∀ (n : Nat) (g : Gang) (l : Nat × Nat) (r : List (Nat × Nat)) (s : State), Tab.find s.gangs n = some g → g.members = l :: r →
    (g.members.map (fun m => m.1)).Nodup →
    ((s.coreAt l.1).freeze = [.giss] → (∀ st ∈ g.states.drop 1, st = .parked) →
      ∃ t h, exec (.gissHoldEnd n) s = .next t ∧ t.mem = s.mem ∧ (t.coreAt l.1).freeze = [] ∧ t.ctxAt l.1 l.2 = s.ctxAt l.1 l.2 ∧
        Tab.find t.gangs n = some h ∧ h.members = g.members ∧ h.states = g.states.map (fun _ => .broadcast) ∧ h.delay = 3 ∧
        (g.comp ≠ 0 → ∃ o, h.owed = g.owed ++ [o] ∧ o.desc = g.comp) ∧
        ∀ m ∈ r, (t.coreAt m.1).running = some m.2 ∧
          let z := t.ctxAt m.1 m.2
          let x := s.ctxAt l.1 l.2
          z.status = .running ∧ z.pc = x.pc ∧ z.loops = x.loops ∧ z.regs = { (s.ctxAt m.1 m.2).regs with x := x.regs.x }) ∧
    ∀ o os, g.owed = o :: os → s.owedDone g o = true → barScope o.desc ≠ 1 →
      ∃ t, exec (.gangCompletion n) s = .next t ∧ t.mem = s.mem ∧ t.cores = s.cores ∧ Tab.find t.gangs n = some { g with owed := os } ∧
        Counted (barKey l.1 o.desc) s t

/-! ## Launches and tasks -/

/-- The events of the launch and timetable engine, each where it is enabled. -/
def Obligations.LaunchEvents : Prop :=
  (∀ (h die q addr : Nat) (v : Word) (s : State), s.hostPriv h = true →
    let k := 64 * (die % 4) + q % 64
    let l := s.lq k
    (addr % 64 = 0 → l.en = false ∨ 64 ≤ l.recs.length → ∃ t, exec (.lqPush h die q addr) s = .next t ∧ t.mem = s.mem ∧ t.lq k = { l with ovf := true }) ∧
    (∀ b, addr % 64 = 0 → l.en = true → l.recs.length < 64 → s.thymeRead l.asn (s.partyOf 2 l.asn.toNat) addr 64 = some b →
      ∃ t r, exec (.lqPush h die q addr) s = .next t ∧ t.mem = s.mem ∧ t.lq k = { l with recs := l.recs ++ [r] } ∧ r.bits = b ∧ r.q = k ∧ r.addr = addr) ∧
    (v.toNat % 64 ≠ 0 → v.getLsbD 7 = true → ∃ t, exec (.lqControlWrite h die q v) s = .next t ∧ t.mem = s.mem ∧ t.lq k = { l with ovf := false })) ∧
  (∀ (n a : Nat) (rs : List (Nat × Nat)) (asn : BitVec 16) (p : Word) (f : Flight) (s : State), Tab.find s.flight n = some f →
    f.msg = .launch a rs asn p none → s.mayPerform n f = true → s.forkFree n f.core f.ctx = true → s.cutOff f = false →
    let b := leNat (rs.flatMap (fun r => s.mem.readBytes r.1 r.2))
    let q := 64 * (b / 2 ^ 82 % 4) + b / 2 ^ 76 % 64
    let l := s.lq q
    ∃ t st, exec (.homeAccess n) s = .next t ∧ Tab.find t.flight n = some { f with msg := .launch a rs asn p (some st) } ∧ t.mem = s.mem ∧
      t.cores = s.cores ∧ (l.en = false ∨ 64 ≤ l.recs.length → st = 1) ∧ (l.en = true → l.recs.length < 64 → l.asn ≠ asn → st = 2) ∧
      (l.en = true → l.recs.length < 64 → l.asn = asn → st = if recordOk b then 0 else 3) ∧
      (t.lq q).recs = if st = 0 then l.recs ++ [⟨b, p, q, a⟩] else l.recs) ∧
  (∀ (die q : Nat) (r : LRec) (rs : List LRec) (s : State),
    let k := 64 * (die % 4) + q % 64
    let asn := (s.lq r.q).asn
    let refuses := fun st : Nat => ∃ t, exec (.launchAcceptance die q) s = .next t ∧ (t.lq k).recs = rs ∧
      t.thyme.launches = s.thyme.launches ∧ Ends st s t ∧ (r.bits / 2 ^ 256 % 2 ^ 64 = 0 → r.bits / 2 ^ 192 % 2 ^ 64 = 0 → r.bits.testBit 86 = false →
        t.mem = s.mem ∧ t.own = s.own ∧ t.cores = s.cores)
    let u := s.modLq r.q (fun l => { l with kept := [] })
    (s.lq k).recs = r :: rs → s.thyme.update = false → s.before k = false →
    (u.readRecord r = none → refuses 4) ∧
    ∀ es is, u.readRecord r = some (es, is) →
      ((∃ b ∈ is, u.itemRights asn r.party (itemOf b) = false) → refuses 5) ∧
      ((∀ b ∈ is, u.itemRights asn r.party (itemOf b) = true) →
        ((∃ e ∈ es, e.isGang = true) → u.lendsFit asn es is = false → refuses 1) ∧
        ((∀ e ∈ es, e.isGang = false) ∨ u.lendsFit asn es is = true →
          (u.reserve asn [] es is = none → r.bits.testBit 85 = false → (r.bits.testBit 84 = false → refuses 1) ∧
            (r.bits.testBit 84 = true → (s.lq k).kept = [] → exec (.launchAcceptance die q) s = .next s)) ∧
          ∀ fs, u.reserve asn [] es is = some fs → ∃ t l j, exec (.launchAcceptance die q) s = .next t ∧ (t.lq k).recs = rs ∧
            Tab.find t.thyme.launches s.journal.jnext = some l ∧ l.src = r ∧ l.items = is ∧ l.started = false ∧ l.prio = (s.lq r.q).prio ∧
            l.asn = asn ∧ l.entries.map (fun e => (e.bits, e.hdr, e.args)) = fs.map (fun e => (e.bits, e.hdr, e.args)) ∧ l.party ∈ t.own.live ∧
            (∀ e ∈ l.entries, ∀ p ∈ e.places, p.party ∈ t.own.live) ∧ t.journal.pend = s.journal.pend ++ [j] ∧ j.ty = 1))) ∧
  (∀ (lk : Nat) (l : Launch) (s : State), Tab.find s.thyme.launches lk = some l → s.tick < s.cycle / 64 →
    let u := s.thyme.update
    let pre := u = true ∨ ∃ e ∈ l.entries, e.st = .saved
    let period := l.src.bits / 2 ^ 96 % 2 ^ 32
    let late := fun (f : Nat) (e : Entry) => decide (e.bits / 2 ^ 128 % 2 ^ 32 ≠ 0xFFFFFFFF) &&
      decide (e.frame * period + e.bits / 2 ^ 128 % 2 ^ 32 ≤ f) && (e.st == .released || e.st == .running || e.st == .saved) && !s.issuedDone e
    let hit := fun e : Entry => late l.frame e && e.st != .saved
    let rel := fun (f : Nat) (e : Entry) => if e.st = .idle ∧ e.frame * period + e.bits / 2 ^ 96 % 2 ^ 32 ≤ f then { e with st := .released } else e
    let tally := fun e : Entry => if late (l.frame + 1) e then { e with counted := true } else e
    ∃ t l', exec .packageTick s = .next t ∧ t.tick = s.tick + 1 ∧ t.mem = s.mem ∧ Tab.find t.thyme.launches lk = some l' ∧
      (∀ c k, t.ctxAt c k = { s.ctxAt c k with charge := (t.ctxAt c k).charge }) ∧
      (l.started = false → u = true → l'.started = false ∧ Ticked id l l') ∧
      (l.started = false → u = false → l'.started = true ∧ l'.frame = 0 ∧ Ticked (rel 0) l l') ∧
      (l.started = true → pre ∨ (∃ e ∈ l.entries, late l.frame e = true) → l'.frame = l.frame ∧ l'.sticks = l.sticks + l.entries.countP hit ∧
        (pre → l'.pticks = l.pticks + 1) ∧ (¬ pre → l'.pticks = l.pticks) ∧
        Ticked (fun e => if hit e then { e with lateTicks := e.lateTicks + 1 } else e) l l') ∧
      (l.started = true → ¬ pre → (∀ e ∈ l.entries, late l.frame e = false) →
        let step := if l.entries.any (late (l.frame + 1)) then id else rel (l.frame + 1)
        let new := fun e : Entry => late (l.frame + 1) (step e) && !e.counted
        l'.frame = l.frame + 1 ∧ l'.sticks = l.sticks ∧ l'.pticks = l.pticks ∧ l'.sevents = l.sevents + l.entries.countP new ∧
          (l'.slipped = true ↔ l.slipped = true ∨ ∃ e ∈ l.entries, new e = true) ∧ Ticked (fun e => tally (step e)) l l')) ∧
  (∀ (lk ix : Nat) (l : Launch) (e : Entry) (s : State), HasEntry lk ix l e s → e.st = .released → s.thyme.update = false → l.items = [] →
    (∀ p, e.bits / 2 ^ 160 % 4 = 0 → e.places = [p] → MayStart p s → ∃ t, exec (.dispatch lk ix) s = .next t ∧ (NoLines s → t.mem = s.mem) ∧
      OnlyCtx p.core p.ctx s t ∧ FreshTask l e p 0 none t ∧
      (let e' := { e with st := .running, claims := [] }; HasEntry lk ix { l with entries := l.entries.set ix e' } e' t) ∧
      (1 ≤ e.hdr / 2 ^ 64 % 2 ^ 32 → e.hdr / 2 ^ 64 % 2 ^ 32 ≤ 4096 →
        Tab.find t.own.regions (scratchPA p.core + p.span) = some { base := scratchPA p.core + p.span, sz := 0, owner := p.party })) ∧
    (ix < 4096 → e.bits / 2 ^ 160 % 4 ≠ 0 → 2 ≤ e.places.length → (e.places.map (fun p => p.core)).Nodup →
      (∀ p ∈ e.places, MayStart p s ∧ (s.coreAt p.core).running = none) → (∀ i < 4, e.hdr / 2 ^ (768 + 64 * i) % 2 ^ 64 = 0) →
      let n := 4096 * lk + ix
      ∃ t g, exec (.gangStart n) s = .next t ∧ (NoLines s → t.mem = s.mem) ∧ Tab.find t.gangs n = some g ∧ g.members = e.places.map (fun p => (p.core, p.ctx)) ∧
        g.states = e.places.map (fun _ => .detached) ∧ g.launch = l.party ∧ g.started = true ∧
        ∀ m p, e.places[m]? = some p → FreshTask l e p m (some n) t)) ∧
  (∀ (c k : Nat) (s : State),
    let x := s.ctxAt c k
    x.bind.isNotify = false → x.bind.gang = none → x.bind.notify = [] →
    (x.finishing = true → x.status = .running → x.async = [] → s.settled c k = false → s.canSettle c k = true → x.bind.array = false →
      (∀ q, (x.queue q).mode = .localQ ∨ (x.queue q).mode = .disabled) → ∀ p n v, x.pend = [p] → p.w = .s n v → p.slot < 10 → x.land = [] → 0 < n →
      ∃ t, exec (.doneFinish c k) s = .next t ∧ t.mem = s.mem ∧ OnlyCtx c k s t ∧ (t.ctxAt c k).pend = [] ∧ (t.ctxAt c k).regs.sreg n = v ∧
        (t.ctxAt c k).status = .running) ∧
    (∀ l e, HasEntry x.bind.lkey x.bind.entryIx l e s →
      (x.finishing = true → x.status = .running → x.async = [] → s.settled c k = true → s.canEnd c k = true → s.spanLent c k = [] → s.spanBusy c k = false →
        (s.coreAt c).running = some k →
        ∃ t, exec (.doneFinish c k) s = .next t ∧ t.ctxAt c k = { act := x.act } ∧ (t.coreAt c).running = none ∧ (t.coreAt c).next = (k + 1) % 4 ∧
          (∀ h ∈ t.own.shares, h.2 ≠ x.bind.party) ∧ Finished x.bind.lkey x.bind.entryIx l e .done t) ∧
      (k < 4 → x.status ≠ .free → (∀ o ∈ s.ops, o.2.core ≠ c ∨ o.2.ctx ≠ k) → ∃ t, exec (.taskKill c k) s = .next t ∧ t.mem = s.mem ∧
        (t.ctxAt c k).status = .free ∧ (∃ d ∈ t.own.dead, d.party = x.bind.party ∧ d.launch = s.launchOf x.bind.party) ∧ Finished x.bind.lkey x.bind.entryIx l e .lost t ∧
        ∃ l', Tab.find t.thyme.launches x.bind.lkey = some l' ∧ l'.killed = true))) ∧
  (∀ (c k : Nat) (s : State),
    let x := s.ctxAt c k
    x.bind.isNotify = true → x.finishing = true → x.status = .running → x.async = [] → s.canSettle c k = true → x.pend = [] → x.land = [] →
    (∀ q, (x.queue q).mode = .localQ ∨ (x.queue q).mode = .disabled) → x.bind.phaseBound = false → x.notifies = [] →
    ∃ t, exec (.doneFinish c k) s = .next t ∧ t.mem = s.mem ∧ OnlyCtx c k s t ∧ (t.coreAt c).running = none ∧
      t.ctxAt c k = { x with status := .dormant, finishing := false, atStop := false, replay := none, spacing := 0, starve := 0 }) ∧
  (∀ (lk pa : Nat) (l : Launch) (s : State), Tab.find s.thyme.launches lk = some l → (∀ e ∈ l.entries, e.st = .done ∨ e.st = .lost) →
    s.thymeRange l.asn l.src.party (l.src.bits / 2 ^ 256 % 2 ^ 64) 32 = some [(pa, 32)] → l.src.bits / 2 ^ 256 % 2 ^ 64 ≠ 0 →
    l.src.bits / 2 ^ 192 % 2 ^ 64 = 0 → l.src.bits.testBit 86 = false → (∀ g ∈ s.doomed l, s.touching g.1 g.2 = false) → NoLines s →
    let st := if l.killed then 6 else if 0 < l.lost then 3 else if l.slipped then 2 else 0
    ∃ t, exec (.launchEnd lk) s = .next t ∧ t.thyme.launches = s.thyme.launches.drop lk ∧ Ends st s t ∧ (∀ b ∈ t.bars, b.2.launch ≠ l.party) ∧
      l.party ∉ t.own.live ∧ (∀ e ∈ l.entries, ∀ p ∈ e.places, p.party ∉ t.own.live) ∧ (∀ a, a < pa ∨ pa + 32 ≤ a → t.mem.read a = s.mem.read a) ∧
      (s.mem.wf = true → t.mem.readBytes pa 32 = leBytes (st + l.seq % 2 ^ 20 * 2 ^ 8 + l.sticks % 2 ^ 32 * 2 ^ 32 + l.pticks % 2 ^ 32 * 2 ^ 64 +
        l.donecnt % 2 ^ 32 * 2 ^ 96 + l.lost % 2 ^ 32 * 2 ^ 128 + (l.src.bits / 2 ^ 128 % 2 ^ 32 + 1 - l.lostf.length) % 2 ^ 32 * 2 ^ 160 +
        s.cycle % 2 ^ 64 * 2 ^ 192) 32)) ∧
  ∀ (th n close : Nat) (s : State), Tab.find s.thyme.windows th = some (n, close) → close ≤ s.cycle →
    let e := Tab.get 0 s.routes th
    let a := e / 64 % 2 ^ 52 * 64
    (e.testBit 5 = true → ∃ t, exec (.coalWindowExpiry th) s = .next t ∧ t.thyme.windows = s.thyme.windows.drop th ∧ t.cores = s.cores ∧
      (∀ x, x < a ∨ a + 8 ≤ x → t.mem.read x = s.mem.read x) ∧
      (s.mem.wf = true → t.mem.readBytes a 8 = leBytes ((leNat (s.mem.readBytes a 8) + n) % 2 ^ 64) 8) ∧
      (Tab.get {} t.hosts (e % 32)).irqs = (Tab.get {} s.hosts (e % 32)).irqs + 1) ∧
    (e.testBit 5 = false → ∃ t, exec (.coalWindowExpiry th) s = .next t ∧ t.thyme.windows = s.thyme.windows.drop th ∧ t.mem = s.mem)

/-! ## Saved tasks, wear and lifetime -/

/-- A task outside a gang, without notify contexts, saved and restored. The order of the parts of a saved state in the pool rests on the model's
choice (log entry 43). -/
def Obligations.SaveAndRestore : Prop :=
  (∀ (c k : Nat) (l : Launch) (e : Entry) (s : State),
    let x := s.ctxAt c k
    let lk := x.bind.lkey
    let ix := x.bind.entryIx
    let n := s.saveKey
    let base := scratchPA c + x.bind.spanBase
    let len := (x.bind.spanBytes + 4095) / 4096 * 4096
    let bytes := 20480 + len + 128 * x.bind.privBytes + (if x.bind.array then 32768 else 0) + (if x.bind.latchUse then 32768 else 0) +
      (if x.replay.isSome || (s.coreAt c).replay.isSome then 12288 else 0)
    Alone c k s → HasEntry lk ix l e s →
    (∀ at_, x.status = .ready → x.preempt.isSome = true → x.finishing = false → x.phase.rollback = none → x.pend = [] → x.land = [] → x.shadow = [] →
      (∀ q ∈ x.q, q.2.mode = .localQ ∨ q.2.mode = .disabled) → (∀ w ∈ (s.coreAt c).l1, w.2.of x.bind.asn = false) → s.together c k = [(c, k)] →
      s.saveRoom false l.src.q [(c, k)] = some (true, [at_]) → (at_ + bytes ≤ scratchPA c ∨ scratchPA c + 0x180000 ≤ at_) → s.mem.wf = true →
      ∃ t v, exec (.contextSave c k) s = .next t ∧ KeepsOthers c k s t ∧ Tab.find t.thyme.saved n = some v ∧ v.base = at_ ∧
        v.ctx.pc = x.pc ∧ v.ctx.sig = x.sig ∧ v.ctx.regs.p = x.regs.p ∧ v.ctx.status = .ready ∧ v.ctx.bind = x.bind ∧
        (∀ a, a < at_ ∨ at_ + bytes ≤ a → t.mem.read a = s.mem.read a) ∧
        (∀ j < 128, ∀ r < 32, t.mem.readBytes (at_ + 128 * j + 4 * r) 4 = leBytes (laneAt (x.regs.lreg r).toNat j) 4) ∧
        (∀ r < 32, t.mem.readBytes (at_ + 0x4080 + 8 * r) 8 = leBytes (x.regs.sreg r).toNat 8) ∧
        (∀ d < 16, t.mem.readBytes (at_ + 0x4680 + 32 * d) 32 = leBytes (x.regs.dreg d).toNat 32) ∧
        (x.bind.spanBase + len ≤ 0x180000 → ∀ o < len, t.mem.read (at_ + 20480 + o) = s.mem.read (base + o)) ∧ t.ctxAt c k = { act := x.act } ∧
        v.units = (bytes + 65535) / 65536 ∧ (t.lq l.src.q).spused = (s.lq l.src.q).spused + v.units ∧
        (∀ b r, s.own.regions = [(b, r)] → base ≤ b → b < base + len →
          t.own.regions = [(limbo n + (b - base), { r with base := limbo n + (b - base) })]) ∧
        ∃ l', HasEntry lk ix l' { e with st := .saved, places := [], charge := e.charge + x.charge } t) ∧
    (x.status = .held → x.cause.esc = true → x.escalating = false → x.cause.cause = 17 →
      ∃ t, exec (.contextSave c k) s = .next t ∧ t.mem = s.mem ∧ (t.ctxAt c k).status = .free ∧
        (∃ d ∈ t.own.dead, d.party = x.bind.party ∧ d.launch = s.launchOf x.bind.party) ∧ Finished lk ix l e .lost t)) ∧
  ∀ (n : Nat) (v : Saved) (p : Place) (l : Launch) (e : Entry) (s : State),
    let lk := v.ctx.bind.lkey
    let ix := v.ctx.bind.entryIx
    let base := scratchPA p.core + p.span
    let len := (v.ctx.bind.spanBytes + 4095) / 4096 * 4096
    Tab.find s.thyme.saved n = some v → s.savedOf lk ix = [(n, v)] → s.savedTogether 1536 [(lk, ix)] = [(lk, ix)] → HasEntry lk ix l e s →
    s.placeAfresh l ix e = some [p] → p.nots = [] → (s.ctxAt p.core p.ctx).status = .free → v.ctx.bind.gang = none → v.nots = [] → v.parked = [] →
    v.bars = [] → v.ctx.finishing = false → v.ctx.pend = [] → v.ctx.land = [] → v.parts.head? = some 20480 →
    v.base + 20480 ≤ base ∨ base + len ≤ v.base →
    ∃ t, exec (.contextRestore n p.core p.ctx) s = .next t ∧ KeepsOthers p.core p.ctx s t ∧
      (let x := t.ctxAt p.core p.ctx
       x.pc = v.ctx.pc ∧ x.sig = v.ctx.sig ∧ x.regs.p = v.ctx.regs.p ∧ x.status = v.ctx.status ∧ x.pend = [] ∧ x.land = [] ∧
         x.bind.spanBase = p.span ∧ x.bind.privBase = p.priv ∧ x.bind.party = v.ctx.bind.party ∧ x.bind.asn = v.ctx.bind.asn ∧
         (s.mem.wf = true → (∀ r, 1 ≤ r → r < 32 → x.regs.sreg r = BitVec.ofNat 64 (leNat (s.mem.readBytes (v.base + 0x4080 + 8 * r) 8))) ∧
           (∀ r < 32, ∀ j < 128, laneAt (x.regs.lreg r).toNat j = leNat (s.mem.readBytes (v.base + 128 * j + 4 * r) 4)) ∧
           ∀ d < 16, x.regs.dreg d = BitVec.ofNat 256 (leNat (s.mem.readBytes (v.base + 0x4680 + 32 * d) 32)))) ∧
      (s.mem.wf = true → (∀ o < len, t.mem.read (base + o) = s.mem.read (v.base + 20480 + o)) ∧
        ∀ a, a < base ∨ base + len ≤ a → t.mem.read a = s.mem.read a) ∧
      (t.lq v.q).spused = (s.lq v.q).spused - v.units ∧ (Tab.sorted s.thyme.saved = true → Tab.find t.thyme.saved n = none) ∧
      ∃ l', HasEntry lk ix l' { e with st := .running, places := [{ p with party := v.ctx.bind.party }] } t

/-- The events of a core's wear, each where it is enabled. -/
def Obligations.WearEvents : Prop :=
  (∀ (c : Nat) (r : Sample) (s : State),
    let y := s.coreAt c
    let old := s.sageOf c
    let f := StressOf y.act r
    let free := y.ctxs.all (fun e => decide (4 ≤ e.1) || e.2.status == .free)
    c < 384 → old.st ≠ 4 → Tab.get 0 s.ivals c < s.cycle / 1200000 →
    ∃ t, exec (.sampleInterval c r) s = .next t ∧ (NoLines s → t.mem = s.mem) ∧ Tab.get 0 t.ivals c = Tab.get 0 s.ivals c + 1 ∧
      (let n := t.sageOf c
       n.wufine = old.wufine + f ∧ n.hist = (r.ro :: old.hist).take 16 ∧ n.margin = marginOf n.hist ∧
         n.emmax = max old.emmax (max r.eSup r.eBus) ∧ n.low6 = decide (n.margin ≤ 600) ∧ n.low2 = decide (n.margin ≤ 200) ∧
         n.st = NextState old ((old.wufine + f) / 3600000) n.margin (y.failed || old.failed) free ∧
         (n.st ≠ old.st → ∃ i j rest, t.journal.pend = s.journal.pend ++ i :: j :: rest ∧ i.ty = 7 ∧ i.core = c ∧ j.ty = 10 ∧ j.payload = 4) ∧
         (n.st ≠ old.st → old.st = 0 → y.slow = false → (t.coreAt c).slowDue = true) ∧
         (n.st = old.st → (t.coreAt c).act = 0 ∧ t.journal = s.journal ∧ (∀ d, d ≠ c → t.coreAt d = s.coreAt d) ∧
           (∀ k < 4, t.ctxAt c k = { s.ctxAt c k with act := 0, charge := (s.ctxAt c k).charge + f * (s.ctxAt c k).act / 1200000 }) ∧
           n.idle + (f * (s.ctxAt c 0).act / 1200000 + f * (s.ctxAt c 1).act / 1200000 + f * (s.ctxAt c 2).act / 1200000 +
             f * (s.ctxAt c 3).act / 1200000) = old.idle + max f (f * (s.ctxAt c 0).act / 1200000 + f * (s.ctxAt c 1).act / 1200000 +
             f * (s.ctxAt c 2).act / 1200000 + f * (s.ctxAt c 3).act / 1200000)))) ∧
  (∀ (c : Nat) (s : State),
    let y := s.coreAt c
    (y.slowDue = true → s.coreGang c = none →
      (y.running = none ∧ (∀ e ∈ y.ctxs, e.2.status ≠ .held)) ∨
        (∃ k, y.running = some k ∧ (y.ctx k).atStop = true ∧ y.slowOld = false ∧ y.held = none ∧ (y.ctx k).status = .running ∧ Freeze.fault ∉ y.freeze) →
      CoreStep (.clockSwitch c) c (fun y => { y with clkHold := 240, clkPend := true,
                                                     freeze := if y.freeze.contains .clock then y.freeze else y.freeze ++ [.clock],
                                                     slow := true, slowDue := false, strong := true, sweep := 0 }) s) ∧
    (y.slowDue = false → exec (.clockSwitch c) s = .next s) ∧
    (y.clkPend = true → y.clkHold = 0 → CoreStep (.clockSwitchEnd c) c
      (fun y => { y with clkPend := false, freeze := y.freeze.filter (fun f => !(f == .clock)) }) s) ∧
    (y.strong = true → y.sweep < 3584 → ∃ t, exec (.scratchpadSweep c) s = .next t ∧ t.mem = s.mem ∧ t.bad = s.bad ∧
      (t.coreAt c).sweep = y.sweep + 1 ∧
      (∀ w n, (w, n) ∈ t.soft ↔ (w, n) ∈ s.soft ∧
        ¬(y.sweep < 3072 ∧ scratchPA c + 512 * y.sweep ≤ w * 32 ∧ w * 32 < scratchPA c + 512 * y.sweep + 512 ∧ w ∉ s.bad)) ∧
      t.sageOf c = if y.sweep = 3583 then { s.sageOf c with eccs := true } else s.sageOf c)) ∧
  (∀ s : State, (s.commits < s.tick / 2 ^ 30 → exec .sageCommit s = .next { s with stored := s.sage, commits := s.commits + 1 }) ∧
    (s.tick / 2 ^ 30 ≤ s.commits → exec .sageCommit s = .next s)) ∧
  ∀ (c : Nat) (s : State), c < 384 → (s.sageOf c).st ≠ 4 →
    (s.tasksOn c = [] → ∃ t, exec (.coreUnresponsive c) s = .next t ∧ t.mem = s.mem ∧ (t.coreAt c).out = true ∧ (t.coreAt c).failed = true ∧
      (t.coreAt c).running = none ∧ (t.sageOf c).failed = true ∧ (t.sageOf c).st = max (s.sageOf c).st 3 ∧ (∀ d, d ≠ c → t.coreAt d = s.coreAt d)) ∧
    ∀ k, s.tasksOn c = [k] → Alone c k s → ∃ t, exec (.coreUnresponsive c) s = .next t ∧ t.mem = s.mem ∧ (t.ctxAt c k).status = .free ∧
      (t.coreAt c).running = none ∧ (∃ d ∈ t.own.dead, d.party = (s.ctxAt c k).bind.party) ∧ (t.sageOf c).st = max (s.sageOf c).st 3

/-! ## Memory channels and the network -/

/-- The events of the memory channels, each where it is enabled. -/
def Obligations.ChannelEvents : Prop :=
  (∀ (n : Nat) (e : BReq) (hit : Bool) (s : State),
    let b := s.bankAt n
    b.serving = none → b.block = none → b.busy ≤ s.cycle → ServesNext b s.cycle e hit → (hit = false → PastTrc b s.cycle) →
    ∃ t, exec (.bankAccess n) s = .next t ∧ t.mem = s.mem ∧ t.soft = s.soft ∧ t.bad = s.bad ∧
      (let u := t.bankAt n
       u.serving = some (e, s.cycle + (if hit then 0 else 20) + BankCycles e.kind) ∧ u.queue = b.queue ∧ u.busy = b.busy ∧ u.block = none ∧
         (hit = true → u.track = b.track ∧ u.last = b.last ∧ u.row = b.row ∧ u.alerting = b.alerting ∧ t.journal = s.journal ∧
           u.hits = if b.hits < 8 then b.hits + 1 else 0) ∧
         (hit = false → ∃ i m, Tracked b.track e.row u.track i m ∧ u.last = some s.cycle ∧ u.row = some e.row ∧ u.hits = 0 ∧
           (m ≠ 2048 → u.alerting = b.alerting ∧ t.journal = s.journal) ∧
           (m = 2048 → u.alerting = some i ∧
             (let k := t.stackAt (n / 1024)
              k.alerts = ((s.stackAt (n / 1024)).alerts + 1) % 2 ^ 32 ∧ k.row = e.row ∧ k.bank = n % 16 ∧ k.pch = n / 16 % 2 ∧
                k.chan = n / 32 % 32 ∧ k.time = s.cycle % 2 ^ 32) ∧
             ∃ j, t.journal.pend = s.journal.pend ++ [j] ∧ j.ty = 6)))) ∧
  (∀ (n d : Nat) (e : BReq) (fix : Bool) (s : State),
    let b := s.bankAt n
    let w := if fix then d + 8 else d
    b.serving = some (e, d) → (fix = true ↔ e.kind ≠ .write ∧ ∃ f ∈ s.soft, f.1 / 4 = e.line ∧ f.1 ∉ s.bad) →
    (s.cycle < d → exec (.bankAccess n) s = .next s) ∧
    (d ≤ s.cycle → ∃ t, exec (.bankAccess n) s = .next t ∧ t.mem = s.mem ∧ CorrectedWhere (fun x => e.kind ≠ .write ∧ x / 4 = e.line) s t ∧
      (let u := t.bankAt n
       u.serving = none ∧ u.queue = b.queue.erase e ∧ u.busy = max b.busy w ∧ u.track = b.track ∧ u.last = b.last ∧ u.alerting = none ∧
         u.pre = (if e.kind ≠ .read ∨ fix = true then w + 24 else b.pre) ∧
         (b.alerting = none → u.block = b.block ∧ u.row = if ∃ x ∈ b.queue.erase e, x.from_ ≤ d ∧ x.row = e.row then some e.row else none) ∧
         ∀ i, b.alerting = some i → u.block = some (d + 420, i) ∧ u.row = none))) ∧
  (∀ (n t0 i : Nat) (s : State),
    let b := s.bankAt n
    let row := (b.track.getD i (0, 0)).1
    b.block = some (t0, i) →
    (s.cycle < t0 → exec (.alertBlockEnd n) s = .next s) ∧
    (t0 ≤ s.cycle → row < 65536 → ∃ t, exec (.alertBlockEnd n) s = .next t ∧ t.mem = s.mem ∧
      t.bankAt n = { b with block := none, track := b.track.set i (row, 0) } ∧
      (t.stackAt (n / 1024)).vict = ((s.stackAt (n / 1024)).vict + ((if 2 ≤ row then 1 else 0) + (if 1 ≤ row then 1 else 0) +
        (if row < 65535 then 1 else 0) + (if row < 65534 then 1 else 0))) % 2 ^ 32)) ∧
  (∀ (n : Nat) (s : State),
    let b := s.bankAt n
    n < 8192 → QuietBank n s → b.done < s.cycle * 2 / 9375 → ∃ t, exec (.refresh n) s = .next t ∧ t.mem = s.mem ∧
      let u := t.bankAt n
      u.pos = (b.pos + 1) % 8192 ∧ u.done = b.done + 1 ∧ u.busy = s.cycle + 144 ∧ u.row = none ∧ u.last = b.last ∧
        u.track = b.track.map (fun (e : Nat × Nat) => if e.1 < freeRow ∧ 8 * b.pos ≤ e.1 ∧ e.1 < 8 * b.pos + 8 then (freeRow, 0) else e)) ∧
  (∀ (k : Nat) (s : State),
    let q := s.stackAt k
    let n := k * 1024 + q.prow / 65536
    let row := q.prow % 65536
    k < 8 → q.scruben = true → q.next ≤ s.cycle → q.prow < 67108864 → QuietBank n s → PastTrc (s.bankAt n) s.cycle →
    ∃ t, exec (.patrolScrub k) s = .next t ∧ t.mem = s.mem ∧ CorrectedWhere (fun w => dbankOf (w * 32) = n ∧ rowOfPA (w * 32) = row) s t ∧
      (t.bankAt n).busy = s.cycle + 56 ∧ (t.bankAt n).last = some s.cycle ∧ (t.bankAt n).row = none ∧
      (∃ i m, Tracked (s.bankAt n).track row (t.bankAt n).track i m) ∧ (t.stackAt k).prow = (q.prow + 1) % 67108864 ∧
      (t.stackAt k).next = (s.cycle / 1048576 + 1) * 1048576 ∧
      (t.stackAt k).passes = (q.passes + if q.prow = 67108863 then 1 else 0) % 2 ^ 32) ∧
  (∀ (die slice : Nat) (s : State),
    let d := s.dieAt die
    let p := Tab.get 0 d.sweep slice
    die < 4 → slice < 96 →
    ((∀ e ∈ s.soft, s.inShare die slice e.1 = false ∨ (e.1 % 0x1000000000000000) ∈ s.bad) →
      ∃ t, exec (.l2Sweep die slice) s = .next t ∧ t.mem = s.mem ∧ t.soft = s.soft ∧
        (p + 1 < 38230 → t.dieAt die = { d with sweep := d.sweep.put slice (p + 1) }) ∧
        (38230 ≤ p + 1 → Tab.get 0 (t.dieAt die).sweep slice = 0 ∧ Tab.get 0 (t.dieAt die).corrected slice = 0 ∧
          (t.dieAt die).strong = d.strong ∧ (slice ∈ d.strong → slice ∈ (t.dieAt die).done))) ∧
    (∀ w n, s.soft = [(w, n)] → s.inShare die slice w = true → (w % 0x1000000000000000) ∉ s.bad → p + 1 < 38230 →
      ∃ t, exec (.l2Sweep die slice) s = .next t ∧ t.mem = s.mem ∧ t.soft = [] ∧
        Tab.get 0 (t.dieAt die).corrected slice = Tab.get 0 d.corrected slice + 1 ∧
        (64 ≤ Tab.get 0 d.corrected slice + 1 → slice ∈ (t.dieAt die).strong))) ∧
  (∀ (h k : Nat) (s : State), s.hostPriv h = true → k < 8 → ∃ t, exec (.channelClr h k) s = .next t ∧
    t.stackAt k = { s.stackAt k with alerts := 0, vict := 0, ce := 0, ue := 0 } ∧ (∀ j, j ≠ k → t.stackAt j = s.stackAt j) ∧
    t.mem = s.mem ∧ t.banks = s.banks) ∧
  (∀ (h die : Nat) (s : State), s.hostPriv h = true → die < 4 → ∃ t, exec (.force h die) s = .next t ∧ t.mem = s.mem ∧
    (∀ i < 96, i ∈ (t.dieAt die).strong) ∧ (∀ i < 96, i ∉ (s.dieAt die).strong → i ∉ (t.dieAt die).done) ∧
    (∀ j, j ≠ die → t.dieAt j = s.dieAt j) ∧ ((∃ i < 96, i ∉ (s.dieAt die).strong) → CapUpdated s t)) ∧
  (∀ (pa bits : Nat) (s : State), pa / 32 ∉ s.bad → 0 < bits →
    (pa < 0x8000000000 → s.softKey (pa / 32) = pa / 32 →
      (Tab.get 0 s.soft (pa / 32) + bits ≤ 2 → exec (.softError (.word pa bits)) s =
        .next { s with soft := s.soft.put (pa / 32) (Tab.get 0 s.soft (pa / 32) + bits) }) ∧
      (2 < Tab.get 0 s.soft (pa / 32) + bits → exec (.softError (.word pa bits)) s =
        .next { s with soft := s.soft.drop (pa / 32), bad := (pa / 32) :: s.bad })) ∧
    ∀ c, c < 384 → scratchPA c ≤ pa → pa < scratchPA c + 0x180000 → (s.coreAt c).strong = false →
      (Tab.get 0 s.soft (pa / 32) + bits ≤ 1 → exec (.softError (.word pa bits)) s =
        .next { s with soft := s.soft.put (pa / 32) (Tab.get 0 s.soft (pa / 32) + bits) }) ∧
      (1 < Tab.get 0 s.soft (pa / 32) + bits → exec (.softError (.word pa bits)) s =
        .next { s with soft := s.soft.drop (pa / 32), bad := (pa / 32) :: s.bad })) ∧
  ∀ (c k : Nat) (s : State),
    (∀ r, 1 ≤ r → r < 32 → CtxStep (.softError (.sreg c k r)) c k (fun x => { x with badS := r :: x.badS }) s) ∧
    (∀ r, r < 32 → CtxStep (.softError (.lreg c k r)) c k (fun x => { x with badL := r :: x.badL }) s) ∧
    (∀ bank i bits, 2 ≤ bits → i < 1024 → ∃ t, exec (.softError (.acc c bank i bits)) s = .next t ∧ t.mem = s.mem ∧
      i ∈ ((t.coreAt c).arr.bank bank).bad ∧ ((t.coreAt c).arr.bank bank).acc = ((s.coreAt c).arr.bank bank).acc) ∧
    (∀ q bit, ((s.ctxAt c k).queue q).mode = .spliceOut → ∃ t, exec (.softError (.mirror c k q bit)) s = .next t ∧ t.mem = s.mem ∧
      let d := (s.ctxAt c k).queue q
      let u := (t.ctxAt c k).queue q
      (d.mirror.idx < 256 → d.rcapm1 < 256 → d.rcapw < 256 → (u.mpar = u.parity ↔ d.mpar ≠ d.parity)))

/-- The events of the network, each where it is enabled. -/
def Obligations.NetworkEvents : Prop :=
  (∀ (n : Nat) (f : Flight) (s : State),
    let p := s.portCls f.core f.cls
    let m := s.charge f.core f.msg
    Tab.find s.flight n = some f → f.admitted = false →
    (∀ e ∈ s.flight, e.2.admitted = true ∨ e.2.core ≠ f.core ∨ e.2.cls ≠ f.cls ∨ n ≤ e.1) → p.granted ≠ some s.cycle →
    s.outstanding f.core < 1024 → p.alloc ≠ 0 →
    let q := { p with spent := p.spent + m, total := (p.total + m) % 2 ^ 64, active := true, granted := some s.cycle }
    let admits := fun q : PortCls => ∃ t, exec (.requestAdmission n) s = .next t ∧ t.mem = s.mem ∧
      Tab.find t.flight n = some { f with admitted := true } ∧ t.portCls f.core f.cls = q
    (m ≤ p.bucket → admits { q with bucket := p.bucket - m }) ∧
    (p.bucket < m → p.alloc < m → p.alloc ≤ p.bucket → admits { q with bucket := 0, debt := p.debt + (m - p.bucket) }) ∧
    (p.bucket < m → (m ≤ p.alloc ∨ p.bucket < p.alloc) → exec (.requestAdmission n) s = .next s)) ∧
  (∀ (c : Nat) (s : State), c < 384 → (s.coreAt c).refills < s.cycle / 1024 →
    let d := s.dieAt (c / 96)
    let share := fun k => Tab.get 128 d.share k
    let al := fun k => let a := d.portbud * share k / 1024 / 64 * 64; if 0 < share k ∧ a = 0 then 64 else a
    let act := fun k => (s.portCls c k).active || decide (0 < s.portWaiting c k)
    let spare := Sum8 (fun k => if act k then 0 else min (s.portCls c k).bucket (al k)) + d.portbud - Sum8 al
    let total := Sum8 (fun k => if act k && decide (0 < share k) then share k else 0)
    ∃ t, exec (.shareRefill c) s = .next t ∧ t.mem = s.mem ∧ (t.coreAt c).refills = s.cycle / 1024 ∧ (∀ j, j ≠ c → t.coreAt j = s.coreAt j) ∧
      ∀ k < 8, let p := s.portCls c k
        let b := al k + if act k && decide (0 < share k) then spare * share k / total / 64 * 64 else 0
        t.portCls c k = { p with alloc := al k, bucket := b - p.debt, debt := p.debt - b, last := p.spent % 2 ^ 32, act := act k,
                                 spent := 0, active := false }) ∧
  (∀ (k lane : Nat) (outw : Bool) (s : State),
    let l := s.link k
    let i := if outw then lane else 16 + lane
    let rs := s.cycle :: (Tab.get [] l.recent i).filter (fun t => decide (s.cycle < t + 1048576))
    k < 8 → lane < 16 → l.up = true → (if outw then l.laneso else l.lanesi).getLsbD lane = true →
    exec (.flitArrival k lane outw true) s = .next (s.setLink k { l with flits := l.flits + 1 }) ∧
    (rs.length ≤ 16 → ∃ t, exec (.flitArrival k lane outw false) s = .next t ∧ t.mem = s.mem ∧ (t.link k).up = true ∧
      (t.link k).replays = (l.replays + 1) % 2 ^ 32 ∧ (t.link k).laneso = l.laneso ∧ (t.link k).lanesi = l.lanesi ∧ t.journal = s.journal) ∧
    (16 < rs.length → 5 ≤ laneCount l.laneso → 5 ≤ laneCount l.lanesi → ∃ t j, exec (.flitArrival k lane outw false) s = .next t ∧ t.mem = s.mem ∧
      (t.link k).up = true ∧ (t.link k).laneso = (if outw then l.laneso &&& ~~~(1#16 <<< lane) else l.laneso) ∧
      (t.link k).lanesi = (if outw then l.lanesi else l.lanesi &&& ~~~(1#16 <<< lane)) ∧ t.journal.pend = s.journal.pend ++ [j] ∧ j.ty = 8) ∧
    (16 < rs.length → laneCount (if outw then l.laneso else l.lanesi) ≤ 4 → s.flight = [] → k < 4 → s.own.regions = [] → s.own.shares = [] →
      ∃ t, exec (.flitArrival k lane outw false) s = .next t ∧ (t.link k).up = false)) ∧
  (∀ (k : Nat) (s : State), k < 8 → s.linkUp k = true →
    (∃ t, exec (.linkFailure k) s = .next t) ∧
    (s.flight = [] → s.own.regions = [] → s.own.shares = [] →
      ((∀ e ∈ s.cores, e.2.ctxs = [] ∨ (4 ≤ k → e.1 / 96 ≠ k - 4) ∧ ∀ x ∈ e.2.ctxs, ∀ q ∈ x.2.q, q.2.mode ≠ .spliceOut) →
        ∃ t, exec (.linkFailure k) s = .next t ∧ t.mem = s.mem ∧ t.cores = s.cores ∧ t.linkUp k = false ∧ (∀ j, j ≠ k → t.link j = s.link j) ∧
          CapUpdated s t) ∧
      ∀ (c d i j q p : Nat) (y z : Core) (x w : Ctx) (a b : QDesc), s.cores = [(c, y), (d, z)] → c ≠ d → c < 384 → d < 384 → k < 4 →
        y.ctxs = [(i, x)] → z.ctxs = [(j, w)] → x.q = [(q, a)] → w.q = [(p, b)] → a.mode = .spliceOut → a.partner = ⟨d, j, p⟩ →
        b.mode = .spliceIn → b.partner = ⟨c, i, q⟩ → s.pathHas c d k = true ∨ s.pathHas d c k = true →
        ∃ t, exec (.linkFailure k) s = .next t ∧ t.mem = s.mem ∧ (t.ctxAt c i).queue q = { a with down := true } ∧
          (t.ctxAt d j).queue p = { b with mode := .localQ, headDue := false, cuts := [], down := s.heldOn ⟨d, j, p⟩ }) ∧
    ∀ (n : Nat) (f : Flight) (a : Acc) (l : Landing) (r cls : Nat), s.flight = [(n, f)] → f.msg = .access a → a.dst = .scalar r cls → a.cls = .ld →
      (s.ctxAt f.core f.ctx).land = [l] → l.flight = n → s.mayCross k f = true → (s.setLink k { s.link k with up := false }).cutOff f = true →
      s.own.regions = [] → s.own.shares = [] → k < 4 → (∀ e ∈ s.cores, ∀ x ∈ e.2.ctxs, ∀ q ∈ x.2.q, q.2.mode ≠ .spliceOut) →
      ∃ t m, exec (.linkFailure k) s = .next t ∧ t.mem = s.mem ∧ t.flight = [] ∧ (t.ctxAt f.core f.ctx).land = [m] ∧ m.arrived = true ∧
        m.fault = some .linkDown) ∧
  (∀ (p : Nat) (s : State), p < 16 →
    ((s.port p).up = false → ∃ t, exec (.portLinkUp p) s = .next t ∧ t.port p = { s.port p with up := true } ∧ CapUpdated s t ∧
      t.mem = s.mem ∧ t.cores = s.cores ∧ t.pod = s.pod) ∧
    ((s.port p).up = true → ∃ t, exec (.portLinkDown p) s = .next t ∧ t.port p = { s.port p with up := false } ∧ CapUpdated s t ∧
      t.mem = s.mem ∧ t.cores = s.cores ∧ t.pod = s.pod) ∧
    ((s.port p).up = true → (s.port p).en = true →
      exec (.packetReceive p .trimmed) s = .next (s.setPort p { s.port p with trim := ((s.port p).trim + 1) % 2 ^ 32 }) ∧
      (∀ pa bs q, (pa < 0x8000000000 ∨ ∃ d, s.targetOf pa = .chip d) → partyPkg q ∈ s.pod → s.rights .store q pa = none →
        s.rights .store q (pa + bs.length - 1) = none → ∃ t, exec (.packetReceive p (.write pa bs q)) s = .next t ∧ ReceivedAt p bs.length s t ∧
          t.cores = s.cores ∧ (∀ x, x < pa ∨ pa + bs.length ≤ x → t.mem.read x = s.mem.read x) ∧
          (s.mem.wf = true → t.mem.readBytes pa bs.length = bs)) ∧
      ∀ n f a, Tab.find s.flight n = some f → f.msg = .access a → s.afar f.msg = true → f.admitted = true → a.report = [] →
        s.mayPerform n f = true →
        (∀ bs, a.cls = .ld → a.performed = false → ∃ t, exec (.packetReceive p (.data n bs)) s = .next t ∧ ReceivedAt p bs.length s t ∧
          t.mem = s.mem ∧ Tab.find t.flight n = some { f with msg := .access { a with performed := true, data := bs } }) ∧
        ((a.cls = .at ∧ a.dst = .none) ∨ (a.cls = .st ∧ a.lock = none ∧ a.reads = [] ∧ ∀ w ∈ a.writes, s.remote w.1 = true) →
          ∃ t, exec (.packetReceive p (.ack n)) s = .next t ∧ t.mem = s.mem ∧ (Tab.sorted s.flight = true → Tab.find t.flight n = none) ∧
            ∀ q ∈ s.pod, q ≠ s.pkgid → (∃ h ∈ f.msg.homes, s.targetOf h = .other q) → Tab.get 0 t.heard q = s.cycle))) ∧
  ∀ (n : Nat) (s : State),
    let leaves := fun t : State => t.pod = s.pod.erase n ∧ (∀ b, b ∈ t.bars ↔ b ∈ s.bars ∧ b.1 / 64 ≠ 5 * 1024 + n) ∧ CapUpdated s t ∧
      t.mem = s.mem ∧ t.own.regions = s.own.regions ∧
      ∀ e ∈ s.own.regions, e.2.owner ≠ 0 → partyPkg e.2.owner = n → ∃ d ∈ t.own.dead, d.party = e.2.owner
    (n ∈ s.pod → n ≠ s.pkgid → s.flight = [] →
      (Tab.get 0 s.heard n + 1200000 ≤ s.cycle → s.awaits n = true → ∃ t, exec (.transportTimeout n) s = .next t ∧ leaves t ∧ n ∈ t.torn) ∧
      (s.cycle < Tab.get 0 s.heard n + 1200000 → exec (.transportTimeout n) s = .next s) ∧ ∃ t, exec (.podRemove n) s = .next t ∧ leaves t) ∧
    (n = s.pkgid → s.pod.Nodup → s.pkgid ∈ s.pod → s.flight = [] → ∃ t, exec (.podRemove n) s = .next t ∧ t.pod = [n]) ∧
    (n ∉ s.pod → n < 1024 → s.pod.length < 1024 → (∀ d ∈ s.own.dead, partyPkg d.party = n →
      (∀ r ∈ s.own.regions, r.2.owner = d.party → r.2.st ≠ .held) ∧ ∀ h ∈ s.own.shares, h.2 ≠ d.party) →
      (∃ t, exec (.podAdmit n true) s = .next t ∧ t.pod = s.pod ++ [n] ∧ CapUpdated s t ∧ t.mem = s.mem ∧ t.cores = s.cores) ∧
      exec (.podAdmit n false) s = .next s)

/-! ## Host cores -/

/-- The command ports and device accesses of the host cores. -/
def Obligations.HostCommands : Prop :=
  (∀ (h : Nat) (s : State), HostThere h s →
    (∀ v : Word, ∃ t, exec (.hselWrite h v) s = .next t ∧ t.mem = s.mem ∧ t.cores = s.cores ∧ t.own = s.own ∧
      ∀ i < 64, (t.host h).hsel.getLsbD i = ((decide (i < 34) || decide (i = 63)) && v.getLsbD i)) ∧
    (∀ op, op % 32 = 0 ∨ 18 ≤ op % 32 ∨ s.hostOk h = false → HostEnds (.hostBadCommand h op) h 0xC0 s) ∧
    EachCommand h (fun i op =>
      let q := HostRequest op h s
      (s.hostOk h = false → HostEnds i h 0xC0 s) ∧
      (s.hostOk h = true → hostDesOk (s.host h).desig = false → HostEnds i h 0x83 s) ∧
      (s.hostOk h = true → hostDesOk (s.host h).desig = true → s.hostTarget q.base (2 ^ (12 + q.sz)) = false → HostEnds i h 0x84 s) ∧
      (∀ c, s.hostOk h = true → hostDesOk (s.host h).desig = true → s.hostTarget q.base (2 ^ (12 + q.sz)) = true → ItsTurn op h s →
        s.own.tokenCause q = some c → HostEnds i h (0x80 + c.code) s) ∧
      (s.hostOk h = true → hostDesOk (s.host h).desig = true → s.hostTarget q.base (2 ^ (12 + q.sz)) = true → ¬ ItsTurn op h s →
        ∃ t, exec i s = .next t ∧ t.own = s.own ∧ t.mem = s.mem ∧ t.cores = s.cores ∧ (t.host h).status = 0xFF) ∧
      (MayCommand op h s →
        (op = .query → ∃ t, exec i s = .next t ∧ t.own = s.own ∧ t.mem = s.mem ∧ t.cores = s.cores ∧ (t.host h).status = 0 ∧
          (s.own.regionAt q.base = none → (t.host h).result = 0 ∧ (t.host h).result2 = 0) ∧
          ∀ r, s.own.regionAt q.base = some r → r.sz ≤ 18 → r.chain.length ≤ 4 → r.shares < 2 ^ 16 → (t.host h).result2 = r.owner ∧
            (t.host h).result.getLsbD 0 = true ∧ (t.host h).result.toNat / 2 % 32 = r.sz ∧ (t.host h).result.toNat / 2 ^ 16 = r.shares) ∧
        (op ≠ .query → s.tokenStatus q ≠ 0 → HostEnds i h (s.tokenStatus q) s) ∧
        (s.tokenStatus q = 0 → op = .plain ∨ op = .destroy ∨ op = .seize → (Judged h s).accessesOn h q.base (2 ^ (12 + q.sz)) = true →
          ∃ t, exec i s = .next t ∧ t.own = s.own ∧ t.mem = s.mem ∧ t.cores = s.cores ∧ (t.host h).status = 0xFF) ∧
        (s.tokenStatus q = 0 → (op = .plain ∨ op = .destroy ∨ op = .seize → (Judged h s).accessesOn h q.base (2 ^ (12 + q.sz)) = false) →
          (∀ e ∈ s.cores, ∀ l ∈ e.2.l1, q.base + 2 ^ (12 + q.sz) ≤ l.1 * 128 ∨ l.1 * 128 < q.base) →
          let half := 2 ^ (11 + q.sz)
          let does := fun (o : TokOp) (own : Ownership) => op = o → ∃ t, exec i s = .next t ∧ t.own = own ∧ (o ≠ .reinit → t.mem = s.mem) ∧
            (t.host h).status = 0 ∧ ∀ c k, t.ctxAt c k = s.ctxAt c k
          let put := fun r : Region => { s.own with regions := s.own.regions.put r.base r }
          (∀ r, s.own.exact q.base q.sz = some r → r.base = q.base →
            does .lend (put { r with owner := q.target, chain := q.self :: r.chain, dirty := false }) ∧
            does .lendPass (put { r with owner := q.target, dirty := false }) ∧
            does .plain (put { r with atomic := false, dirty := false }) ∧ does .atomic (put { r with atomic := true, dirty := false }) ∧
            (∀ a c, r.chain = a :: c → s.live a = true → does .retn (put { r with owner := a, chain := c, dirty := false })) ∧
            (0 < q.sz → does .split { s.own with regions := ((s.own.regions.put q.base { r with sz := q.sz - 1, dirty := false }).put
                (q.base + half) { r with sz := q.sz - 1, dirty := false, base := q.base + half }) }) ∧
            does .share { put ({ r with shares := r.shares + 1, dirty := false }) with shares := s.own.shares ++ [(q.base, q.target)] } ∧
            does .unshr { put ({ r with shares := r.shares - 1, dirty := false }) with shares := s.own.shares.erase (q.base, q.self) } ∧
            does .clean { put ({ r with owner := q.target, chain := [], shares := 0, dirty := false, st := .held }) with
              shares := s.own.shares.filter (fun e => e.1 != q.base) } ∧
            does .seize { put ({ r with owner := q.target, chain := [], shares := 0, dirty := false }) with
              shares := s.own.shares.filter (fun e => e.1 != q.base) } ∧
            does .destroy { s.own with regions := s.own.regions.drop q.base, shares := s.own.shares.filter (fun e => e.1 != q.base) } ∧
            (q.target ≠ 0 → does .reinit (put { r with atomic := false, dirty := false, owner := q.target, chain := [], st := .held })) ∧
            (op = .reinit → ∃ t, exec i s = .next t ∧
              ∀ x, t.mem.read x = if q.base ≤ x ∧ x < q.base + 2 ^ (12 + q.sz) then 0 else s.mem.read x)) ∧
          (∀ lo hi, 0 < q.sz → s.own.exact q.base (q.sz - 1) = some lo → lo.base = q.base → s.own.exact (q.base + half) (q.sz - 1) = some hi →
            does .join { s.own with regions := (s.own.regions.drop (q.base + half)).put q.base { lo with sz := q.sz, dirty := false } }) ∧
          (s.own.exact q.base q.sz = none → does .create (put { base := q.base, sz := q.sz, owner := q.target })))))) ∧
  ∀ (h a : Nat) (d : List Byte) (s : State), HostThere h s →
    (a + d.length ≤ 0x30000000000 →
      (s.hostMay h a d.length true = true → ∃ t, exec (.hostAccess h a d true) s = .next t ∧ (t.host h).fault = false ∧ t.cores = s.cores ∧
        (∀ x, x < a ∨ a + d.length ≤ x → t.mem.read x = s.mem.read x) ∧ (s.mem.wf = true → t.mem.readBytes a d.length = d)) ∧
      (s.hostMay h a d.length false = true → s.badRange a d.length = false → ∃ t, exec (.hostAccess h a d false) s = .next t ∧
        (t.host h).fault = false ∧ (t.host h).data = s.mem.readBytes a d.length ∧ t.mem = s.mem ∧ t.cores = s.cores) ∧
      (∀ w, s.hostMay h a d.length w = false → ∃ t, exec (.hostAccess h a d w) s = .next t ∧ (t.host h).fault = true ∧ t.mem = s.mem ∧
        t.cores = s.cores ∧ t.own = s.own) ∧
      (∀ w, d ≠ [] → s.rights (if w then .store else .bypass) (BitVec.ofNat 64 ((s.host h).hsel.toNat % 2 ^ 34)) a ≠ none →
        s.hostMay h a d.length w = false)) ∧
    ∀ o, hubHas o = true → o % 8 = 0 → d.length = 8 → ∃ t, exec (.hostAccess h (0x30000000000 + o) d false) s = .next t ∧
      (t.host h).fault = false ∧ (t.host h).data = leBytes (s.hubReg o) 8 ∧ t.mem = s.mem ∧ t.cores = s.cores

/-- XINV, the writes of hub space and the attestation mailbox. -/
def Obligations.HubEvents : Prop :=
  ∀ (h : Nat) (s : State), HostThere h s →
    (let asn := BitVec.ofNat 16 (s.host h).desig
     (s.hostOk h = false → HostEnds (.xinvAsn h) h 0xC0 s ∧ HostEnds (.xinvRange h) h 0xC0 s) ∧
     (s.hostOk h = true → (s.host h).hsel.getLsbD 63 = false → HostEnds (.xinvAsn h) h 0x92 s ∧ HostEnds (.xinvRange h) h 0x92 s) ∧
     (s.hostPriv h = true →
       let ends := fun t : State => t.own = s.own ∧ (∀ c k, t.ctxAt c k = s.ctxAt c k) ∧
         (t.host h).status = if s.asnBusy ((s.host h).since.getD s.seq) asn then 0xFF else 0
       (∃ t, exec (.xinvAsn h) s = .next t ∧ ends t ∧ (∀ c, ∀ e ∈ (t.coreAt c).tlb, e.asn ≠ asn) ∧ (∀ c, ∀ l ∈ (t.coreAt c).l1, l.2.of asn = false) ∧
         (∀ c e, e ∈ (s.coreAt c).tlb → e.asn ≠ asn → e ∈ (t.coreAt c).tlb) ∧
         ((∀ e ∈ s.cores, ∀ l ∈ e.2.l1, l.2.of asn = false) → t.mem = s.mem)) ∧
       let a := (s.host h).party.toNat
       let n := (s.host h).len
       ∃ t, exec (.xinvRange h) s = .next t ∧ ends t ∧
         (∀ c e, e ∈ (t.coreAt c).tlb ↔ e ∈ (s.coreAt c).tlb ∧ ¬(e.asn = asn ∧ e.va < a + n ∧ a < e.va + e.bytes)) ∧
         (∀ c l, l ∈ (t.coreAt c).l1 ↔ l ∈ (s.coreAt c).l1 ∧ ¬∃ u ∈ (l.2.asn, l.2.va) :: l.2.users, u.1 = asn ∧ a ≤ u.2 ∧ u.2 + 128 ≤ a + n))) ∧
    (∀ (o : Nat) (v : Word), s.hostPriv h = false → (o < 0x80000 ∨ 0x80800 ≤ o) → HubWrites h o v s s) ∧
    (∀ p v, p < 32 →
      HubWrites h (0x80008 + 64 * p) v s (s.setHost p { s.host p with desig := v.toNat }) ∧
      HubWrites h (0x80010 + 64 * p) v s (s.setHost p { s.host p with party := v }) ∧
      HubWrites h (0x80018 + 64 * p) v s (s.setHost p { s.host p with len := v.toNat })) ∧
    (s.hostPriv h = true →
      (∀ v, HubWrites h 0 v s { s with thyme := { s.thyme with plimit := max 256 (v.toNat % 65536) } }) ∧
      (∀ q v, q < 256 → HubWrites h (0x1000 + 16 * q) v s
        (s.modLq q (fun l => { l with en := v.getLsbD 0, prio := v.toNat / 2 % 8, asn := v.extractLsb' 4 16 }))) ∧
      (∀ q v, q < 256 → HubWrites h (0x3000 + 16 * q) v s (s.modLq q (fun l => { l with spbase := v.toNat / 65536 % 2 ^ 36 * 65536 })) ∧
        HubWrites h (0x3008 + 16 * q) v s (s.modLq q (fun l => { l with spsize := v.toNat % 2 ^ 32 }))) ∧
      (∀ k v, k < 8 → HubWrites h (0x20020 + 64 * k) v s (s.setStack k { s.stackAt k with scruben := v.getLsbD 0 })) ∧
      (∀ p v, p < 16 → HubWrites h (0x51000 + 64 * p) v s (s.setPort p { s.port p with en := v.getLsbD 1 })) ∧
      (∀ i v, i < 65536 → HubWrites h (0x90000 + 8 * i) v s { s with routes := s.routes.put i (v.toNat % 2 ^ 58) }) ∧
      (∀ v : Word, let p := min 2400 (max 1200 (v.toNat % 4096))
        ∃ t, HubWrites h 0x140000 v s t ∧ t.mgmt = { s.mgmt with pcap := p } ∧ t.mem = s.mem ∧ t.cores = s.cores ∧ (p ≠ s.mgmt.pcap → CapUpdated s t)) ∧
      (∀ v, HubWrites h 0x140010 v s { s with mgmt := { s.mgmt with areq := v.toNat % 2 ^ 52 } }) ∧
      (∀ d v, d < 4 → let b := v.toNat % 2 ^ 21
        ∃ t, HubWrites h (0x40000 + 0x4000 * d) v s t ∧ t.mem = s.mem ∧ t.cores = s.cores ∧
          (b % 512 = 0 → 4096 ≤ b → b ≤ 1048576 → (t.dieAt d).portbud = b) ∧
          ((b % 512 ≠ 0 ∨ b < 4096 ∨ 1048576 < b) → (t.dieAt d).portbud = (s.dieAt d).portbud ∧ (t.dieAt d).err = true)) ∧
      (∀ d k v, d < 4 → k < 8 → let n := v.toNat % 2048
        let share := fun j => if j = k then n else Tab.get 128 (s.dieAt d).share j
        ∃ t, HubWrites h (0x40040 + 0x4000 * d + 8 * k) v s t ∧ t.mem = s.mem ∧ t.cores = s.cores ∧
          (Sum8 share ≤ 1024 → ∀ j, Tab.get 128 (t.dieAt d).share j = share j) ∧
          (1024 < Sum8 share → (t.dieAt d).share = (s.dieAt d).share ∧ (t.dieAt d).err = true)) ∧
      (∀ pa, s.key (s.mgmt.areq / 32768 * 32768) = pa →
        (pa < 0x8000000000 → s.mgmt.astat ≠ 1 → ∃ t, exec (.ago h) s = .next t ∧ t.mgmt = { s.mgmt with astat := 2 } ∧ t.cores = s.cores ∧
          (∀ x, x < pa ∨ pa + 32768 ≤ x → t.mem.read x = s.mem.read x) ∧
          (s.mem.wf = true → t.mem.readBytes pa 32 = s.mem.readBytes pa 32 ∧
            (∀ i < 8, t.mem.readBytes (pa + 32 + 32 * i) 32 = (leBytes (Tab.get 0 s.mgmt.meas i).toNat 32).reverse) ∧
            t.mem.readBytes (pa + 288) 32 = sha256 s.capList ∧
            t.mem.readBytes (pa + 320) 8 = [0x45, 0x51, 0x39, 0x36, 0x30, 0x2D, 0x48, 0x38] ∧ t.mem.readBytes (pa + 328) 8 = leBytes s.pkgid 8)) ∧
        (0x8000000000 ≤ pa ∨ s.mgmt.astat = 1 → exec (.ago h) s = .next { s with mgmt := { s.mgmt with astat := 3 } })))

/-! ## The management controller, power, and the whole machine -/

/-- The events of the management controller and of the power block, each where it is enabled. What survives a reset in memory is the
model's choice (log entry 17). -/
def Obligations.ManagementEvents : Prop :=
  (∀ (e : JEntry) (r : List JEntry) (s : State), s.journal.pend = e :: r →
    let pa := s.journal.jbase + 64 * (e.seq % 1048576)
    ∃ t, exec .journalWrite s = .next t ∧ t.cores = s.cores ∧ t.own = s.own ∧ (∀ x, x < pa ∨ pa + 64 ≤ x → t.mem.read x = s.mem.read x) ∧
      (s.journal.half = false → t.journal = { s.journal with half := true } ∧ (s.mem.wf = true →
        t.mem.readBytes pa 8 = List.replicate 8 255 ∧ t.mem.readBytes (pa + 8) 1 = leBytes e.ty 1 ∧ t.mem.readBytes (pa + 9) 1 = leBytes e.die 1 ∧
          t.mem.readBytes (pa + 10) 2 = leBytes e.core 2 ∧ t.mem.readBytes (pa + 12) 4 = [0, 0, 0, 0] ∧
          t.mem.readBytes (pa + 16) 8 = leBytes e.cycle 8 ∧ t.mem.readBytes (pa + 24) 40 = leBytes e.payload 40)) ∧
      (s.journal.half = true → t.journal = { s.journal with half := false, pend := r } ∧
        (∀ x, pa + 8 ≤ x → t.mem.read x = s.mem.read x) ∧ (s.mem.wf = true → t.mem.readBytes pa 8 = leBytes e.seq 8))) ∧
  (∀ (w tj : Nat) (s : State),
    let m := s.mgmt
    let n := if m.pcap < w ∨ 100 ≤ tj then min 7 (m.thr + 1) else if w + 100 ≤ m.pcap ∧ tj < 95 then m.thr - 1 else m.thr
    (s.cycle / 1200000 ≤ m.steps → exec (.throttleStep w tj) s = .next s) ∧
    (m.steps < s.cycle / 1200000 → ∃ t, exec (.throttleStep w tj) s = .next t ∧
      t.mgmt = { m with pnow := w, tj := tj, thr := n, steps := m.steps + 1 } ∧ t.cores = s.cores ∧ t.mem = s.mem ∧ (n ≠ m.thr → CapUpdated s t))) ∧
  (∀ s : State,
    let off := fun (i : Instr) (kept : Tab Sage) => ∃ t, exec i s = .next t ∧ AllClear t ∧ t.mem = [] ∧ t.mgmt.powered = false ∧
      t.mgmt.released = false ∧ t.stored = kept ∧ KeepsFuses s t
    off .powerLoss s.stored ∧ off .overtemperature s.stored ∧ (s.mgmt.powered = true → off (.mgmtPower false) s.sage) ∧
    (s.mgmt.powered = false → exec (.mgmtPower true) s = .next { s with mgmt := { s.mgmt with powered := true } }) ∧
    (s.mgmt.powered = true → ∃ t, exec .mgmtReset s = .next t ∧ AllClear t ∧ t.mem = s.mem ∧ t.mgmt.powered = true ∧ t.mgmt.released = false ∧
      t.stored = s.stored ∧ KeepsFuses s t)) ∧
  (∀ (a b c : Image) (s : State), s.mgmt.powered = true →
    (Verifies a s → Verifies b s → Verifies c s → a.comp = 0 → b.comp = 4 → c.comp = 5 →
      ∃ t, exec (.packageReset [a, b, c]) s = .next t ∧ AllIdle t ∧ (s.thyme.maps = [] → t.mem = s.mem) ∧ t.mgmt.released = true ∧
        t.mgmt.recovery = false ∧ Tab.get 0 t.mgmt.svn 0 = a.svn ∧ Tab.get 0 t.mgmt.svn 4 = b.svn ∧ Tab.get 0 t.mgmt.svn 5 = c.svn ∧
        t.mgmt.minsvn = s.mgmt.minsvn ∧ t.mgmt.errors = s.mgmt.errors ∧
        (∀ k j, t.ctxAt k j = {}) ∧ (∀ k < 384, (t.coreAt k).running = none ∧ (1 ≤ (t.sageOf k).st → (t.sageOf k).st ≤ 3 → (t.coreAt k).slowDue = true)) ∧
        ∀ k < 384, let r : Sage := Tab.get {} s.stored k
          (r.st = 4 → (t.sageOf k).st = 4 ∧ (t.sageOf k).wufine = r.wufine) ∧
          (r.st ≠ 4 → (t.sageOf k).wufine = r.wufine + (2 ^ 30 * 64 * 262140 + 1199999) / 1200000 ∧
            (t.sageOf k).st = NextState { r with low6 := false, low2 := false }
              ((r.wufine + (2 ^ 30 * 64 * 262140 + 1199999) / 1200000) / 3600000) r.margin r.failed true)) ∧
    ((¬Verifies a s ∨ a.comp ≠ 0 ∨ ¬Verifies b s ∨ b.comp ≠ 4 ∨ ¬Verifies c s ∨ c.comp ≠ 5) →
      ∃ t, exec (.packageReset [a, b, c]) s = .next t ∧ AllIdle t ∧ (∀ k j, t.ctxAt k j = {}) ∧ t.mgmt.recovery = true ∧ t.mgmt.released = false)) ∧
  (∀ (im : Image) (s : State),
    (¬Verifies im s → exec (.liveUpdate im) s = .next s ∧ exec (.mgmtFirmwareUpdate im) s = .next s) ∧
    (Verifies im s → exec (.mgmtFirmwareUpdate im) s = .next { s with mgmt := { s.mgmt with svn := s.mgmt.svn.put im.comp im.svn } } ∧
      (im.comp = 2 ∨ im.comp = 3 → ∃ t, exec (.liveUpdate im) s = .next t ∧ UpdatedBy im s t ∧ t.thyme = s.thyme) ∧
      (im.comp = 1 → s.thyme.update = false → exec (.liveUpdate im) s =
        .next { s with thyme := { s.thyme with update := true, taking := some (im, s.cycle) } }) ∧
      (im.comp = 1 → s.thyme.update = true → ∃ t, exec (.liveUpdate im) s = .next t ∧ UpdatedBy im s t ∧
        t.thyme = { s.thyme with update := false, taking := none }))) ∧
  ∀ s : State,
    (∀ n, n < 65536 → ∀ e, s.journal.mirror[n]? = some e → ∃ t, exec (.mgmtRead n) s = .next t ∧ t = { s with mgmt := t.mgmt } ∧
      t.mgmt.out.length = 64 ∧ t.mgmt.out.take 8 = leBytes e.seq 8 ∧ t.mgmt.out.drop 24 = leBytes e.payload 40) ∧
    (∀ c, c < 384 → exec (.mgmtRead (65536 + c)) s = .next { s with mgmt := { s.mgmt with out := leBytes (s.sageOf c).bits 32 } }) ∧
    (∀ n, 65920 ≤ n → exec (.mgmtRead n) s = .next { s with mgmt := { s.mgmt with
      out := leBytes (s.mgmt.pnow % 4096 + s.mgmt.thr * 2 ^ 12 + s.mgmt.tj % 256 * 2 ^ 15) 8 } }) ∧
    (∀ nonce, ∃ t, exec (.mgmtAttestation nonce) s = .next t ∧ t = { s with mgmt := { s.mgmt with out := t.mgmt.out } } ∧
      t.mgmt.out.length = 16560 ∧ t.mgmt.out.take 32 = leBytes nonce 32 ∧ (t.mgmt.out.drop 288).take 32 = sha256 s.capList ∧
      (t.mgmt.out.drop 328).take 8 = leBytes s.pkgid 8) ∧
    (∀ die, die < 4 → ∃ t, exec (.mgmtForceDecTed die) s = .next t ∧ t.mem = s.mem ∧ t.cores = s.cores ∧
      (∀ i < 96, i ∈ (t.dieAt die).strong) ∧ (∀ j, j ≠ die → t.dieAt j = s.dieAt j)) ∧
    (∀ c, c < 384 → (s.sageOf c).st < 3 → exec (.mgmtRetireCore c) s = .next { s with sage := s.sage.put c { s.sageOf c with admin := true } }) ∧
    (∀ v, s.mgmt.minsvn < v → exec (.mgmtRaiseMinSvn v true) s = .next { s with mgmt := { s.mgmt with minsvn := v } }) ∧
    (∀ v b, b = false ∨ v ≤ s.mgmt.minsvn → exec (.mgmtRaiseMinSvn v b) s = .next s) ∧
    (∀ c, c < 384 → (s.coreAt c).out = true → (s.sageOf c).failed = false → (s.coreAt c).failed = false → (s.sageOf c).st < 3 →
      CoreStep (.mgmtClearCore c) c (fun y => { y with out := false }) s) ∧
    (∀ c, (s.coreAt c).failed = true → exec (.mgmtClearCore c) s = .next s)

/-- Every way in which memory changes keeps it canonical: stores, atomics, engines, slots and snapshots, saves and restores, tokens that
zero a region, host writes, the journal, reset. -/
def Obligations.StepKeepsMemoryCanonical : Prop :=
  ∀ (s t : State), s.mem.wf = true → step s = .next t → t.mem.wf = true
end

