-- ==== Sys2Proof/Laws/State.lean ====
section
/-!
SUPPORT. One lemma for each field and each named update of the state (`setCore`, `modCtx`, `put`, ...): what the update leaves alone.
-/
namespace Sys2Proof.Machine

@[simp] theorem State.setCore_mem (s : State) (c : Nat) (x : Core) : (s.setCore c x).mem = s.mem := rfl
@[simp] theorem State.setCore_tags (s : State) (c : Nat) (x : Core) : (s.setCore c x).tags = s.tags := rfl
@[simp] theorem State.setCore_bad (s : State) (c : Nat) (x : Core) : (s.setCore c x).bad = s.bad := rfl
@[simp] theorem State.setCore_cycle (s : State) (c : Nat) (x : Core) : (s.setCore c x).cycle = s.cycle := rfl
@[simp] theorem State.setCore_tick (s : State) (c : Nat) (x : Core) : (s.setCore c x).tick = s.tick := rfl
@[simp] theorem State.setCore_agenda (s : State) (c : Nat) (x : Core) : (s.setCore c x).agenda = s.agenda := rfl
@[simp] theorem State.setCore_cur (s : State) (c : Nat) (x : Core) : (s.setCore c x).cur = s.cur := rfl
@[simp] theorem State.setCore_fresh (s : State) (c : Nat) (x : Core) : (s.setCore c x).fresh = s.fresh := rfl
@[simp] theorem State.setCore_flight (s : State) (c : Nat) (x : Core) : (s.setCore c x).flight = s.flight := rfl
@[simp] theorem State.setCore_own (s : State) (c : Nat) (x : Core) : (s.setCore c x).own = s.own := rfl
@[simp] theorem State.setCore_ops (s : State) (c : Nat) (x : Core) : (s.setCore c x).ops = s.ops := rfl
@[simp] theorem State.setCore_granules (s : State) (c : Nat) (x : Core) : (s.setCore c x).granules = s.granules := rfl
@[simp] theorem State.setCore_seq (s : State) (c : Nat) (x : Core) : (s.setCore c x).seq = s.seq := rfl
@[simp] theorem State.setCore_pkgid (s : State) (c : Nat) (x : Core) : (s.setCore c x).pkgid = s.pkgid := rfl
@[simp] theorem State.setCore_pod (s : State) (c : Nat) (x : Core) : (s.setCore c x).pod = s.pod := rfl
@[simp] theorem State.setCore_podid (s : State) (c : Nat) (x : Core) : (s.setCore c x).podid = s.podid := rfl
@[simp] theorem State.setCore_l2locks (s : State) (c : Nat) (x : Core) : (s.setCore c x).l2locks = s.l2locks := rfl
@[simp] theorem State.setCore_soft (s : State) (c : Nat) (x : Core) : (s.setCore c x).soft = s.soft := rfl
@[simp] theorem State.setCore_bars (s : State) (c : Nat) (x : Core) : (s.setCore c x).bars = s.bars := rfl
@[simp] theorem State.setCore_gangs (s : State) (c : Nat) (x : Core) : (s.setCore c x).gangs = s.gangs := rfl
@[simp] theorem State.setCore_thyme (s : State) (c : Nat) (x : Core) : (s.setCore c x).thyme = s.thyme := rfl
@[simp] theorem State.setCore_sage (s : State) (c : Nat) (x : Core) : (s.setCore c x).sage = s.sage := rfl
@[simp] theorem State.setCore_ivals (s : State) (c : Nat) (x : Core) : (s.setCore c x).ivals = s.ivals := rfl
@[simp] theorem State.setCore_commits (s : State) (c : Nat) (x : Core) : (s.setCore c x).commits = s.commits := rfl
@[simp] theorem State.setCore_stored (s : State) (c : Nat) (x : Core) : (s.setCore c x).stored = s.stored := rfl
@[simp] theorem State.setCore_banks (s : State) (c : Nat) (x : Core) : (s.setCore c x).banks = s.banks := rfl
@[simp] theorem State.setCore_hbmStacks (s : State) (c : Nat) (x : Core) : (s.setCore c x).hbmStacks = s.hbmStacks := rfl
@[simp] theorem State.setCore_dies (s : State) (c : Nat) (x : Core) : (s.setCore c x).dies = s.dies := rfl
@[simp] theorem State.setCore_links (s : State) (c : Nat) (x : Core) : (s.setCore c x).links = s.links := rfl
@[simp] theorem State.setCore_paths (s : State) (c : Nat) (x : Core) : (s.setCore c x).paths = s.paths := rfl
@[simp] theorem State.setCore_ports (s : State) (c : Nat) (x : Core) : (s.setCore c x).ports = s.ports := rfl
@[simp] theorem State.setCore_torn (s : State) (c : Nat) (x : Core) : (s.setCore c x).torn = s.torn := rfl
@[simp] theorem State.setCore_heard (s : State) (c : Nat) (x : Core) : (s.setCore c x).heard = s.heard := rfl
@[simp] theorem State.setCore_hosts (s : State) (c : Nat) (x : Core) : (s.setCore c x).hosts = s.hosts := rfl
@[simp] theorem State.setCore_routes (s : State) (c : Nat) (x : Core) : (s.setCore c x).routes = s.routes := rfl
@[simp] theorem State.setCore_journal (s : State) (c : Nat) (x : Core) : (s.setCore c x).journal = s.journal := rfl
@[simp] theorem State.setCore_mgmt (s : State) (c : Nat) (x : Core) : (s.setCore c x).mgmt = s.mgmt := rfl

@[simp] theorem State.modCore_mem (s : State) (c : Nat) (f : Core → Core) : (s.modCore c f).mem = s.mem := rfl
@[simp] theorem State.modCore_tags (s : State) (c : Nat) (f : Core → Core) : (s.modCore c f).tags = s.tags := rfl
@[simp] theorem State.modCore_bad (s : State) (c : Nat) (f : Core → Core) : (s.modCore c f).bad = s.bad := rfl
@[simp] theorem State.modCore_cycle (s : State) (c : Nat) (f : Core → Core) : (s.modCore c f).cycle = s.cycle := rfl
@[simp] theorem State.modCore_tick (s : State) (c : Nat) (f : Core → Core) : (s.modCore c f).tick = s.tick := rfl
@[simp] theorem State.modCore_agenda (s : State) (c : Nat) (f : Core → Core) : (s.modCore c f).agenda = s.agenda := rfl
@[simp] theorem State.modCore_cur (s : State) (c : Nat) (f : Core → Core) : (s.modCore c f).cur = s.cur := rfl
@[simp] theorem State.modCore_fresh (s : State) (c : Nat) (f : Core → Core) : (s.modCore c f).fresh = s.fresh := rfl
@[simp] theorem State.modCore_flight (s : State) (c : Nat) (f : Core → Core) : (s.modCore c f).flight = s.flight := rfl
@[simp] theorem State.modCore_own (s : State) (c : Nat) (f : Core → Core) : (s.modCore c f).own = s.own := rfl
@[simp] theorem State.modCore_ops (s : State) (c : Nat) (f : Core → Core) : (s.modCore c f).ops = s.ops := rfl
@[simp] theorem State.modCore_granules (s : State) (c : Nat) (f : Core → Core) : (s.modCore c f).granules = s.granules := rfl
@[simp] theorem State.modCore_seq (s : State) (c : Nat) (f : Core → Core) : (s.modCore c f).seq = s.seq := rfl
@[simp] theorem State.modCore_pkgid (s : State) (c : Nat) (f : Core → Core) : (s.modCore c f).pkgid = s.pkgid := rfl
@[simp] theorem State.modCore_pod (s : State) (c : Nat) (f : Core → Core) : (s.modCore c f).pod = s.pod := rfl
@[simp] theorem State.modCore_podid (s : State) (c : Nat) (f : Core → Core) : (s.modCore c f).podid = s.podid := rfl
@[simp] theorem State.modCore_l2locks (s : State) (c : Nat) (f : Core → Core) : (s.modCore c f).l2locks = s.l2locks := rfl
@[simp] theorem State.modCore_soft (s : State) (c : Nat) (f : Core → Core) : (s.modCore c f).soft = s.soft := rfl
@[simp] theorem State.modCore_bars (s : State) (c : Nat) (f : Core → Core) : (s.modCore c f).bars = s.bars := rfl
@[simp] theorem State.modCore_gangs (s : State) (c : Nat) (f : Core → Core) : (s.modCore c f).gangs = s.gangs := rfl
@[simp] theorem State.modCore_thyme (s : State) (c : Nat) (f : Core → Core) : (s.modCore c f).thyme = s.thyme := rfl
@[simp] theorem State.modCore_sage (s : State) (c : Nat) (f : Core → Core) : (s.modCore c f).sage = s.sage := rfl
@[simp] theorem State.modCore_ivals (s : State) (c : Nat) (f : Core → Core) : (s.modCore c f).ivals = s.ivals := rfl
@[simp] theorem State.modCore_commits (s : State) (c : Nat) (f : Core → Core) : (s.modCore c f).commits = s.commits := rfl
@[simp] theorem State.modCore_stored (s : State) (c : Nat) (f : Core → Core) : (s.modCore c f).stored = s.stored := rfl
@[simp] theorem State.modCore_banks (s : State) (c : Nat) (f : Core → Core) : (s.modCore c f).banks = s.banks := rfl
@[simp] theorem State.modCore_hbmStacks (s : State) (c : Nat) (f : Core → Core) : (s.modCore c f).hbmStacks = s.hbmStacks := rfl
@[simp] theorem State.modCore_dies (s : State) (c : Nat) (f : Core → Core) : (s.modCore c f).dies = s.dies := rfl
@[simp] theorem State.modCore_links (s : State) (c : Nat) (f : Core → Core) : (s.modCore c f).links = s.links := rfl
@[simp] theorem State.modCore_paths (s : State) (c : Nat) (f : Core → Core) : (s.modCore c f).paths = s.paths := rfl
@[simp] theorem State.modCore_ports (s : State) (c : Nat) (f : Core → Core) : (s.modCore c f).ports = s.ports := rfl
@[simp] theorem State.modCore_torn (s : State) (c : Nat) (f : Core → Core) : (s.modCore c f).torn = s.torn := rfl
@[simp] theorem State.modCore_heard (s : State) (c : Nat) (f : Core → Core) : (s.modCore c f).heard = s.heard := rfl
@[simp] theorem State.modCore_hosts (s : State) (c : Nat) (f : Core → Core) : (s.modCore c f).hosts = s.hosts := rfl
@[simp] theorem State.modCore_routes (s : State) (c : Nat) (f : Core → Core) : (s.modCore c f).routes = s.routes := rfl
@[simp] theorem State.modCore_journal (s : State) (c : Nat) (f : Core → Core) : (s.modCore c f).journal = s.journal := rfl
@[simp] theorem State.modCore_mgmt (s : State) (c : Nat) (f : Core → Core) : (s.modCore c f).mgmt = s.mgmt := rfl

@[simp] theorem State.modCtx_mem (s : State) (c k : Nat) (f : Ctx → Ctx) : (s.modCtx c k f).mem = s.mem := rfl
@[simp] theorem State.modCtx_tags (s : State) (c k : Nat) (f : Ctx → Ctx) : (s.modCtx c k f).tags = s.tags := rfl
@[simp] theorem State.modCtx_bad (s : State) (c k : Nat) (f : Ctx → Ctx) : (s.modCtx c k f).bad = s.bad := rfl
@[simp] theorem State.modCtx_cycle (s : State) (c k : Nat) (f : Ctx → Ctx) : (s.modCtx c k f).cycle = s.cycle := rfl
@[simp] theorem State.modCtx_tick (s : State) (c k : Nat) (f : Ctx → Ctx) : (s.modCtx c k f).tick = s.tick := rfl
@[simp] theorem State.modCtx_agenda (s : State) (c k : Nat) (f : Ctx → Ctx) : (s.modCtx c k f).agenda = s.agenda := rfl
@[simp] theorem State.modCtx_cur (s : State) (c k : Nat) (f : Ctx → Ctx) : (s.modCtx c k f).cur = s.cur := rfl
@[simp] theorem State.modCtx_fresh (s : State) (c k : Nat) (f : Ctx → Ctx) : (s.modCtx c k f).fresh = s.fresh := rfl
@[simp] theorem State.modCtx_flight (s : State) (c k : Nat) (f : Ctx → Ctx) : (s.modCtx c k f).flight = s.flight := rfl
@[simp] theorem State.modCtx_own (s : State) (c k : Nat) (f : Ctx → Ctx) : (s.modCtx c k f).own = s.own := rfl
@[simp] theorem State.modCtx_ops (s : State) (c k : Nat) (f : Ctx → Ctx) : (s.modCtx c k f).ops = s.ops := rfl
@[simp] theorem State.modCtx_granules (s : State) (c k : Nat) (f : Ctx → Ctx) : (s.modCtx c k f).granules = s.granules := rfl
@[simp] theorem State.modCtx_seq (s : State) (c k : Nat) (f : Ctx → Ctx) : (s.modCtx c k f).seq = s.seq := rfl
@[simp] theorem State.modCtx_pkgid (s : State) (c k : Nat) (f : Ctx → Ctx) : (s.modCtx c k f).pkgid = s.pkgid := rfl
@[simp] theorem State.modCtx_pod (s : State) (c k : Nat) (f : Ctx → Ctx) : (s.modCtx c k f).pod = s.pod := rfl
@[simp] theorem State.modCtx_podid (s : State) (c k : Nat) (f : Ctx → Ctx) : (s.modCtx c k f).podid = s.podid := rfl
@[simp] theorem State.modCtx_l2locks (s : State) (c k : Nat) (f : Ctx → Ctx) : (s.modCtx c k f).l2locks = s.l2locks := rfl
@[simp] theorem State.modCtx_soft (s : State) (c k : Nat) (f : Ctx → Ctx) : (s.modCtx c k f).soft = s.soft := rfl
@[simp] theorem State.modCtx_bars (s : State) (c k : Nat) (f : Ctx → Ctx) : (s.modCtx c k f).bars = s.bars := rfl
@[simp] theorem State.modCtx_gangs (s : State) (c k : Nat) (f : Ctx → Ctx) : (s.modCtx c k f).gangs = s.gangs := rfl
@[simp] theorem State.modCtx_thyme (s : State) (c k : Nat) (f : Ctx → Ctx) : (s.modCtx c k f).thyme = s.thyme := rfl
@[simp] theorem State.modCtx_sage (s : State) (c k : Nat) (f : Ctx → Ctx) : (s.modCtx c k f).sage = s.sage := rfl
@[simp] theorem State.modCtx_ivals (s : State) (c k : Nat) (f : Ctx → Ctx) : (s.modCtx c k f).ivals = s.ivals := rfl
@[simp] theorem State.modCtx_commits (s : State) (c k : Nat) (f : Ctx → Ctx) : (s.modCtx c k f).commits = s.commits := rfl
@[simp] theorem State.modCtx_stored (s : State) (c k : Nat) (f : Ctx → Ctx) : (s.modCtx c k f).stored = s.stored := rfl
@[simp] theorem State.modCtx_banks (s : State) (c k : Nat) (f : Ctx → Ctx) : (s.modCtx c k f).banks = s.banks := rfl
@[simp] theorem State.modCtx_hbmStacks (s : State) (c k : Nat) (f : Ctx → Ctx) : (s.modCtx c k f).hbmStacks = s.hbmStacks := rfl
@[simp] theorem State.modCtx_dies (s : State) (c k : Nat) (f : Ctx → Ctx) : (s.modCtx c k f).dies = s.dies := rfl
@[simp] theorem State.modCtx_links (s : State) (c k : Nat) (f : Ctx → Ctx) : (s.modCtx c k f).links = s.links := rfl
@[simp] theorem State.modCtx_paths (s : State) (c k : Nat) (f : Ctx → Ctx) : (s.modCtx c k f).paths = s.paths := rfl
@[simp] theorem State.modCtx_ports (s : State) (c k : Nat) (f : Ctx → Ctx) : (s.modCtx c k f).ports = s.ports := rfl
@[simp] theorem State.modCtx_torn (s : State) (c k : Nat) (f : Ctx → Ctx) : (s.modCtx c k f).torn = s.torn := rfl
@[simp] theorem State.modCtx_heard (s : State) (c k : Nat) (f : Ctx → Ctx) : (s.modCtx c k f).heard = s.heard := rfl
@[simp] theorem State.modCtx_hosts (s : State) (c k : Nat) (f : Ctx → Ctx) : (s.modCtx c k f).hosts = s.hosts := rfl
@[simp] theorem State.modCtx_routes (s : State) (c k : Nat) (f : Ctx → Ctx) : (s.modCtx c k f).routes = s.routes := rfl
@[simp] theorem State.modCtx_journal (s : State) (c k : Nat) (f : Ctx → Ctx) : (s.modCtx c k f).journal = s.journal := rfl
@[simp] theorem State.modCtx_mgmt (s : State) (c k : Nat) (f : Ctx → Ctx) : (s.modCtx c k f).mgmt = s.mgmt := rfl

@[simp] theorem State.modMyCore_mem (s : State) (f : Core → Core) : (s.modMyCore f).mem = s.mem := rfl
@[simp] theorem State.modMyCore_tags (s : State) (f : Core → Core) : (s.modMyCore f).tags = s.tags := rfl
@[simp] theorem State.modMyCore_bad (s : State) (f : Core → Core) : (s.modMyCore f).bad = s.bad := rfl
@[simp] theorem State.modMyCore_cycle (s : State) (f : Core → Core) : (s.modMyCore f).cycle = s.cycle := rfl
@[simp] theorem State.modMyCore_tick (s : State) (f : Core → Core) : (s.modMyCore f).tick = s.tick := rfl
@[simp] theorem State.modMyCore_agenda (s : State) (f : Core → Core) : (s.modMyCore f).agenda = s.agenda := rfl
@[simp] theorem State.modMyCore_cur (s : State) (f : Core → Core) : (s.modMyCore f).cur = s.cur := rfl
@[simp] theorem State.modMyCore_fresh (s : State) (f : Core → Core) : (s.modMyCore f).fresh = s.fresh := rfl
@[simp] theorem State.modMyCore_flight (s : State) (f : Core → Core) : (s.modMyCore f).flight = s.flight := rfl
@[simp] theorem State.modMyCore_own (s : State) (f : Core → Core) : (s.modMyCore f).own = s.own := rfl
@[simp] theorem State.modMyCore_ops (s : State) (f : Core → Core) : (s.modMyCore f).ops = s.ops := rfl
@[simp] theorem State.modMyCore_granules (s : State) (f : Core → Core) : (s.modMyCore f).granules = s.granules := rfl
@[simp] theorem State.modMyCore_seq (s : State) (f : Core → Core) : (s.modMyCore f).seq = s.seq := rfl
@[simp] theorem State.modMyCore_pkgid (s : State) (f : Core → Core) : (s.modMyCore f).pkgid = s.pkgid := rfl
@[simp] theorem State.modMyCore_pod (s : State) (f : Core → Core) : (s.modMyCore f).pod = s.pod := rfl
@[simp] theorem State.modMyCore_podid (s : State) (f : Core → Core) : (s.modMyCore f).podid = s.podid := rfl
@[simp] theorem State.modMyCore_l2locks (s : State) (f : Core → Core) : (s.modMyCore f).l2locks = s.l2locks := rfl
@[simp] theorem State.modMyCore_soft (s : State) (f : Core → Core) : (s.modMyCore f).soft = s.soft := rfl
@[simp] theorem State.modMyCore_bars (s : State) (f : Core → Core) : (s.modMyCore f).bars = s.bars := rfl
@[simp] theorem State.modMyCore_gangs (s : State) (f : Core → Core) : (s.modMyCore f).gangs = s.gangs := rfl
@[simp] theorem State.modMyCore_thyme (s : State) (f : Core → Core) : (s.modMyCore f).thyme = s.thyme := rfl
@[simp] theorem State.modMyCore_sage (s : State) (f : Core → Core) : (s.modMyCore f).sage = s.sage := rfl
@[simp] theorem State.modMyCore_ivals (s : State) (f : Core → Core) : (s.modMyCore f).ivals = s.ivals := rfl
@[simp] theorem State.modMyCore_commits (s : State) (f : Core → Core) : (s.modMyCore f).commits = s.commits := rfl
@[simp] theorem State.modMyCore_stored (s : State) (f : Core → Core) : (s.modMyCore f).stored = s.stored := rfl
@[simp] theorem State.modMyCore_banks (s : State) (f : Core → Core) : (s.modMyCore f).banks = s.banks := rfl
@[simp] theorem State.modMyCore_hbmStacks (s : State) (f : Core → Core) : (s.modMyCore f).hbmStacks = s.hbmStacks := rfl
@[simp] theorem State.modMyCore_dies (s : State) (f : Core → Core) : (s.modMyCore f).dies = s.dies := rfl
@[simp] theorem State.modMyCore_links (s : State) (f : Core → Core) : (s.modMyCore f).links = s.links := rfl
@[simp] theorem State.modMyCore_paths (s : State) (f : Core → Core) : (s.modMyCore f).paths = s.paths := rfl
@[simp] theorem State.modMyCore_ports (s : State) (f : Core → Core) : (s.modMyCore f).ports = s.ports := rfl
@[simp] theorem State.modMyCore_torn (s : State) (f : Core → Core) : (s.modMyCore f).torn = s.torn := rfl
@[simp] theorem State.modMyCore_heard (s : State) (f : Core → Core) : (s.modMyCore f).heard = s.heard := rfl
@[simp] theorem State.modMyCore_hosts (s : State) (f : Core → Core) : (s.modMyCore f).hosts = s.hosts := rfl
@[simp] theorem State.modMyCore_routes (s : State) (f : Core → Core) : (s.modMyCore f).routes = s.routes := rfl
@[simp] theorem State.modMyCore_journal (s : State) (f : Core → Core) : (s.modMyCore f).journal = s.journal := rfl
@[simp] theorem State.modMyCore_mgmt (s : State) (f : Core → Core) : (s.modMyCore f).mgmt = s.mgmt := rfl

@[simp] theorem State.modMe_mem (s : State) (f : Ctx → Ctx) : (s.modMe f).mem = s.mem := rfl
@[simp] theorem State.modMe_tags (s : State) (f : Ctx → Ctx) : (s.modMe f).tags = s.tags := rfl
@[simp] theorem State.modMe_bad (s : State) (f : Ctx → Ctx) : (s.modMe f).bad = s.bad := rfl
@[simp] theorem State.modMe_cycle (s : State) (f : Ctx → Ctx) : (s.modMe f).cycle = s.cycle := rfl
@[simp] theorem State.modMe_tick (s : State) (f : Ctx → Ctx) : (s.modMe f).tick = s.tick := rfl
@[simp] theorem State.modMe_agenda (s : State) (f : Ctx → Ctx) : (s.modMe f).agenda = s.agenda := rfl
@[simp] theorem State.modMe_cur (s : State) (f : Ctx → Ctx) : (s.modMe f).cur = s.cur := rfl
@[simp] theorem State.modMe_fresh (s : State) (f : Ctx → Ctx) : (s.modMe f).fresh = s.fresh := rfl
@[simp] theorem State.modMe_flight (s : State) (f : Ctx → Ctx) : (s.modMe f).flight = s.flight := rfl
@[simp] theorem State.modMe_own (s : State) (f : Ctx → Ctx) : (s.modMe f).own = s.own := rfl
@[simp] theorem State.modMe_ops (s : State) (f : Ctx → Ctx) : (s.modMe f).ops = s.ops := rfl
@[simp] theorem State.modMe_granules (s : State) (f : Ctx → Ctx) : (s.modMe f).granules = s.granules := rfl
@[simp] theorem State.modMe_seq (s : State) (f : Ctx → Ctx) : (s.modMe f).seq = s.seq := rfl
@[simp] theorem State.modMe_pkgid (s : State) (f : Ctx → Ctx) : (s.modMe f).pkgid = s.pkgid := rfl
@[simp] theorem State.modMe_pod (s : State) (f : Ctx → Ctx) : (s.modMe f).pod = s.pod := rfl
@[simp] theorem State.modMe_podid (s : State) (f : Ctx → Ctx) : (s.modMe f).podid = s.podid := rfl
@[simp] theorem State.modMe_l2locks (s : State) (f : Ctx → Ctx) : (s.modMe f).l2locks = s.l2locks := rfl
@[simp] theorem State.modMe_soft (s : State) (f : Ctx → Ctx) : (s.modMe f).soft = s.soft := rfl
@[simp] theorem State.modMe_bars (s : State) (f : Ctx → Ctx) : (s.modMe f).bars = s.bars := rfl
@[simp] theorem State.modMe_gangs (s : State) (f : Ctx → Ctx) : (s.modMe f).gangs = s.gangs := rfl
@[simp] theorem State.modMe_thyme (s : State) (f : Ctx → Ctx) : (s.modMe f).thyme = s.thyme := rfl
@[simp] theorem State.modMe_sage (s : State) (f : Ctx → Ctx) : (s.modMe f).sage = s.sage := rfl
@[simp] theorem State.modMe_ivals (s : State) (f : Ctx → Ctx) : (s.modMe f).ivals = s.ivals := rfl
@[simp] theorem State.modMe_commits (s : State) (f : Ctx → Ctx) : (s.modMe f).commits = s.commits := rfl
@[simp] theorem State.modMe_stored (s : State) (f : Ctx → Ctx) : (s.modMe f).stored = s.stored := rfl
@[simp] theorem State.modMe_banks (s : State) (f : Ctx → Ctx) : (s.modMe f).banks = s.banks := rfl
@[simp] theorem State.modMe_hbmStacks (s : State) (f : Ctx → Ctx) : (s.modMe f).hbmStacks = s.hbmStacks := rfl
@[simp] theorem State.modMe_dies (s : State) (f : Ctx → Ctx) : (s.modMe f).dies = s.dies := rfl
@[simp] theorem State.modMe_links (s : State) (f : Ctx → Ctx) : (s.modMe f).links = s.links := rfl
@[simp] theorem State.modMe_paths (s : State) (f : Ctx → Ctx) : (s.modMe f).paths = s.paths := rfl
@[simp] theorem State.modMe_ports (s : State) (f : Ctx → Ctx) : (s.modMe f).ports = s.ports := rfl
@[simp] theorem State.modMe_torn (s : State) (f : Ctx → Ctx) : (s.modMe f).torn = s.torn := rfl
@[simp] theorem State.modMe_heard (s : State) (f : Ctx → Ctx) : (s.modMe f).heard = s.heard := rfl
@[simp] theorem State.modMe_hosts (s : State) (f : Ctx → Ctx) : (s.modMe f).hosts = s.hosts := rfl
@[simp] theorem State.modMe_routes (s : State) (f : Ctx → Ctx) : (s.modMe f).routes = s.routes := rfl
@[simp] theorem State.modMe_journal (s : State) (f : Ctx → Ctx) : (s.modMe f).journal = s.journal := rfl
@[simp] theorem State.modMe_mgmt (s : State) (f : Ctx → Ctx) : (s.modMe f).mgmt = s.mgmt := rfl

@[simp] theorem State.modData_mem (s : State) (f : Ctx → Ctx) : (s.modData f).mem = s.mem := rfl
@[simp] theorem State.modData_tags (s : State) (f : Ctx → Ctx) : (s.modData f).tags = s.tags := rfl
@[simp] theorem State.modData_bad (s : State) (f : Ctx → Ctx) : (s.modData f).bad = s.bad := rfl
@[simp] theorem State.modData_cycle (s : State) (f : Ctx → Ctx) : (s.modData f).cycle = s.cycle := rfl
@[simp] theorem State.modData_tick (s : State) (f : Ctx → Ctx) : (s.modData f).tick = s.tick := rfl
@[simp] theorem State.modData_agenda (s : State) (f : Ctx → Ctx) : (s.modData f).agenda = s.agenda := rfl
@[simp] theorem State.modData_cur (s : State) (f : Ctx → Ctx) : (s.modData f).cur = s.cur := rfl
@[simp] theorem State.modData_fresh (s : State) (f : Ctx → Ctx) : (s.modData f).fresh = s.fresh := rfl
@[simp] theorem State.modData_flight (s : State) (f : Ctx → Ctx) : (s.modData f).flight = s.flight := rfl
@[simp] theorem State.modData_own (s : State) (f : Ctx → Ctx) : (s.modData f).own = s.own := rfl
@[simp] theorem State.modData_ops (s : State) (f : Ctx → Ctx) : (s.modData f).ops = s.ops := rfl
@[simp] theorem State.modData_granules (s : State) (f : Ctx → Ctx) : (s.modData f).granules = s.granules := rfl
@[simp] theorem State.modData_seq (s : State) (f : Ctx → Ctx) : (s.modData f).seq = s.seq := rfl
@[simp] theorem State.modData_pkgid (s : State) (f : Ctx → Ctx) : (s.modData f).pkgid = s.pkgid := rfl
@[simp] theorem State.modData_pod (s : State) (f : Ctx → Ctx) : (s.modData f).pod = s.pod := rfl
@[simp] theorem State.modData_podid (s : State) (f : Ctx → Ctx) : (s.modData f).podid = s.podid := rfl
@[simp] theorem State.modData_l2locks (s : State) (f : Ctx → Ctx) : (s.modData f).l2locks = s.l2locks := rfl
@[simp] theorem State.modData_soft (s : State) (f : Ctx → Ctx) : (s.modData f).soft = s.soft := rfl
@[simp] theorem State.modData_bars (s : State) (f : Ctx → Ctx) : (s.modData f).bars = s.bars := rfl
@[simp] theorem State.modData_gangs (s : State) (f : Ctx → Ctx) : (s.modData f).gangs = s.gangs := rfl
@[simp] theorem State.modData_thyme (s : State) (f : Ctx → Ctx) : (s.modData f).thyme = s.thyme := rfl
@[simp] theorem State.modData_sage (s : State) (f : Ctx → Ctx) : (s.modData f).sage = s.sage := rfl
@[simp] theorem State.modData_ivals (s : State) (f : Ctx → Ctx) : (s.modData f).ivals = s.ivals := rfl
@[simp] theorem State.modData_commits (s : State) (f : Ctx → Ctx) : (s.modData f).commits = s.commits := rfl
@[simp] theorem State.modData_stored (s : State) (f : Ctx → Ctx) : (s.modData f).stored = s.stored := rfl
@[simp] theorem State.modData_banks (s : State) (f : Ctx → Ctx) : (s.modData f).banks = s.banks := rfl
@[simp] theorem State.modData_hbmStacks (s : State) (f : Ctx → Ctx) : (s.modData f).hbmStacks = s.hbmStacks := rfl
@[simp] theorem State.modData_dies (s : State) (f : Ctx → Ctx) : (s.modData f).dies = s.dies := rfl
@[simp] theorem State.modData_links (s : State) (f : Ctx → Ctx) : (s.modData f).links = s.links := rfl
@[simp] theorem State.modData_paths (s : State) (f : Ctx → Ctx) : (s.modData f).paths = s.paths := rfl
@[simp] theorem State.modData_ports (s : State) (f : Ctx → Ctx) : (s.modData f).ports = s.ports := rfl
@[simp] theorem State.modData_torn (s : State) (f : Ctx → Ctx) : (s.modData f).torn = s.torn := rfl
@[simp] theorem State.modData_heard (s : State) (f : Ctx → Ctx) : (s.modData f).heard = s.heard := rfl
@[simp] theorem State.modData_hosts (s : State) (f : Ctx → Ctx) : (s.modData f).hosts = s.hosts := rfl
@[simp] theorem State.modData_routes (s : State) (f : Ctx → Ctx) : (s.modData f).routes = s.routes := rfl
@[simp] theorem State.modData_journal (s : State) (f : Ctx → Ctx) : (s.modData f).journal = s.journal := rfl
@[simp] theorem State.modData_mgmt (s : State) (f : Ctx → Ctx) : (s.modData f).mgmt = s.mgmt := rfl

@[simp] theorem State.modBun_mem (s : State) (f : Bun → Bun) : (s.modBun f).mem = s.mem := rfl
@[simp] theorem State.modBun_tags (s : State) (f : Bun → Bun) : (s.modBun f).tags = s.tags := rfl
@[simp] theorem State.modBun_bad (s : State) (f : Bun → Bun) : (s.modBun f).bad = s.bad := rfl
@[simp] theorem State.modBun_cycle (s : State) (f : Bun → Bun) : (s.modBun f).cycle = s.cycle := rfl
@[simp] theorem State.modBun_tick (s : State) (f : Bun → Bun) : (s.modBun f).tick = s.tick := rfl
@[simp] theorem State.modBun_agenda (s : State) (f : Bun → Bun) : (s.modBun f).agenda = s.agenda := rfl
@[simp] theorem State.modBun_cur (s : State) (f : Bun → Bun) : (s.modBun f).cur = s.cur := rfl
@[simp] theorem State.modBun_fresh (s : State) (f : Bun → Bun) : (s.modBun f).fresh = s.fresh := rfl
@[simp] theorem State.modBun_flight (s : State) (f : Bun → Bun) : (s.modBun f).flight = s.flight := rfl
@[simp] theorem State.modBun_own (s : State) (f : Bun → Bun) : (s.modBun f).own = s.own := rfl
@[simp] theorem State.modBun_ops (s : State) (f : Bun → Bun) : (s.modBun f).ops = s.ops := rfl
@[simp] theorem State.modBun_granules (s : State) (f : Bun → Bun) : (s.modBun f).granules = s.granules := rfl
@[simp] theorem State.modBun_seq (s : State) (f : Bun → Bun) : (s.modBun f).seq = s.seq := rfl
@[simp] theorem State.modBun_pkgid (s : State) (f : Bun → Bun) : (s.modBun f).pkgid = s.pkgid := rfl
@[simp] theorem State.modBun_pod (s : State) (f : Bun → Bun) : (s.modBun f).pod = s.pod := rfl
@[simp] theorem State.modBun_podid (s : State) (f : Bun → Bun) : (s.modBun f).podid = s.podid := rfl
@[simp] theorem State.modBun_l2locks (s : State) (f : Bun → Bun) : (s.modBun f).l2locks = s.l2locks := rfl
@[simp] theorem State.modBun_soft (s : State) (f : Bun → Bun) : (s.modBun f).soft = s.soft := rfl
@[simp] theorem State.modBun_bars (s : State) (f : Bun → Bun) : (s.modBun f).bars = s.bars := rfl
@[simp] theorem State.modBun_gangs (s : State) (f : Bun → Bun) : (s.modBun f).gangs = s.gangs := rfl
@[simp] theorem State.modBun_thyme (s : State) (f : Bun → Bun) : (s.modBun f).thyme = s.thyme := rfl
@[simp] theorem State.modBun_sage (s : State) (f : Bun → Bun) : (s.modBun f).sage = s.sage := rfl
@[simp] theorem State.modBun_ivals (s : State) (f : Bun → Bun) : (s.modBun f).ivals = s.ivals := rfl
@[simp] theorem State.modBun_commits (s : State) (f : Bun → Bun) : (s.modBun f).commits = s.commits := rfl
@[simp] theorem State.modBun_stored (s : State) (f : Bun → Bun) : (s.modBun f).stored = s.stored := rfl
@[simp] theorem State.modBun_banks (s : State) (f : Bun → Bun) : (s.modBun f).banks = s.banks := rfl
@[simp] theorem State.modBun_hbmStacks (s : State) (f : Bun → Bun) : (s.modBun f).hbmStacks = s.hbmStacks := rfl
@[simp] theorem State.modBun_dies (s : State) (f : Bun → Bun) : (s.modBun f).dies = s.dies := rfl
@[simp] theorem State.modBun_links (s : State) (f : Bun → Bun) : (s.modBun f).links = s.links := rfl
@[simp] theorem State.modBun_paths (s : State) (f : Bun → Bun) : (s.modBun f).paths = s.paths := rfl
@[simp] theorem State.modBun_ports (s : State) (f : Bun → Bun) : (s.modBun f).ports = s.ports := rfl
@[simp] theorem State.modBun_torn (s : State) (f : Bun → Bun) : (s.modBun f).torn = s.torn := rfl
@[simp] theorem State.modBun_heard (s : State) (f : Bun → Bun) : (s.modBun f).heard = s.heard := rfl
@[simp] theorem State.modBun_hosts (s : State) (f : Bun → Bun) : (s.modBun f).hosts = s.hosts := rfl
@[simp] theorem State.modBun_routes (s : State) (f : Bun → Bun) : (s.modBun f).routes = s.routes := rfl
@[simp] theorem State.modBun_journal (s : State) (f : Bun → Bun) : (s.modBun f).journal = s.journal := rfl
@[simp] theorem State.modBun_mgmt (s : State) (f : Bun → Bun) : (s.modBun f).mgmt = s.mgmt := rfl

@[simp] theorem State.put_mem (s : State) (w : Write) (lat : Nat) : (s.put w lat).mem = s.mem := rfl
@[simp] theorem State.put_tags (s : State) (w : Write) (lat : Nat) : (s.put w lat).tags = s.tags := rfl
@[simp] theorem State.put_bad (s : State) (w : Write) (lat : Nat) : (s.put w lat).bad = s.bad := rfl
@[simp] theorem State.put_cycle (s : State) (w : Write) (lat : Nat) : (s.put w lat).cycle = s.cycle := rfl
@[simp] theorem State.put_tick (s : State) (w : Write) (lat : Nat) : (s.put w lat).tick = s.tick := rfl
@[simp] theorem State.put_agenda (s : State) (w : Write) (lat : Nat) : (s.put w lat).agenda = s.agenda := rfl
@[simp] theorem State.put_cur (s : State) (w : Write) (lat : Nat) : (s.put w lat).cur = s.cur := rfl
@[simp] theorem State.put_fresh (s : State) (w : Write) (lat : Nat) : (s.put w lat).fresh = s.fresh := rfl
@[simp] theorem State.put_flight (s : State) (w : Write) (lat : Nat) : (s.put w lat).flight = s.flight := rfl
@[simp] theorem State.put_own (s : State) (w : Write) (lat : Nat) : (s.put w lat).own = s.own := rfl
@[simp] theorem State.put_ops (s : State) (w : Write) (lat : Nat) : (s.put w lat).ops = s.ops := rfl
@[simp] theorem State.put_granules (s : State) (w : Write) (lat : Nat) : (s.put w lat).granules = s.granules := rfl
@[simp] theorem State.put_seq (s : State) (w : Write) (lat : Nat) : (s.put w lat).seq = s.seq := rfl
@[simp] theorem State.put_pkgid (s : State) (w : Write) (lat : Nat) : (s.put w lat).pkgid = s.pkgid := rfl
@[simp] theorem State.put_pod (s : State) (w : Write) (lat : Nat) : (s.put w lat).pod = s.pod := rfl
@[simp] theorem State.put_podid (s : State) (w : Write) (lat : Nat) : (s.put w lat).podid = s.podid := rfl
@[simp] theorem State.put_l2locks (s : State) (w : Write) (lat : Nat) : (s.put w lat).l2locks = s.l2locks := rfl
@[simp] theorem State.put_soft (s : State) (w : Write) (lat : Nat) : (s.put w lat).soft = s.soft := rfl
@[simp] theorem State.put_bars (s : State) (w : Write) (lat : Nat) : (s.put w lat).bars = s.bars := rfl
@[simp] theorem State.put_gangs (s : State) (w : Write) (lat : Nat) : (s.put w lat).gangs = s.gangs := rfl
@[simp] theorem State.put_thyme (s : State) (w : Write) (lat : Nat) : (s.put w lat).thyme = s.thyme := rfl
@[simp] theorem State.put_sage (s : State) (w : Write) (lat : Nat) : (s.put w lat).sage = s.sage := rfl
@[simp] theorem State.put_ivals (s : State) (w : Write) (lat : Nat) : (s.put w lat).ivals = s.ivals := rfl
@[simp] theorem State.put_commits (s : State) (w : Write) (lat : Nat) : (s.put w lat).commits = s.commits := rfl
@[simp] theorem State.put_stored (s : State) (w : Write) (lat : Nat) : (s.put w lat).stored = s.stored := rfl
@[simp] theorem State.put_banks (s : State) (w : Write) (lat : Nat) : (s.put w lat).banks = s.banks := rfl
@[simp] theorem State.put_hbmStacks (s : State) (w : Write) (lat : Nat) : (s.put w lat).hbmStacks = s.hbmStacks := rfl
@[simp] theorem State.put_dies (s : State) (w : Write) (lat : Nat) : (s.put w lat).dies = s.dies := rfl
@[simp] theorem State.put_links (s : State) (w : Write) (lat : Nat) : (s.put w lat).links = s.links := rfl
@[simp] theorem State.put_paths (s : State) (w : Write) (lat : Nat) : (s.put w lat).paths = s.paths := rfl
@[simp] theorem State.put_ports (s : State) (w : Write) (lat : Nat) : (s.put w lat).ports = s.ports := rfl
@[simp] theorem State.put_torn (s : State) (w : Write) (lat : Nat) : (s.put w lat).torn = s.torn := rfl
@[simp] theorem State.put_heard (s : State) (w : Write) (lat : Nat) : (s.put w lat).heard = s.heard := rfl
@[simp] theorem State.put_hosts (s : State) (w : Write) (lat : Nat) : (s.put w lat).hosts = s.hosts := rfl
@[simp] theorem State.put_routes (s : State) (w : Write) (lat : Nat) : (s.put w lat).routes = s.routes := rfl
@[simp] theorem State.put_journal (s : State) (w : Write) (lat : Nat) : (s.put w lat).journal = s.journal := rfl
@[simp] theorem State.put_mgmt (s : State) (w : Write) (lat : Nat) : (s.put w lat).mgmt = s.mgmt := rfl

@[simp] theorem State.hold_mem (s : State) (h : Hold) : (s.hold h).mem = s.mem := rfl
@[simp] theorem State.hold_tags (s : State) (h : Hold) : (s.hold h).tags = s.tags := rfl
@[simp] theorem State.hold_bad (s : State) (h : Hold) : (s.hold h).bad = s.bad := rfl
@[simp] theorem State.hold_cycle (s : State) (h : Hold) : (s.hold h).cycle = s.cycle := rfl
@[simp] theorem State.hold_tick (s : State) (h : Hold) : (s.hold h).tick = s.tick := rfl
@[simp] theorem State.hold_agenda (s : State) (h : Hold) : (s.hold h).agenda = s.agenda := rfl
@[simp] theorem State.hold_cur (s : State) (h : Hold) : (s.hold h).cur = s.cur := rfl
@[simp] theorem State.hold_fresh (s : State) (h : Hold) : (s.hold h).fresh = s.fresh := rfl
@[simp] theorem State.hold_flight (s : State) (h : Hold) : (s.hold h).flight = s.flight := rfl
@[simp] theorem State.hold_own (s : State) (h : Hold) : (s.hold h).own = s.own := rfl
@[simp] theorem State.hold_ops (s : State) (h : Hold) : (s.hold h).ops = s.ops := rfl
@[simp] theorem State.hold_granules (s : State) (h : Hold) : (s.hold h).granules = s.granules := rfl
@[simp] theorem State.hold_seq (s : State) (h : Hold) : (s.hold h).seq = s.seq := rfl
@[simp] theorem State.hold_pkgid (s : State) (h : Hold) : (s.hold h).pkgid = s.pkgid := rfl
@[simp] theorem State.hold_pod (s : State) (h : Hold) : (s.hold h).pod = s.pod := rfl
@[simp] theorem State.hold_podid (s : State) (h : Hold) : (s.hold h).podid = s.podid := rfl
@[simp] theorem State.hold_l2locks (s : State) (h : Hold) : (s.hold h).l2locks = s.l2locks := rfl
@[simp] theorem State.hold_soft (s : State) (h : Hold) : (s.hold h).soft = s.soft := rfl
@[simp] theorem State.hold_bars (s : State) (h : Hold) : (s.hold h).bars = s.bars := rfl
@[simp] theorem State.hold_gangs (s : State) (h : Hold) : (s.hold h).gangs = s.gangs := rfl
@[simp] theorem State.hold_thyme (s : State) (h : Hold) : (s.hold h).thyme = s.thyme := rfl
@[simp] theorem State.hold_sage (s : State) (h : Hold) : (s.hold h).sage = s.sage := rfl
@[simp] theorem State.hold_ivals (s : State) (h : Hold) : (s.hold h).ivals = s.ivals := rfl
@[simp] theorem State.hold_commits (s : State) (h : Hold) : (s.hold h).commits = s.commits := rfl
@[simp] theorem State.hold_stored (s : State) (h : Hold) : (s.hold h).stored = s.stored := rfl
@[simp] theorem State.hold_banks (s : State) (h : Hold) : (s.hold h).banks = s.banks := rfl
@[simp] theorem State.hold_hbmStacks (s : State) (h : Hold) : (s.hold h).hbmStacks = s.hbmStacks := rfl
@[simp] theorem State.hold_dies (s : State) (h : Hold) : (s.hold h).dies = s.dies := rfl
@[simp] theorem State.hold_links (s : State) (h : Hold) : (s.hold h).links = s.links := rfl
@[simp] theorem State.hold_paths (s : State) (h : Hold) : (s.hold h).paths = s.paths := rfl
@[simp] theorem State.hold_ports (s : State) (h : Hold) : (s.hold h).ports = s.ports := rfl
@[simp] theorem State.hold_torn (s : State) (h : Hold) : (s.hold h).torn = s.torn := rfl
@[simp] theorem State.hold_heard (s : State) (h : Hold) : (s.hold h).heard = s.heard := rfl
@[simp] theorem State.hold_hosts (s : State) (h : Hold) : (s.hold h).hosts = s.hosts := rfl
@[simp] theorem State.hold_routes (s : State) (h : Hold) : (s.hold h).routes = s.routes := rfl
@[simp] theorem State.hold_journal (s : State) (h : Hold) : (s.hold h).journal = s.journal := rfl
@[simp] theorem State.hold_mgmt (s : State) (h : Hold) : (s.hold h).mgmt = s.mgmt := rfl

@[simp] theorem State.use_mem (s : State) (q : Nat) : (s.use q).mem = s.mem := rfl
@[simp] theorem State.use_tags (s : State) (q : Nat) : (s.use q).tags = s.tags := rfl
@[simp] theorem State.use_bad (s : State) (q : Nat) : (s.use q).bad = s.bad := rfl
@[simp] theorem State.use_cycle (s : State) (q : Nat) : (s.use q).cycle = s.cycle := rfl
@[simp] theorem State.use_tick (s : State) (q : Nat) : (s.use q).tick = s.tick := rfl
@[simp] theorem State.use_agenda (s : State) (q : Nat) : (s.use q).agenda = s.agenda := rfl
@[simp] theorem State.use_cur (s : State) (q : Nat) : (s.use q).cur = s.cur := rfl
@[simp] theorem State.use_fresh (s : State) (q : Nat) : (s.use q).fresh = s.fresh := rfl
@[simp] theorem State.use_flight (s : State) (q : Nat) : (s.use q).flight = s.flight := rfl
@[simp] theorem State.use_own (s : State) (q : Nat) : (s.use q).own = s.own := rfl
@[simp] theorem State.use_ops (s : State) (q : Nat) : (s.use q).ops = s.ops := rfl
@[simp] theorem State.use_granules (s : State) (q : Nat) : (s.use q).granules = s.granules := rfl
@[simp] theorem State.use_seq (s : State) (q : Nat) : (s.use q).seq = s.seq := rfl
@[simp] theorem State.use_pkgid (s : State) (q : Nat) : (s.use q).pkgid = s.pkgid := rfl
@[simp] theorem State.use_pod (s : State) (q : Nat) : (s.use q).pod = s.pod := rfl
@[simp] theorem State.use_podid (s : State) (q : Nat) : (s.use q).podid = s.podid := rfl
@[simp] theorem State.use_l2locks (s : State) (q : Nat) : (s.use q).l2locks = s.l2locks := rfl
@[simp] theorem State.use_soft (s : State) (q : Nat) : (s.use q).soft = s.soft := rfl
@[simp] theorem State.use_bars (s : State) (q : Nat) : (s.use q).bars = s.bars := rfl
@[simp] theorem State.use_gangs (s : State) (q : Nat) : (s.use q).gangs = s.gangs := rfl
@[simp] theorem State.use_thyme (s : State) (q : Nat) : (s.use q).thyme = s.thyme := rfl
@[simp] theorem State.use_sage (s : State) (q : Nat) : (s.use q).sage = s.sage := rfl
@[simp] theorem State.use_ivals (s : State) (q : Nat) : (s.use q).ivals = s.ivals := rfl
@[simp] theorem State.use_commits (s : State) (q : Nat) : (s.use q).commits = s.commits := rfl
@[simp] theorem State.use_stored (s : State) (q : Nat) : (s.use q).stored = s.stored := rfl
@[simp] theorem State.use_banks (s : State) (q : Nat) : (s.use q).banks = s.banks := rfl
@[simp] theorem State.use_hbmStacks (s : State) (q : Nat) : (s.use q).hbmStacks = s.hbmStacks := rfl
@[simp] theorem State.use_dies (s : State) (q : Nat) : (s.use q).dies = s.dies := rfl
@[simp] theorem State.use_links (s : State) (q : Nat) : (s.use q).links = s.links := rfl
@[simp] theorem State.use_paths (s : State) (q : Nat) : (s.use q).paths = s.paths := rfl
@[simp] theorem State.use_ports (s : State) (q : Nat) : (s.use q).ports = s.ports := rfl
@[simp] theorem State.use_torn (s : State) (q : Nat) : (s.use q).torn = s.torn := rfl
@[simp] theorem State.use_heard (s : State) (q : Nat) : (s.use q).heard = s.heard := rfl
@[simp] theorem State.use_hosts (s : State) (q : Nat) : (s.use q).hosts = s.hosts := rfl
@[simp] theorem State.use_routes (s : State) (q : Nat) : (s.use q).routes = s.routes := rfl
@[simp] theorem State.use_journal (s : State) (q : Nat) : (s.use q).journal = s.journal := rfl
@[simp] theorem State.use_mgmt (s : State) (q : Nat) : (s.use q).mgmt = s.mgmt := rfl

@[simp] theorem State.modQ_mem (s : State) (q : Nat) (f : QDesc → QDesc) : (s.modQ q f).mem = s.mem := rfl
@[simp] theorem State.modQ_tags (s : State) (q : Nat) (f : QDesc → QDesc) : (s.modQ q f).tags = s.tags := rfl
@[simp] theorem State.modQ_bad (s : State) (q : Nat) (f : QDesc → QDesc) : (s.modQ q f).bad = s.bad := rfl
@[simp] theorem State.modQ_cycle (s : State) (q : Nat) (f : QDesc → QDesc) : (s.modQ q f).cycle = s.cycle := rfl
@[simp] theorem State.modQ_tick (s : State) (q : Nat) (f : QDesc → QDesc) : (s.modQ q f).tick = s.tick := rfl
@[simp] theorem State.modQ_agenda (s : State) (q : Nat) (f : QDesc → QDesc) : (s.modQ q f).agenda = s.agenda := rfl
@[simp] theorem State.modQ_cur (s : State) (q : Nat) (f : QDesc → QDesc) : (s.modQ q f).cur = s.cur := rfl
@[simp] theorem State.modQ_fresh (s : State) (q : Nat) (f : QDesc → QDesc) : (s.modQ q f).fresh = s.fresh := rfl
@[simp] theorem State.modQ_flight (s : State) (q : Nat) (f : QDesc → QDesc) : (s.modQ q f).flight = s.flight := rfl
@[simp] theorem State.modQ_own (s : State) (q : Nat) (f : QDesc → QDesc) : (s.modQ q f).own = s.own := rfl
@[simp] theorem State.modQ_ops (s : State) (q : Nat) (f : QDesc → QDesc) : (s.modQ q f).ops = s.ops := rfl
@[simp] theorem State.modQ_granules (s : State) (q : Nat) (f : QDesc → QDesc) : (s.modQ q f).granules = s.granules := rfl
@[simp] theorem State.modQ_seq (s : State) (q : Nat) (f : QDesc → QDesc) : (s.modQ q f).seq = s.seq := rfl
@[simp] theorem State.modQ_pkgid (s : State) (q : Nat) (f : QDesc → QDesc) : (s.modQ q f).pkgid = s.pkgid := rfl
@[simp] theorem State.modQ_pod (s : State) (q : Nat) (f : QDesc → QDesc) : (s.modQ q f).pod = s.pod := rfl
@[simp] theorem State.modQ_podid (s : State) (q : Nat) (f : QDesc → QDesc) : (s.modQ q f).podid = s.podid := rfl
@[simp] theorem State.modQ_l2locks (s : State) (q : Nat) (f : QDesc → QDesc) : (s.modQ q f).l2locks = s.l2locks := rfl
@[simp] theorem State.modQ_soft (s : State) (q : Nat) (f : QDesc → QDesc) : (s.modQ q f).soft = s.soft := rfl
@[simp] theorem State.modQ_bars (s : State) (q : Nat) (f : QDesc → QDesc) : (s.modQ q f).bars = s.bars := rfl
@[simp] theorem State.modQ_gangs (s : State) (q : Nat) (f : QDesc → QDesc) : (s.modQ q f).gangs = s.gangs := rfl
@[simp] theorem State.modQ_thyme (s : State) (q : Nat) (f : QDesc → QDesc) : (s.modQ q f).thyme = s.thyme := rfl
@[simp] theorem State.modQ_sage (s : State) (q : Nat) (f : QDesc → QDesc) : (s.modQ q f).sage = s.sage := rfl
@[simp] theorem State.modQ_ivals (s : State) (q : Nat) (f : QDesc → QDesc) : (s.modQ q f).ivals = s.ivals := rfl
@[simp] theorem State.modQ_commits (s : State) (q : Nat) (f : QDesc → QDesc) : (s.modQ q f).commits = s.commits := rfl
@[simp] theorem State.modQ_stored (s : State) (q : Nat) (f : QDesc → QDesc) : (s.modQ q f).stored = s.stored := rfl
@[simp] theorem State.modQ_banks (s : State) (q : Nat) (f : QDesc → QDesc) : (s.modQ q f).banks = s.banks := rfl
@[simp] theorem State.modQ_hbmStacks (s : State) (q : Nat) (f : QDesc → QDesc) : (s.modQ q f).hbmStacks = s.hbmStacks := rfl
@[simp] theorem State.modQ_dies (s : State) (q : Nat) (f : QDesc → QDesc) : (s.modQ q f).dies = s.dies := rfl
@[simp] theorem State.modQ_links (s : State) (q : Nat) (f : QDesc → QDesc) : (s.modQ q f).links = s.links := rfl
@[simp] theorem State.modQ_paths (s : State) (q : Nat) (f : QDesc → QDesc) : (s.modQ q f).paths = s.paths := rfl
@[simp] theorem State.modQ_ports (s : State) (q : Nat) (f : QDesc → QDesc) : (s.modQ q f).ports = s.ports := rfl
@[simp] theorem State.modQ_torn (s : State) (q : Nat) (f : QDesc → QDesc) : (s.modQ q f).torn = s.torn := rfl
@[simp] theorem State.modQ_heard (s : State) (q : Nat) (f : QDesc → QDesc) : (s.modQ q f).heard = s.heard := rfl
@[simp] theorem State.modQ_hosts (s : State) (q : Nat) (f : QDesc → QDesc) : (s.modQ q f).hosts = s.hosts := rfl
@[simp] theorem State.modQ_routes (s : State) (q : Nat) (f : QDesc → QDesc) : (s.modQ q f).routes = s.routes := rfl
@[simp] theorem State.modQ_journal (s : State) (q : Nat) (f : QDesc → QDesc) : (s.modQ q f).journal = s.journal := rfl
@[simp] theorem State.modQ_mgmt (s : State) (q : Nat) (f : QDesc → QDesc) : (s.modQ q f).mgmt = s.mgmt := rfl

@[simp] theorem Core.setCtx_running (c : Core) (k : Nat) (x : Ctx) : (c.setCtx k x).running = c.running := rfl
@[simp] theorem Core.setCtx_next (c : Core) (k : Nat) (x : Ctx) : (c.setCtx k x).next = c.next := rfl
@[simp] theorem Core.setCtx_switchLeft (c : Core) (k : Nat) (x : Ctx) : (c.setCtx k x).switchLeft = c.switchLeft := rfl
@[simp] theorem Core.setCtx_freeze (c : Core) (k : Nat) (x : Ctx) : (c.setCtx k x).freeze = c.freeze := rfl
@[simp] theorem Core.setCtx_svcFreeze (c : Core) (k : Nat) (x : Ctx) : (c.setCtx k x).svcFreeze = c.svcFreeze := rfl
@[simp] theorem Core.setCtx_isd (c : Core) (k : Nat) (x : Ctx) : (c.setCtx k x).isd = c.isd := rfl
@[simp] theorem Core.setCtx_slow (c : Core) (k : Nat) (x : Ctx) : (c.setCtx k x).slow = c.slow := rfl
@[simp] theorem Core.setCtx_slowDue (c : Core) (k : Nat) (x : Ctx) : (c.setCtx k x).slowDue = c.slowDue := rfl
@[simp] theorem Core.setCtx_slowOld (c : Core) (k : Nat) (x : Ctx) : (c.setCtx k x).slowOld = c.slowOld := rfl
@[simp] theorem Core.setCtx_strong (c : Core) (k : Nat) (x : Ctx) : (c.setCtx k x).strong = c.strong := rfl
@[simp] theorem Core.setCtx_sweep (c : Core) (k : Nat) (x : Ctx) : (c.setCtx k x).sweep = c.sweep := rfl
@[simp] theorem Core.setCtx_act (c : Core) (k : Nat) (x : Ctx) : (c.setCtx k x).act = c.act := rfl
@[simp] theorem Core.setCtx_ilock (c : Core) (k : Nat) (x : Ctx) : (c.setCtx k x).ilock = c.ilock := rfl
@[simp] theorem Core.setCtx_port (c : Core) (k : Nat) (x : Ctx) : (c.setCtx k x).port = c.port := rfl
@[simp] theorem Core.setCtx_refills (c : Core) (k : Nat) (x : Ctx) : (c.setCtx k x).refills = c.refills := rfl
@[simp] theorem Core.setCtx_routine (c : Core) (k : Nat) (x : Ctx) : (c.setCtx k x).routine = c.routine := rfl
@[simp] theorem Core.setCtx_clkHold (c : Core) (k : Nat) (x : Ctx) : (c.setCtx k x).clkHold = c.clkHold := rfl
@[simp] theorem Core.setCtx_clkPend (c : Core) (k : Nat) (x : Ctx) : (c.setCtx k x).clkPend = c.clkPend := rfl
@[simp] theorem Core.setCtx_bun (c : Core) (k : Nat) (x : Ctx) : (c.setCtx k x).bun = c.bun := rfl
@[simp] theorem Core.setCtx_replay (c : Core) (k : Nat) (x : Ctx) : (c.setCtx k x).replay = c.replay := rfl
@[simp] theorem Core.setCtx_held (c : Core) (k : Nat) (x : Ctx) : (c.setCtx k x).held = c.held := rfl
@[simp] theorem Core.setCtx_svcTimer (c : Core) (k : Nat) (x : Ctx) : (c.setCtx k x).svcTimer = c.svcTimer := rfl
@[simp] theorem Core.setCtx_fBusy (c : Core) (k : Nat) (x : Ctx) : (c.setCtx k x).fBusy = c.fBusy := rfl
@[simp] theorem Core.setCtx_kBusy (c : Core) (k : Nat) (x : Ctx) : (c.setCtx k x).kBusy = c.kBusy := rfl
@[simp] theorem Core.setCtx_div0 (c : Core) (k : Nat) (x : Ctx) : (c.setCtx k x).div0 = c.div0 := rfl
@[simp] theorem Core.setCtx_div1 (c : Core) (k : Nat) (x : Ctx) : (c.setCtx k x).div1 = c.div1 := rfl
@[simp] theorem Core.setCtx_sdiv0 (c : Core) (k : Nat) (x : Ctx) : (c.setCtx k x).sdiv0 = c.sdiv0 := rfl
@[simp] theorem Core.setCtx_sdiv1 (c : Core) (k : Nat) (x : Ctx) : (c.setCtx k x).sdiv1 = c.sdiv1 := rfl
@[simp] theorem Core.setCtx_tlb (c : Core) (k : Nat) (x : Ctx) : (c.setCtx k x).tlb = c.tlb := rfl
@[simp] theorem Core.setCtx_walks (c : Core) (k : Nat) (x : Ctx) : (c.setCtx k x).walks = c.walks := rfl
@[simp] theorem Core.setCtx_reported (c : Core) (k : Nat) (x : Ctx) : (c.setCtx k x).reported = c.reported := rfl
@[simp] theorem Core.setCtx_lanes (c : Core) (k : Nat) (x : Ctx) : (c.setCtx k x).lanes = c.lanes := rfl
@[simp] theorem Core.setCtx_l1 (c : Core) (k : Nat) (x : Ctx) : (c.setCtx k x).l1 = c.l1 := rfl
@[simp] theorem Core.setCtx_latch0 (c : Core) (k : Nat) (x : Ctx) : (c.setCtx k x).latch0 = c.latch0 := rfl
@[simp] theorem Core.setCtx_latch1 (c : Core) (k : Nat) (x : Ctx) : (c.setCtx k x).latch1 = c.latch1 := rfl
@[simp] theorem Core.setCtx_arr (c : Core) (k : Nat) (x : Ctx) : (c.setCtx k x).arr = c.arr := rfl
@[simp] theorem Core.setCtx_out (c : Core) (k : Nat) (x : Ctx) : (c.setCtx k x).out = c.out := rfl
@[simp] theorem Core.setCtx_failed (c : Core) (k : Nat) (x : Ctx) : (c.setCtx k x).failed = c.failed := rfl
@[simp] theorem Core.setCtx_retry (c : Core) (k : Nat) (x : Ctx) : (c.setCtx k x).retry = c.retry := rfl
@[simp] theorem Core.setCtx_upset (c : Core) (k : Nat) (x : Ctx) : (c.setCtx k x).upset = c.upset := rfl
@[simp] theorem Core.setCtx_kept (c : Core) (k : Nat) (x : Ctx) : (c.setCtx k x).kept = c.kept := rfl
@[simp] theorem Core.setCtx_paged (c : Core) (k : Nat) (x : Ctx) : (c.setCtx k x).paged = c.paged := rfl
@[simp] theorem Core.setCtx_asd (c : Core) (k : Nat) (x : Ctx) : (c.setCtx k x).asd = c.asd := rfl
@[simp] theorem Core.setCtx_worked (c : Core) (k : Nat) (x : Ctx) : (c.setCtx k x).worked = c.worked := rfl

@[simp] theorem Core.modCtx_running (c : Core) (k : Nat) (f : Ctx → Ctx) : (c.modCtx k f).running = c.running := rfl
@[simp] theorem Core.modCtx_next (c : Core) (k : Nat) (f : Ctx → Ctx) : (c.modCtx k f).next = c.next := rfl
@[simp] theorem Core.modCtx_switchLeft (c : Core) (k : Nat) (f : Ctx → Ctx) : (c.modCtx k f).switchLeft = c.switchLeft := rfl
@[simp] theorem Core.modCtx_freeze (c : Core) (k : Nat) (f : Ctx → Ctx) : (c.modCtx k f).freeze = c.freeze := rfl
@[simp] theorem Core.modCtx_svcFreeze (c : Core) (k : Nat) (f : Ctx → Ctx) : (c.modCtx k f).svcFreeze = c.svcFreeze := rfl
@[simp] theorem Core.modCtx_isd (c : Core) (k : Nat) (f : Ctx → Ctx) : (c.modCtx k f).isd = c.isd := rfl
@[simp] theorem Core.modCtx_slow (c : Core) (k : Nat) (f : Ctx → Ctx) : (c.modCtx k f).slow = c.slow := rfl
@[simp] theorem Core.modCtx_slowDue (c : Core) (k : Nat) (f : Ctx → Ctx) : (c.modCtx k f).slowDue = c.slowDue := rfl
@[simp] theorem Core.modCtx_slowOld (c : Core) (k : Nat) (f : Ctx → Ctx) : (c.modCtx k f).slowOld = c.slowOld := rfl
@[simp] theorem Core.modCtx_strong (c : Core) (k : Nat) (f : Ctx → Ctx) : (c.modCtx k f).strong = c.strong := rfl
@[simp] theorem Core.modCtx_sweep (c : Core) (k : Nat) (f : Ctx → Ctx) : (c.modCtx k f).sweep = c.sweep := rfl
@[simp] theorem Core.modCtx_act (c : Core) (k : Nat) (f : Ctx → Ctx) : (c.modCtx k f).act = c.act := rfl
@[simp] theorem Core.modCtx_ilock (c : Core) (k : Nat) (f : Ctx → Ctx) : (c.modCtx k f).ilock = c.ilock := rfl
@[simp] theorem Core.modCtx_port (c : Core) (k : Nat) (f : Ctx → Ctx) : (c.modCtx k f).port = c.port := rfl
@[simp] theorem Core.modCtx_refills (c : Core) (k : Nat) (f : Ctx → Ctx) : (c.modCtx k f).refills = c.refills := rfl
@[simp] theorem Core.modCtx_routine (c : Core) (k : Nat) (f : Ctx → Ctx) : (c.modCtx k f).routine = c.routine := rfl
@[simp] theorem Core.modCtx_clkHold (c : Core) (k : Nat) (f : Ctx → Ctx) : (c.modCtx k f).clkHold = c.clkHold := rfl
@[simp] theorem Core.modCtx_clkPend (c : Core) (k : Nat) (f : Ctx → Ctx) : (c.modCtx k f).clkPend = c.clkPend := rfl
@[simp] theorem Core.modCtx_bun (c : Core) (k : Nat) (f : Ctx → Ctx) : (c.modCtx k f).bun = c.bun := rfl
@[simp] theorem Core.modCtx_replay (c : Core) (k : Nat) (f : Ctx → Ctx) : (c.modCtx k f).replay = c.replay := rfl
@[simp] theorem Core.modCtx_held (c : Core) (k : Nat) (f : Ctx → Ctx) : (c.modCtx k f).held = c.held := rfl
@[simp] theorem Core.modCtx_svcTimer (c : Core) (k : Nat) (f : Ctx → Ctx) : (c.modCtx k f).svcTimer = c.svcTimer := rfl
@[simp] theorem Core.modCtx_fBusy (c : Core) (k : Nat) (f : Ctx → Ctx) : (c.modCtx k f).fBusy = c.fBusy := rfl
@[simp] theorem Core.modCtx_kBusy (c : Core) (k : Nat) (f : Ctx → Ctx) : (c.modCtx k f).kBusy = c.kBusy := rfl
@[simp] theorem Core.modCtx_div0 (c : Core) (k : Nat) (f : Ctx → Ctx) : (c.modCtx k f).div0 = c.div0 := rfl
@[simp] theorem Core.modCtx_div1 (c : Core) (k : Nat) (f : Ctx → Ctx) : (c.modCtx k f).div1 = c.div1 := rfl
@[simp] theorem Core.modCtx_sdiv0 (c : Core) (k : Nat) (f : Ctx → Ctx) : (c.modCtx k f).sdiv0 = c.sdiv0 := rfl
@[simp] theorem Core.modCtx_sdiv1 (c : Core) (k : Nat) (f : Ctx → Ctx) : (c.modCtx k f).sdiv1 = c.sdiv1 := rfl
@[simp] theorem Core.modCtx_tlb (c : Core) (k : Nat) (f : Ctx → Ctx) : (c.modCtx k f).tlb = c.tlb := rfl
@[simp] theorem Core.modCtx_walks (c : Core) (k : Nat) (f : Ctx → Ctx) : (c.modCtx k f).walks = c.walks := rfl
@[simp] theorem Core.modCtx_reported (c : Core) (k : Nat) (f : Ctx → Ctx) : (c.modCtx k f).reported = c.reported := rfl
@[simp] theorem Core.modCtx_lanes (c : Core) (k : Nat) (f : Ctx → Ctx) : (c.modCtx k f).lanes = c.lanes := rfl
@[simp] theorem Core.modCtx_l1 (c : Core) (k : Nat) (f : Ctx → Ctx) : (c.modCtx k f).l1 = c.l1 := rfl
@[simp] theorem Core.modCtx_latch0 (c : Core) (k : Nat) (f : Ctx → Ctx) : (c.modCtx k f).latch0 = c.latch0 := rfl
@[simp] theorem Core.modCtx_latch1 (c : Core) (k : Nat) (f : Ctx → Ctx) : (c.modCtx k f).latch1 = c.latch1 := rfl
@[simp] theorem Core.modCtx_arr (c : Core) (k : Nat) (f : Ctx → Ctx) : (c.modCtx k f).arr = c.arr := rfl
@[simp] theorem Core.modCtx_out (c : Core) (k : Nat) (f : Ctx → Ctx) : (c.modCtx k f).out = c.out := rfl
@[simp] theorem Core.modCtx_failed (c : Core) (k : Nat) (f : Ctx → Ctx) : (c.modCtx k f).failed = c.failed := rfl
@[simp] theorem Core.modCtx_retry (c : Core) (k : Nat) (f : Ctx → Ctx) : (c.modCtx k f).retry = c.retry := rfl
@[simp] theorem Core.modCtx_upset (c : Core) (k : Nat) (f : Ctx → Ctx) : (c.modCtx k f).upset = c.upset := rfl
@[simp] theorem Core.modCtx_kept (c : Core) (k : Nat) (f : Ctx → Ctx) : (c.modCtx k f).kept = c.kept := rfl
@[simp] theorem Core.modCtx_paged (c : Core) (k : Nat) (f : Ctx → Ctx) : (c.modCtx k f).paged = c.paged := rfl
@[simp] theorem Core.modCtx_asd (c : Core) (k : Nat) (f : Ctx → Ctx) : (c.modCtx k f).asd = c.asd := rfl
@[simp] theorem Core.modCtx_worked (c : Core) (k : Nat) (f : Ctx → Ctx) : (c.modCtx k f).worked = c.worked := rfl

/-- The read of a byte of memory after an update of a core is the read before it. -/
theorem State.setCore_read (s : State) (c a : Nat) (x : Core) : (s.setCore c x).mem.read a = s.mem.read a := rfl

end Sys2Proof.Machine
end

