-- ==== Sys2Proof/Laws/Tab.lean ====
section
/-!
SUPPORT. Laws of sparse tables and of memory: a read after a write, and the canonical form that every memory operation keeps.
-/
namespace Sys2Proof.Machine
set_option Elab.async false

@[simp] theorem Tab.get_nil {α : Type} (d : α) (k : Nat) : Tab.get d [] k = d := rfl

@[simp] theorem Tab.get_put_same {α : Type} (d : α) (t : Tab α) (k : Nat) (v : α) : Tab.get d (Tab.put t k v) k = v := by
  induction t with
  | nil => simp [Tab.put, Tab.get]
  | cons e r ih =>
    obtain ⟨j, u⟩ := e
    simp only [Tab.put]
    split
    · simp [Tab.get]
    · split
      · simp [Tab.get]
      · rename_i h1 h2
        rw [Tab.get, if_neg (fun h => h2 h.symm), ih]

theorem Tab.get_put_ne {α : Type} (d : α) (t : Tab α) (k i : Nat) (v : α) (h : i ≠ k) :
    Tab.get d (Tab.put t k v) i = Tab.get d t i := by
  induction t with
  | nil => simp [Tab.put, Tab.get, Ne.symm h]
  | cons e r ih =>
    obtain ⟨j, u⟩ := e
    simp only [Tab.put]
    split
    · simp [Tab.get, Ne.symm h]
    · split
      · rename_i h1 h2
        subst h2
        simp [Tab.get, Ne.symm h]
      · simp only [Tab.get, ih]

theorem Tab.above_mono {α : Type} {i k : Nat} {t : Tab α} (h : Tab.above k t = true) (hik : i ≤ k) : Tab.above i t = true := by
  cases t with
  | nil => rfl
  | cons e r => simp only [Tab.above, Bool.and_eq_true, decide_eq_true_eq] at *; exact ⟨by omega, h.2⟩

theorem Tab.sorted_of_above {α : Type} {k : Nat} {t : Tab α} (h : Tab.above k t = true) : Tab.sorted t = true := by
  cases t with
  | nil => rfl
  | cons e r => simp only [Tab.above, Tab.sorted, Bool.and_eq_true] at *; exact h.2

/-- A key below the whole table is not listed. -/
theorem Tab.get_below {α : Type} (d : α) {k i : Nat} {t : Tab α} (h : Tab.above k t = true) (hi : i ≤ k) : Tab.get d t i = d := by
  induction t generalizing k with
  | nil => rfl
  | cons e r ih =>
    simp only [Tab.above, Bool.and_eq_true, decide_eq_true_eq] at h
    rw [Tab.get, if_neg (by omega)]
    exact ih h.2 (by omega)

theorem Tab.above_put {α : Type} {j k : Nat} {t : Tab α} {v : α} (h : Tab.above j t = true) (hk : j < k) :
    Tab.above j (Tab.put t k v) = true := by
  induction t generalizing j with
  | nil => simp [Tab.put, Tab.above, hk]
  | cons e r ih =>
    obtain ⟨i, u⟩ := e
    simp only [Tab.above, Bool.and_eq_true, decide_eq_true_eq] at h
    simp only [Tab.put]
    split
    · simp [Tab.above, *]
    · split
      · simp_all [Tab.above]
      · simp only [Tab.above, Bool.and_eq_true, decide_eq_true_eq]
        exact ⟨h.1, ih h.2 (by omega)⟩

theorem Tab.sorted_put {α : Type} {t : Tab α} (h : Tab.sorted t = true) (k : Nat) (v : α) : Tab.sorted (Tab.put t k v) = true := by
  cases t with
  | nil => rfl
  | cons e r =>
    obtain ⟨i, u⟩ := e
    simp only [Tab.sorted] at h
    simp only [Tab.put]
    split
    · simp [Tab.sorted, Tab.above, *]
    · split
      · subst_vars; exact h
      · exact Tab.above_put h (by omega)

theorem Tab.above_drop {α : Type} {j : Nat} {t : Tab α} (h : Tab.above j t = true) (k : Nat) :
    Tab.above j (Tab.drop t k) = true := by
  induction t generalizing j with
  | nil => rfl
  | cons e r ih =>
    obtain ⟨i, u⟩ := e
    simp only [Tab.above, Bool.and_eq_true, decide_eq_true_eq] at h
    simp only [Tab.drop]
    split
    · exact Tab.above_mono h.2 (by omega)
    · simp only [Tab.above, Bool.and_eq_true, decide_eq_true_eq]
      exact ⟨h.1, ih h.2⟩

theorem Tab.sorted_drop {α : Type} {t : Tab α} (h : Tab.sorted t = true) (k : Nat) : Tab.sorted (Tab.drop t k) = true := by
  cases t with
  | nil => rfl
  | cons e r =>
    obtain ⟨i, u⟩ := e
    simp only [Tab.sorted] at h
    simp only [Tab.drop]
    split
    · exact Tab.sorted_of_above h
    · exact Tab.above_drop h k

theorem Tab.get_drop_same {α : Type} (d : α) {t : Tab α} (h : Tab.sorted t = true) (k : Nat) : Tab.get d (Tab.drop t k) k = d := by
  induction t with
  | nil => rfl
  | cons e r ih =>
    obtain ⟨i, u⟩ := e
    simp only [Tab.sorted] at h
    simp only [Tab.drop]
    split
    · exact Tab.get_below d h (by omega)
    · rename_i hn
      rw [Tab.get, if_neg hn]
      exact ih (Tab.sorted_of_above h)

theorem Tab.get_drop_ne {α : Type} (d : α) (t : Tab α) (k i : Nat) (h : i ≠ k) : Tab.get d (Tab.drop t k) i = Tab.get d t i := by
  induction t with
  | nil => rfl
  | cons e r ih =>
    obtain ⟨j, u⟩ := e
    simp only [Tab.drop]
    split
    · subst_vars; simp [Tab.get, Ne.symm h]
    · simp only [Tab.get, ih]

theorem Tab.all_put {α : Type} {p : Nat × α → Bool} {t : Tab α} (h : t.all p = true) {k : Nat} {v : α} (hv : p (k, v) = true) :
    (Tab.put t k v).all p = true := by
  induction t with
  | nil => simp [Tab.put, hv]
  | cons e r ih =>
    obtain ⟨j, u⟩ := e
    simp only [List.all_cons, Bool.and_eq_true] at h
    simp only [Tab.put]
    split
    · simp only [List.all_cons, Bool.and_eq_true]; exact ⟨hv, h.1, h.2⟩
    · split
      · simp only [List.all_cons, Bool.and_eq_true]; exact ⟨hv, h.2⟩
      · simp only [List.all_cons, Bool.and_eq_true]; exact ⟨h.1, ih h.2⟩

theorem Tab.all_drop {α : Type} {p : Nat × α → Bool} {t : Tab α} (h : t.all p = true) (k : Nat) :
    (Tab.drop t k).all p = true := by
  induction t with
  | nil => rfl
  | cons e r ih =>
    obtain ⟨j, u⟩ := e
    simp only [List.all_cons, Bool.and_eq_true] at h
    simp only [Tab.drop]
    split
    · exact h.2
    · simp only [List.all_cons, Bool.and_eq_true]; exact ⟨h.1, ih h.2⟩

theorem Tab.above_filter {α : Type} {j : Nat} {t : Tab α} (h : Tab.above j t = true) (p : Nat × α → Bool) :
    Tab.above j (t.filter p) = true := by
  induction t generalizing j with
  | nil => rfl
  | cons e r ih =>
    obtain ⟨i, u⟩ := e
    simp only [Tab.above, Bool.and_eq_true, decide_eq_true_eq] at h
    simp only [List.filter_cons]
    split
    · simp only [Tab.above, Bool.and_eq_true, decide_eq_true_eq]; exact ⟨h.1, ih h.2⟩
    · exact Tab.above_mono (ih h.2) (by omega)

theorem Tab.sorted_filter {α : Type} {t : Tab α} (h : Tab.sorted t = true) (p : Nat × α → Bool) :
    Tab.sorted (t.filter p) = true := by
  induction t with
  | nil => rfl
  | cons e r ih =>
    obtain ⟨i, u⟩ := e
    simp only [Tab.sorted] at h
    simp only [List.filter_cons]
    split
    · exact Tab.above_filter h p
    · exact ih (Tab.sorted_of_above h)

/-! Memory. -/

theorem Memory.wf_nil : Memory.wf [] = true := rfl

/-- A byte written is the byte read. -/
theorem Memory.read_write_same {m : Memory} (h : m.wf = true) (a : Nat) (b : Byte) : (m.write a b).read a = b := by
  simp only [Memory.wf, Bool.and_eq_true] at h
  simp only [Memory.write, Memory.read]
  split
  · subst_vars; exact Tab.get_drop_same _ h.1 a
  · simp

/-- A write leaves every other byte alone. -/
theorem Memory.read_write_ne (m : Memory) (a i : Nat) (b : Byte) (h : i ≠ a) : (m.write a b).read i = m.read i := by
  simp only [Memory.write, Memory.read]
  split
  · exact Tab.get_drop_ne _ m a i h
  · exact Tab.get_put_ne _ m a i b h

theorem Memory.wf_write {m : Memory} (h : m.wf = true) (a : Nat) (b : Byte) : (m.write a b).wf = true := by
  simp only [Memory.wf, Bool.and_eq_true] at *
  simp only [Memory.write]
  split
  · exact ⟨Tab.sorted_drop h.1 a, Tab.all_drop h.2 a⟩
  · exact ⟨Tab.sorted_put h.1 a b, Tab.all_put h.2 (by simp_all)⟩

theorem Memory.wf_writeBytes {m : Memory} (h : m.wf = true) (a : Nat) (bs : List Byte) : (m.writeBytes a bs).wf = true := by
  induction bs generalizing m a with
  | nil => exact h
  | cons b r ih => exact ih (Memory.wf_write h a b) (a + 1)

theorem Memory.wf_filter {m : Memory} (h : m.wf = true) (p : Host.Cell → Bool) : Memory.wf (m.filter p) = true := by
  simp only [Memory.wf, Bool.and_eq_true] at *
  refine ⟨Tab.sorted_filter h.1 p, ?_⟩
  rw [List.all_eq_true] at *
  intro x hx
  exact h.2 x (List.mem_filter.mp hx).1

/-- Bytes outside a range written read as before. -/
theorem Memory.read_writeBytes_out (m : Memory) (a i : Nat) (bs : List Byte) (h : i < a ∨ a + bs.length ≤ i) :
    (m.writeBytes a bs).read i = m.read i := by
  induction bs generalizing m a with
  | nil => rfl
  | cons b r ih =>
    simp only [List.length_cons] at h
    rw [Memory.writeBytes, ih (m.write a b) (a + 1) (by omega), Memory.read_write_ne m a i b (by omega)]

/-- Bytes written read as the list says. -/
theorem Memory.readBytes_writeBytes {m : Memory} (h : m.wf = true) (a : Nat) (bs : List Byte) :
    (m.writeBytes a bs).readBytes a bs.length = bs := by
  induction bs generalizing m a with
  | nil => rfl
  | cons b r ih =>
    simp only [List.length_cons, Memory.readBytes, Memory.writeBytes]
    rw [Memory.read_writeBytes_out _ _ _ _ (by omega), Memory.read_write_same h, ih (Memory.wf_write h a b)]

@[simp] theorem leBytes_length (v n : Nat) : (leBytes v n).length = n := by
  induction n generalizing v with
  | zero => rfl
  | succ n ih => simp [leBytes, ih]

/-- The value of the bytes of a value is the value (R3). -/
theorem leNat_leBytes (v n : Nat) (h : v < 256 ^ n) : leNat (leBytes v n) = v := by
  induction n generalizing v with
  | zero => simp_all [leBytes, leNat]
  | succ n ih =>
    simp only [leBytes, leNat, BitVec.toNat_ofNat]
    rw [ih (v / 256) (by rw [Nat.pow_succ] at h; exact Nat.div_lt_of_lt_mul (by omega))]
    omega

end Sys2Proof.Machine
end

