-- ==== Sys2Proof/Laws/Ops.lean ====
section
/-!
SUPPORT. What each named operation over the state can do: the cores, contexts and bundle after an update, and the common course of a
slot.
-/
namespace Sys2Proof.Machine
set_option Elab.async false

@[simp] theorem State.coreAt_setCore (s : State) (c : Nat) (x : Core) : (s.setCore c x).coreAt c = x := by
  simp [State.setCore, State.coreAt]

theorem State.coreAt_setCore_ne (s : State) (c i : Nat) (x : Core) (h : i ≠ c) : (s.setCore c x).coreAt i = s.coreAt i :=
  Tab.get_put_ne _ _ _ _ _ h

@[simp] theorem State.coreAt_modCore (s : State) (c : Nat) (f : Core → Core) : (s.modCore c f).coreAt c = f (s.coreAt c) := by
  simp [State.modCore]

theorem State.coreAt_modCore_ne (s : State) (c i : Nat) (f : Core → Core) (h : i ≠ c) :
    (s.modCore c f).coreAt i = s.coreAt i := State.coreAt_setCore_ne _ _ _ _ h

@[simp] theorem Core.ctx_setCtx (c : Core) (k : Nat) (x : Ctx) : (c.setCtx k x).ctx k = x := by
  simp [Core.setCtx, Core.ctx]

theorem Core.ctx_setCtx_ne (c : Core) (k i : Nat) (x : Ctx) (h : i ≠ k) : (c.setCtx k x).ctx i = c.ctx i :=
  Tab.get_put_ne _ _ _ _ _ h

@[simp] theorem Core.ctx_modCtx (c : Core) (k : Nat) (f : Ctx → Ctx) : (c.modCtx k f).ctx k = f (c.ctx k) := by
  simp [Core.modCtx]

theorem Core.ctx_modCtx_ne (c : Core) (k i : Nat) (f : Ctx → Ctx) (h : i ≠ k) : (c.modCtx k f).ctx i = c.ctx i :=
  Core.ctx_setCtx_ne _ _ _ _ h

@[simp] theorem Core.issuing_modCtx (c : Core) (k : Nat) (f : Ctx → Ctx) : (c.modCtx k f).issuing = c.issuing := rfl
@[simp] theorem Core.dataIdx_modCtx (c : Core) (k : Nat) (f : Ctx → Ctx) : (c.modCtx k f).dataIdx = c.dataIdx := rfl

@[simp] theorem State.ctxAt_modCtx (s : State) (c k : Nat) (f : Ctx → Ctx) : (s.modCtx c k f).ctxAt c k = f (s.ctxAt c k) := by
  simp [State.modCtx, State.ctxAt]

theorem State.ctxAt_modCtx_ne (s : State) (c k c' k' : Nat) (f : Ctx → Ctx) (h : c' ≠ c ∨ k' ≠ k) :
    (s.modCtx c k f).ctxAt c' k' = s.ctxAt c' k' := by
  by_cases hc : c' = c
  · subst hc
    rcases h with h | h
    · exact absurd rfl h
    · simp only [State.modCtx, State.ctxAt, State.coreAt_modCore]
      exact Core.ctx_modCtx_ne _ _ _ _ h
  · simp only [State.modCtx, State.ctxAt]
    rw [State.coreAt_modCore_ne _ _ _ _ hc]

@[simp] theorem State.core_modMe (s : State) (f : Ctx → Ctx) : (s.modMe f).core = s.core.modCtx s.core.issuing f := by
  simp [State.modMe, State.core, State.modCtx]

@[simp] theorem State.core_modData (s : State) (f : Ctx → Ctx) : (s.modData f).core = s.core.modCtx s.core.dataIdx f := by
  simp [State.modData, State.core, State.modCtx]

@[simp] theorem State.core_modMyCore (s : State) (f : Core → Core) : (s.modMyCore f).core = f s.core := by
  simp [State.modMyCore, State.core]

@[simp] theorem State.me_modMe (s : State) (f : Ctx → Ctx) : (s.modMe f).me = f s.me := by
  simp only [State.me, State.core_modMe, Core.issuing_modCtx, Core.ctx_modCtx]

@[simp] theorem State.core_modBun (s : State) (f : Bun → Bun) : (s.modBun f).core = { s.core with bun := f s.core.bun } := by
  simp [State.modBun]

@[simp] theorem State.bun_modBun (s : State) (f : Bun → Bun) : (s.modBun f).bun = f s.bun := by
  simp [State.bun]

@[simp] theorem State.me_modBun (s : State) (f : Bun → Bun) : (s.modBun f).me = s.me := by
  simp [State.me, Core.ctx, Core.issuing]

@[simp] theorem State.bun_modMe (s : State) (f : Ctx → Ctx) : (s.modMe f).bun = s.bun := by
  simp [State.bun]

@[simp] theorem State.holds_hold (s : State) (h : Hold) : (s.hold h).bun.holds = s.bun.holds ++ [h] := by
  simp [State.hold]

/-- A slot whose guard is false changes nothing (R44). -/
theorem runSlot_off {g : BitVec 4} {issue perf : State → Except Stop State} {s : State} (h : s.guard g = false) :
    runSlot g issue perf s = .next s := by
  simp [runSlot, h]

/-- A slot whose checks pass in a bundle that is not held performs (R49). -/
theorem runSlot_next {g : BitVec 4} {issue perf : State → Except Stop State} {s t u : State} (h : s.guard g = true)
    (hi : issue s = .ok t) (hh : t.bun.holds = []) (hp : perf t = .ok u) : runSlot g issue perf s = .next u := by
  simp [runSlot, h, hi, hh, hp]

/-- A slot whose checks hold the bundle performs nothing (R49). -/
theorem runSlot_held {g : BitVec 4} {issue perf : State → Except Stop State} {s t : State} (h : s.guard g = true)
    (hi : issue s = .ok t) (hh : t.bun.holds ≠ []) : runSlot g issue perf s = .next t := by
  simp [runSlot, h, hi, hh]

/-- A slot whose checks fail traps (R49, R208). -/
theorem runSlot_trap {g : BitVec 4} {issue perf : State → Except Stop State} {s : State} {e : Stop} (h : s.guard g = true)
    (hi : issue s = .error e) : runSlot g issue perf s = .next (s.stop e) := by
  simp [runSlot, h, hi]

/-- Every slot answers a next state. -/
theorem runSlot_total (g : BitVec 4) (issue perf : State → Except Stop State) (s : State) :
    ∃ t, runSlot g issue perf s = .next t := by
  simp only [runSlot]
  repeat' split
  all_goals exact ⟨_, rfl⟩

theorem runPure_off {g : BitVec 4} {perf : State → State} {s : State} (h : s.guard g = false) : runPure g perf s = .next s := by
  simp [runPure, h]

theorem runPure_on {g : BitVec 4} {perf : State → State} {s : State} (h : s.guard g = true) :
    runPure g perf s = .next (perf s) := by
  simp [runPure, h]

theorem runPure_total (g : BitVec 4) (perf : State → State) (s : State) : ∃ t, runPure g perf s = .next t := by
  simp only [runPure]
  split
  · exact ⟨_, rfl⟩
  · exact ⟨_, rfl⟩

/-- The residue check passes where no register read is marked (R208, R216). -/
theorem readRegs_ok {rs : List Nat} {s : State} (h : ∀ r ∈ rs, r ∉ s.me.badS) : readRegs rs s = .ok s := by
  simp only [readRegs]
  rw [if_neg]
  simpa using h

/-- The residue check fails with SIG where a register read is marked (R208, R216). -/
theorem readRegs_sig {rs : List Nat} {s : State} {r : Nat} (h : r ∈ rs) (hb : r ∈ s.me.badS) :
    readRegs rs s = .error (.fail .sig 0 true) := by
  simp only [readRegs]
  rw [if_pos]
  simpa using ⟨r, h, hb⟩

/-- The residue checks of a memory slot pass where its address and the registers read do (R216). -/
theorem readAddr_ok {rs : List Nat} {s : State} (ha : s.addrBad = false) (h : ∀ r ∈ rs, r ∉ s.me.badS) : readAddr rs s = .ok s := by
  simp only [readAddr, ha]
  exact readRegs_ok h

/-- The residue checks of a memory slot fail with SIG where its address does (R216). -/
theorem readAddr_sig {rs : List Nat} {s : State} (ha : s.addrBad = true) : readAddr rs s = .error (.fail .sig 0 true) := by
  simp [readAddr, ha]

end Sys2Proof.Machine
end

