-- ==== Sys2Proof/Laws/Scalar.lean ====
section
/-!
SUPPORT. What the shared courses of the scalar instructions can do: the write they put in flight where nothing stops them, and the hold
of a busy divider.
-/
namespace Sys2Proof.Machine
set_option Elab.async false

theorem alu_next {lat : Nat} {rs : List Nat} {f : State → Word} {w : RForm} {s : State} (hg : s.guard w.g = true)
    (hh : s.bun.holds = []) (hr : ∀ r ∈ rs ++ rReads w, r ∉ s.me.badS) :
    alu lat rs f w s = .next (s.put (.s w.d.toNat (f s)) lat) :=
  runSlot_next hg rfl hh (by rw [readRegs_ok hr])

theorem alu2_next {op : Word → Word → Word} {w : RForm} {s : State} (hg : s.guard w.g = true)
    (hh : s.bun.holds = []) (hr : ∀ r ∈ rReads w, r ∉ s.me.badS) :
    alu2 op w s = .next (s.put (.s w.d.toNat (op (s.sreg w.a) (s.opB w))) 1) :=
  alu_next hg hh hr

theorem alu1_next {op : Word → Word} {w : RForm} {s : State} (hg : s.guard w.g = true)
    (hh : s.bun.holds = []) (hr : ∀ r ∈ [w.a.toNat], r ∉ s.me.badS) :
    alu1 op w s = .next (s.put (.s w.d.toNat (op (s.sreg w.a))) 1) :=
  runSlot_next hg rfl hh (by rw [readRegs_ok hr])

theorem falu1_next {op : Word → Word} {w : RForm} {s : State} (hg : s.guard w.g = true)
    (hh : s.bun.holds = []) (hr : ∀ r ∈ [w.a.toNat], r ∉ s.me.badS) :
    falu1 op w s = .next (s.put (.s w.d.toNat (op (s.sreg w.a))) 4) :=
  runSlot_next hg rfl hh (by rw [readRegs_ok hr])

theorem cmp_next {rel : Word → Word → Bool} {w : RForm} {s : State} (hg : s.guard w.g = true)
    (hh : s.bun.holds = []) (hr : ∀ r ∈ rReads w, r ∉ s.me.badS) :
    cmp rel w s = .next (s.put (.p w.d.toNat (rel (s.sreg w.a) (s.opB w))) 1) :=
  runSlot_next hg rfl hh (by rw [readRegs_ok hr])

theorem fcmp_next {rel : FVal → FVal → Bool} {w : RForm} {s : State} (hg : s.guard w.g = true)
    (hh : s.bun.holds = []) (hr : ∀ r ∈ rReads w, r ∉ s.me.badS) :
    fcmp rel w s = .next (s.put (.p w.d.toNat (rel (f32of (s.sreg w.a)) (f32of (s.opB w)))) 4) :=
  runSlot_next hg rfl hh (by rw [readRegs_ok hr])

theorem divide_next {op : Word → Word → Word} {w : RForm} {s : State} (hg : s.guard w.g = true)
    (hh : s.bun.holds = []) (hr : ∀ r ∈ rReads w, r ∉ s.me.badS) (hd : s.divBusy = 0) :
    divide op w s = .next (s.put (.s w.d.toNat (op (s.sreg w.a) (s.opB w))) 18).setDiv := by
  refine runSlot_next hg rfl (by simpa [hd] using hh) ?_
  simp only [hd, if_true]
  rw [readRegs_ok hr]

theorem divide_held {op : Word → Word → Word} {w : RForm} {s : State} (hg : s.guard w.g = true) (hd : s.divBusy ≠ 0) :
    divide op w s = .next (s.hold .interlock) := by
  simp [divide, runSlot, hg, hd]

/-- A slot that reads a register whose residue disagrees fails with SIG and writes nothing (R208, R216). -/
theorem alu_sig {lat : Nat} {rs : List Nat} {f : State → Word} {w : RForm} {s : State} {r : Nat} (hg : s.guard w.g = true)
    (hh : s.bun.holds = []) (hr : r ∈ rs ++ rReads w) (hb : r ∈ s.me.badS) :
    alu lat rs f w s = .next (s.stop (.fail .sig 0 true)) := by
  simp [alu, runSlot, hg, hh, readRegs_sig hr hb]

end Sys2Proof.Machine
end

