-- ==== Sys2Proof/Laws/Control.lean ====
section
/-!
SUPPORT. What the sequencer's operations can do: conditions of issue checks, the next bundle, loop instructions, taking a cause and
returning from the service context.
-/
namespace Sys2Proof.Machine
set_option Elab.async false

@[simp] theorem require_true (c : Cause) (s : State) : require true c s = .ok s := rfl
@[simp] theorem require_false (c : Cause) (s : State) : require false c s = .error (.trap c 0) := rfl

@[simp] theorem except_bind_ok {ε α β : Type} (a : α) (f : α → Except ε β) : (Except.ok a >>= f) = f a := rfl
@[simp] theorem except_bind_error {ε α β : Type} (e : ε) (f : α → Except ε β) : (Except.error e >>= f) = Except.error e := rfl

theorem notLoopEnd_ok {s : State} (h : s.atLoopEnd = false) : notLoopEnd s = .ok s := by simp [notLoopEnd, h]
theorem notLoopEnd_error {s : State} (h : s.atLoopEnd = true) : notLoopEnd s = .error (.trap .illegal 0) := by simp [notLoopEnd, h]
theorem notBroadcast_ok {s : State} (h : s.inBroadcast = false) : notBroadcast s = .ok s := by simp [notBroadcast, h]
theorem notBroadcast_error {s : State} (h : s.inBroadcast = true) : notBroadcast s = .error (.trap .gang 0) := by
  simp [notBroadcast, h]

/-! The choice of the next bundle for each control action (R195, R198, R200, R201). -/

theorem Ctx.sequence_go (x : Ctx) (t : Word) :
    x.sequence (some (.go t)) = loopEnds (segOf x.pc) (idxOf x.pc) x.loops t x.regs.x := rfl
theorem Ctx.sequence_push (x : Ctx) (lv : Level) (v : Word) :
    x.sequence (some (.push lv v)) = (lv :: x.loops, x.follow x.pc, x.regs.x.put lv.xn v) := rfl
theorem Ctx.sequence_skip (x : Ctx) (e : Nat) :
    x.sequence (some (.skip e)) = (x.loops, x.follow (codeAddr (segOf x.pc) e), x.regs.x) := rfl
theorem Ctx.sequence_none (x : Ctx) :
    x.sequence none = loopEnds (segOf x.pc) (idxOf x.pc) x.loops (x.follow x.pc) x.regs.x := rfl
theorem Ctx.sequence_brk (x : Ctx) (l : Level) (r : List Level) (h : x.loops = l :: r) :
    x.sequence (some .brk) =
      loopEnds (segOf l.start) l.endIdx r (l.after.getD (x.follow (codeAddr (segOf l.start) l.endIdx))) x.regs.x := by
  unfold Ctx.sequence
  simp only [h]

theorem loopEnds_nil (seg idx : Nat) (nx : Word) (xs : Tab Word) : loopEnds seg idx [] nx xs = ([], nx, xs) := rfl

/-- A level with iterations left, at its END, counts down and goes back to START (R200). -/
theorem loopEnds_again {seg idx : Nat} {l : Level} {r : List Level} {nx : Word} {xs : Tab Word} (hs : segOf l.start = seg)
    (he : l.endIdx = idx) (hr : 0 < l.rem) :
    loopEnds seg idx (l :: r) nx xs =
      ({ l with rem := l.rem - 1 } :: r, l.start, xs.put l.xn (Tab.get 0 xs l.xn + l.step.signExtend 64)) := by
  unfold loopEnds
  rw [if_pos ⟨hs, he⟩, if_pos hr]

/-- A level with no iteration left, at its END, pops, and the level below is compared (R200). -/
theorem loopEnds_pop {seg idx : Nat} {l : Level} {r : List Level} {nx : Word} {xs : Tab Word} (hs : segOf l.start = seg)
    (he : l.endIdx = idx) (hr : l.rem = 0) : loopEnds seg idx (l :: r) nx xs = loopEnds seg idx r nx xs := by
  rw [loopEnds, if_pos ⟨hs, he⟩, if_neg (by omega)]

/-- A bundle that is not the END of the top level leaves the stack alone (R200). -/
theorem loopEnds_other {seg idx : Nat} {l : Level} {r : List Level} {nx : Word} {xs : Tab Word}
    (h : ¬ (segOf l.start = seg ∧ l.endIdx = idx)) : loopEnds seg idx (l :: r) nx xs = (l :: r, nx, xs) := by
  unfold loopEnds
  rw [if_neg h]

theorem Ctx.advance_pc (x : Ctx) (c : Option Ctl) : (x.advance c).pc = (x.sequence c).2.1 := rfl
theorem Ctx.advance_loops (x : Ctx) (c : Option Ctl) : (x.advance c).loops = (x.sequence c).1 := rfl
theorem Ctx.advance_regs (x : Ctx) (c : Option Ctl) : (x.advance c).regs = { x.regs with x := (x.sequence c).2.2 } := rfl

/-- A move to another segment changes the loop buffer alone (R29). -/
theorem Ctx.enter_eq (x : Ctx) (seg : Nat) : x.enter seg = { x with buf := (x.enter seg).buf } := by
  simp only [Ctx.enter]
  split
  · rfl
  · split <;> rfl

/-- A move to the next bundle changes the loop buffer, the loop stack, the program counter, the loop indices and the mark of a passed segment
alone. -/
theorem Ctx.advance_eq (x : Ctx) (c : Option Ctl) :
    x.advance c = { x with buf := (x.advance c).buf, loops := (x.sequence c).1, pc := (x.sequence c).2.1,
                           regs := { x.regs with x := (x.sequence c).2.2 }, past := (x.advance c).past } := by
  have h := Ctx.enter_eq x (segOf (x.sequence c).2.1)
  simp only [Ctx.advance]
  rw [h]

/-- The common course of a loop instruction whose checks pass (R198). -/
theorem loopRun_next {w : JForm} {plan : State → Option LoopPlan} {rs : List Nat} {s : State} {p : LoopPlan}
    (hg : s.guard w.g = true) (hh : s.bun.holds = []) (he : s.atLoopEnd = false) (hn : s.me.loops.length < 6)
    (hx : ∀ l ∈ s.me.loops, l.xn ≠ w.x.toNat)
    (hi : ∀ l ∈ s.me.loops, segOf l.start = segOf s.me.pc → w.e.toNat ≤ l.endIdx)
    (hp : plan s = some p) (hr : ∀ r ∈ rs, r ∉ s.me.badS) :
    loopRun w plan rs s = .next (if p.n = 0 then s.setCtl (.skip w.e.toNat)
      else s.setCtl (.push ⟨p.n - 1, s.me.pc + 1, w.e.toNat, w.x.toNat, p.stg, p.step,
        some (s.me.follow (codeAddr (segOf s.me.pc) w.e.toNat))⟩ p.x0)) := by
  have h1 : (s.me.loops.any fun l => l.xn == w.x.toNat) = false := by simpa using hx
  have h2 : (s.me.loops.any fun l => segOf l.start == segOf s.me.pc && decide (l.endIdx < w.e.toNat)) = false := by
    simpa using hi
  simp [loopRun, runSlot, hg, notLoopEnd_ok he, hn, h1, h2, hp, hh, readRegs_ok hr]
  split
  · rename_i h; split at h
    · cases h
    · cases h
  · rename_i h; split at h
    · cases h; simp [*]
    · cases h; simp [*]

/-- A loop instruction whose count is refused traps LOOP_STEP (R198, R199). -/
theorem loopRun_loopStep {w : JForm} {plan : State → Option LoopPlan} {rs : List Nat} {s : State}
    (hg : s.guard w.g = true) (he : s.atLoopEnd = false) (hn : s.me.loops.length < 6)
    (hx : ∀ l ∈ s.me.loops, l.xn ≠ w.x.toNat)
    (hi : ∀ l ∈ s.me.loops, segOf l.start = segOf s.me.pc → w.e.toNat ≤ l.endIdx) (hp : plan s = none) :
    loopRun w plan rs s = .next (s.stop (.trap .loopStep 0)) := by
  have h1 : (s.me.loops.any fun l => l.xn == w.x.toNat) = false := by simpa using hx
  have h2 : (s.me.loops.any fun l => segOf l.start == segOf s.me.pc && decide (l.endIdx < w.e.toNat)) = false := by
    simpa using hi
  simp [loopRun, runSlot, hg, notLoopEnd_ok he, hn, h1, h2, hp]

/-- A loop instruction that does not fit the loop stack traps ILLEGAL (R198, R200). -/
theorem loopRun_illegal {w : JForm} {plan : State → Option LoopPlan} {rs : List Nat} {s : State} (hg : s.guard w.g = true)
    (h : s.atLoopEnd = true ∨ 6 ≤ s.me.loops.length ∨ (∃ l ∈ s.me.loops, l.xn = w.x.toNat) ∨
      ∃ l ∈ s.me.loops, segOf l.start = segOf s.me.pc ∧ l.endIdx < w.e.toNat) :
    loopRun w plan rs s = .next (s.stop (.trap .illegal 0)) := by
  refine runSlot_trap hg ?_
  cases he : s.atLoopEnd with
  | true => simp [notLoopEnd_error he]
  | false =>
    rw [notLoopEnd_ok he, except_bind_ok]
    by_cases hn : s.me.loops.length < 6
    · rw [decide_eq_true hn, require_true, except_bind_ok]
      cases hx : (s.me.loops.any fun l => l.xn == w.x.toNat) with
      | true => simp
      | false =>
        have h3 : (s.me.loops.any fun l => segOf l.start == segOf s.me.pc && decide (l.endIdx < w.e.toNat)) = true := by
          rcases h with h | h | ⟨l, hl, h⟩ | ⟨l, hl, h, h'⟩
          · simp [he] at h
          · omega
          · have := List.any_eq_false.mp hx l hl; simp [h] at this
          · exact List.any_eq_true.mpr ⟨l, hl, by simp [h, h']⟩
        simp [h3]
    · simp [hn]

end Sys2Proof.Machine
end

