-- ==== Sys2Proof/Laws/Decode.lean ====
section
/-!
SUPPORT. The fields of a packed word are the fields it was packed from, one lemma for each layout.
-/
namespace Sys2Proof
set_option Elab.async false

theorem bv_ofNat_toNat {n : Nat} (x : BitVec n) : BitVec.ofNat n x.toNat = x := by simp

theorem word_r (op : Nat) (w : RForm) (h : op < 128) :
    (Layout.r op w).word < 2 ^ 32 ∧ fld (Layout.r op w).word 21 7 = op ∧ rOf (Layout.r op w).word = w := by
  obtain ⟨g, d, a, i, b⟩ := w
  have hg := g.isLt; have hd := d.isLt; have ha := a.isLt; have hi := i.isLt; have hb := b.isLt
  simp only [Layout.word, pack, fld, rOf, RForm.mk.injEq]
  refine ⟨by omega, by omega, ?_, ?_, ?_, ?_, ?_⟩ <;>
    (apply BitVec.eq_of_toNat_eq; simp only [BitVec.toNat_ofNat]; omega)

theorem word_r_imm (op : Nat) (w : RForm) : fld (Layout.r op w).word 0 10 = w.b.toNat := by
  have := w.b.isLt
  simp only [Layout.word, pack, fld]
  omega

theorem word_l (op : Nat) (w : LForm) (h : op < 128) :
    (Layout.l op w).word < 2 ^ 32 ∧ fld (Layout.l op w).word 21 7 = op ∧ lOf (Layout.l op w).word = w := by
  obtain ⟨g, d, i⟩ := w
  have hg := g.isLt; have hd := d.isLt; have hi := i.isLt
  simp only [Layout.word, pack, fld, lOf, LForm.mk.injEq]
  refine ⟨by omega, by omega, ?_, ?_, ?_⟩ <;>
    (apply BitVec.eq_of_toNat_eq; simp only [BitVec.toNat_ofNat]; omega)

theorem word_t (op : Nat) (w : TForm) (h : op < 128) :
    (Layout.t op w).word < 2 ^ 32 ∧ fld (Layout.t op w).word 21 7 = op ∧ tOf (Layout.t op w).word = w := by
  obtain ⟨g, l⟩ := w
  have hg := g.isLt; have hl := l.isLt
  simp only [Layout.word, pack, fld, tOf, TForm.mk.injEq]
  refine ⟨by omega, by omega, ?_, ?_⟩ <;>
    (apply BitVec.eq_of_toNat_eq; simp only [BitVec.toNat_ofNat]; omega)

theorem word_b (op : Nat) (w : BForm) (h : op < 128) :
    (Layout.b op w).word < 2 ^ 32 ∧ fld (Layout.b op w).word 21 7 = op ∧ bOf (Layout.b op w).word = w := by
  obtain ⟨g, d, i⟩ := w
  have hg := g.isLt; have hd := d.isLt; have hi := i.isLt
  simp only [Layout.word, pack, fld, bOf, BForm.mk.injEq]
  refine ⟨by omega, by omega, ?_, ?_, ?_⟩ <;>
    (apply BitVec.eq_of_toNat_eq; simp only [BitVec.toNat_ofNat]; omega)

theorem word_bp (op : Nat) (w : BPForm) (h : op < 128) :
    (Layout.bp op w).word < 2 ^ 32 ∧ fld (Layout.bp op w).word 21 7 = op ∧ bpOf (Layout.bp op w).word = w := by
  obtain ⟨g, p, d, i⟩ := w
  have hg := g.isLt; have hp := p.isLt; have hd := d.isLt; have hi := i.isLt
  simp only [Layout.word, pack, fld, bpOf, BPForm.mk.injEq]
  refine ⟨by omega, by omega, ?_, ?_, ?_, ?_⟩ <;>
    (apply BitVec.eq_of_toNat_eq; simp only [BitVec.toNat_ofNat]; omega)

theorem word_j (op : Nat) (w : JForm) (h : op < 128) :
    (Layout.j op w).word < 2 ^ 32 ∧ fld (Layout.j op w).word 21 7 = op ∧ jOf (Layout.j op w).word = w := by
  obtain ⟨g, x, e, c⟩ := w
  have hg := g.isLt; have hx := x.isLt; have he := e.isLt; have hc := c.isLt
  simp only [Layout.word, pack, fld, jOf, JForm.mk.injEq]
  refine ⟨by omega, by omega, ?_, ?_, ?_, ?_⟩ <;>
    (apply BitVec.eq_of_toNat_eq; simp only [BitVec.toNat_ofNat]; omega)

theorem word_v (op : Nat) (w : VForm) (h : op < 256) :
    (Layout.v op w).word < 2 ^ 64 ∧ fld (Layout.v op w).word 52 8 = op ∧ vOf (Layout.v op w).word = w := by
  obtain ⟨g, ty, gm, dst, a, b, c, lm⟩ := w
  have hg := g.isLt; have h1 := ty.isLt; have h2 := gm.isLt; have h3 := dst.isLt; have h4 := a.isLt; have h5 := b.isLt
  have h6 := c.isLt; have h7 := lm.isLt
  simp only [Layout.word, pack, fld, vOf, VForm.mk.injEq]
  refine ⟨by omega, by omega, ?_, ?_, ?_, ?_, ?_, ?_, ?_, ?_⟩ <;>
    (apply BitVec.eq_of_toNat_eq; simp only [BitVec.toNat_ofNat]; omega)

theorem word_s (op : Nat) (w : SForm) (h : op < 64) :
    (Layout.s op w).word < 2 ^ 64 ∧ fld (Layout.s op w).word 54 6 = op ∧ sOf (Layout.s op w).word = w := by
  obtain ⟨g, ty, gm, dst, a, lm, z⟩ := w
  have hg := g.isLt; have h1 := ty.isLt; have h2 := gm.isLt; have h3 := dst.isLt; have h4 := a.isLt
  have h6 := z.isLt; have h7 := lm.isLt
  simp only [Layout.word, pack, fld, sOf, SForm.mk.injEq]
  refine ⟨by omega, by omega, ?_, ?_, ?_, ?_, ?_, ?_, ?_⟩ <;>
    (apply BitVec.eq_of_toNat_eq; simp only [BitVec.toNat_ofNat]; omega)

theorem word_p (op : Nat) (w : PForm) (h : op < 64) :
    (Layout.p op w).word < 2 ^ 64 ∧ fld (Layout.p op w).word 54 6 = op ∧ pOf (Layout.p op w).word = w := by
  obtain ⟨g, tf, tt, gm, dst, a, b, imm⟩ := w
  have hg := g.isLt; have h1 := tf.isLt; have h2 := tt.isLt; have h3 := gm.isLt; have h4 := dst.isLt
  have h5 := a.isLt; have h6 := b.isLt; have h7 := imm.isLt
  simp only [Layout.word, pack, fld, pOf, PForm.mk.injEq]
  refine ⟨by omega, by omega, ?_, ?_, ?_, ?_, ?_, ?_, ?_, ?_⟩ <;>
    (apply BitVec.eq_of_toNat_eq; simp only [BitVec.toNat_ofNat]; omega)

theorem word_m (op : Nat) (w : MForm) (h : op < 128) :
    (Layout.m op w).word < 2 ^ 64 ∧ fld (Layout.m op w).word 53 7 = op ∧ fld (Layout.m op w).word 50 3 = w.sz.toNat ∧
      mOf (Layout.m op w).word = w := by
  obtain ⟨g, sz, sc, data, base, idx, at16, disp⟩ := w
  have hg := g.isLt; have h1 := sz.isLt; have h2 := sc.isLt; have h3 := data.isLt; have h4 := base.isLt
  have h5 := idx.isLt; have h6 := at16.isLt; have h7 := disp.isLt
  simp only [Layout.word, pack, fld, mOf, MForm.mk.injEq]
  refine ⟨by omega, by omega, by omega, ?_, ?_, ?_, ?_, ?_, ?_, ?_, ?_⟩ <;>
    (apply BitVec.eq_of_toNat_eq; simp only [BitVec.toNat_ofNat]; omega)

theorem word_x (op : Nat) (w : XForm) (h : op < 8) :
    (Layout.x op w).word < 2 ^ 32 ∧ fld (Layout.x op w).word 25 3 = op ∧ xOf (Layout.x op w).word = w := by
  obtain ⟨g, cell, bank, a, b, q, fmt, flags, slice⟩ := w
  have hg := g.isLt; have h1 := cell.isLt; have h2 := bank.isLt; have h3 := a.isLt; have h4 := b.isLt
  have h5 := q.isLt; have h6 := fmt.isLt; have h7 := flags.isLt; have h8 := slice.isLt
  simp only [Layout.word, pack, fld, xOf, XForm.mk.injEq]
  refine ⟨by omega, by omega, ?_, ?_, ?_, ?_, ?_, ?_, ?_, ?_, ?_⟩ <;>
    (apply BitVec.eq_of_toNat_eq; simp only [BitVec.toNat_ofNat]; omega)

end Sys2Proof
end

