-- ==== Sys2Proof/Laws/Dispatch.lean ====
section
/-!
SUPPORT. What `exec` does with each constructor, one equation each, so that no proof unfolds the dispatch.
-/
namespace Sys2Proof.Machine

@[simp] theorem exec_add (w : RForm) (s : State) :
    exec (.add w) s = execAdd w s := rfl
@[simp] theorem exec_sub (w : RForm) (s : State) :
    exec (.sub w) s = execSub w s := rfl
@[simp] theorem exec_mul (w : RForm) (s : State) :
    exec (.mul w) s = execMul w s := rfl
@[simp] theorem exec_mulh (w : RForm) (s : State) :
    exec (.mulh w) s = execMulh w s := rfl
@[simp] theorem exec_mulhn (w : RForm) (s : State) :
    exec (.mulhn w) s = execMulhn w s := rfl
@[simp] theorem exec_div (w : RForm) (s : State) :
    exec (.div w) s = execDiv w s := rfl
@[simp] theorem exec_divn (w : RForm) (s : State) :
    exec (.divn w) s = execDivn w s := rfl
@[simp] theorem exec_mod (w : RForm) (s : State) :
    exec (.mod w) s = execMod w s := rfl
@[simp] theorem exec_modn (w : RForm) (s : State) :
    exec (.modn w) s = execModn w s := rfl
@[simp] theorem exec_and (w : RForm) (s : State) :
    exec (.and w) s = execAnd w s := rfl
@[simp] theorem exec_or (w : RForm) (s : State) :
    exec (.or w) s = execOr w s := rfl
@[simp] theorem exec_xor (w : RForm) (s : State) :
    exec (.xor w) s = execXor w s := rfl
@[simp] theorem exec_andn (w : RForm) (s : State) :
    exec (.andn w) s = execAndn w s := rfl
@[simp] theorem exec_orn (w : RForm) (s : State) :
    exec (.orn w) s = execOrn w s := rfl
@[simp] theorem exec_shl (w : RForm) (s : State) :
    exec (.shl w) s = execShl w s := rfl
@[simp] theorem exec_shra (w : RForm) (s : State) :
    exec (.shra w) s = execShra w s := rfl
@[simp] theorem exec_shrl (w : RForm) (s : State) :
    exec (.shrl w) s = execShrl w s := rfl
@[simp] theorem exec_rotl (w : RForm) (s : State) :
    exec (.rotl w) s = execRotl w s := rfl
@[simp] theorem exec_clz (w : RForm) (s : State) :
    exec (.clz w) s = execClz w s := rfl
@[simp] theorem exec_ctz (w : RForm) (s : State) :
    exec (.ctz w) s = execCtz w s := rfl
@[simp] theorem exec_popc (w : RForm) (s : State) :
    exec (.popc w) s = execPopc w s := rfl
@[simp] theorem exec_min (w : RForm) (s : State) :
    exec (.min w) s = execMin w s := rfl
@[simp] theorem exec_max (w : RForm) (s : State) :
    exec (.max w) s = execMax w s := rfl
@[simp] theorem exec_minn (w : RForm) (s : State) :
    exec (.minn w) s = execMinn w s := rfl
@[simp] theorem exec_maxn (w : RForm) (s : State) :
    exec (.maxn w) s = execMaxn w s := rfl
@[simp] theorem exec_sext (w : RForm) (s : State) :
    exec (.sext w) s = execSext w s := rfl
@[simp] theorem exec_zext (w : RForm) (s : State) :
    exec (.zext w) s = execZext w s := rfl
@[simp] theorem exec_bfx (w : RForm) (s : State) :
    exec (.bfx w) s = execBfx w s := rfl
@[simp] theorem exec_bfi (w : RForm) (s : State) :
    exec (.bfi w) s = execBfi w s := rfl
@[simp] theorem exec_mov (w : RForm) (s : State) :
    exec (.mov w) s = execMov w s := rfl
@[simp] theorem exec_sel (w : RForm) (s : State) :
    exec (.sel w) s = execSel w s := rfl
@[simp] theorem exec_li (w : LForm) (s : State) :
    exec (.li w) s = execLi w s := rfl
@[simp] theorem exec_lih (w : LForm) (s : State) :
    exec (.lih w) s = execLih w s := rfl
@[simp] theorem exec_lit (w : TForm) (s : State) :
    exec (.lit w) s = execLit w s := rfl
@[simp] theorem exec_cmpeq (w : RForm) (s : State) :
    exec (.cmpeq w) s = execCmpeq w s := rfl
@[simp] theorem exec_cmpne (w : RForm) (s : State) :
    exec (.cmpne w) s = execCmpne w s := rfl
@[simp] theorem exec_cmplt (w : RForm) (s : State) :
    exec (.cmplt w) s = execCmplt w s := rfl
@[simp] theorem exec_cmple (w : RForm) (s : State) :
    exec (.cmple w) s = execCmple w s := rfl
@[simp] theorem exec_cmpltn (w : RForm) (s : State) :
    exec (.cmpltn w) s = execCmpltn w s := rfl
@[simp] theorem exec_cmplen (w : RForm) (s : State) :
    exec (.cmplen w) s = execCmplen w s := rfl
@[simp] theorem exec_pand (w : RForm) (s : State) :
    exec (.pand w) s = execPand w s := rfl
@[simp] theorem exec_por (w : RForm) (s : State) :
    exec (.por w) s = execPor w s := rfl
@[simp] theorem exec_pxor (w : RForm) (s : State) :
    exec (.pxor w) s = execPxor w s := rfl
@[simp] theorem exec_pnot (w : RForm) (s : State) :
    exec (.pnot w) s = execPnot w s := rfl
@[simp] theorem exec_fadd (w : RForm) (s : State) :
    exec (.fadd w) s = execFadd w s := rfl
@[simp] theorem exec_fsub (w : RForm) (s : State) :
    exec (.fsub w) s = execFsub w s := rfl
@[simp] theorem exec_fmul (w : RForm) (s : State) :
    exec (.fmul w) s = execFmul w s := rfl
@[simp] theorem exec_fma (w : RForm) (s : State) :
    exec (.fma w) s = execFma w s := rfl
@[simp] theorem exec_fmin (w : RForm) (s : State) :
    exec (.fmin w) s = execFmin w s := rfl
@[simp] theorem exec_fmax (w : RForm) (s : State) :
    exec (.fmax w) s = execFmax w s := rfl
@[simp] theorem exec_fcmplt (w : RForm) (s : State) :
    exec (.fcmplt w) s = execFcmplt w s := rfl
@[simp] theorem exec_fcmpeq (w : RForm) (s : State) :
    exec (.fcmpeq w) s = execFcmpeq w s := rfl
@[simp] theorem exec_fcvti (w : RForm) (s : State) :
    exec (.fcvti w) s = execFcvti w s := rfl
@[simp] theorem exec_icvtf (w : RForm) (s : State) :
    exec (.icvtf w) s = execIcvtf w s := rfl
@[simp] theorem exec_fabs (w : RForm) (s : State) :
    exec (.fabs w) s = execFabs w s := rfl
@[simp] theorem exec_fneg (w : RForm) (s : State) :
    exec (.fneg w) s = execFneg w s := rfl
@[simp] theorem exec_br (w : BForm) (s : State) :
    exec (.br w) s = execBr w s := rfl
@[simp] theorem exec_brp (w : BPForm) (s : State) :
    exec (.brp w) s = execBrp w s := rfl
@[simp] theorem exec_brnp (w : BPForm) (s : State) :
    exec (.brnp w) s = execBrnp w s := rfl
@[simp] theorem exec_call (w : BForm) (s : State) :
    exec (.call w) s = execCall w s := rfl
@[simp] theorem exec_ret (w : RForm) (s : State) :
    exec (.ret w) s = execRet w s := rfl
@[simp] theorem exec_jmps (w : RForm) (s : State) :
    exec (.jmps w) s = execJmps w s := rfl
@[simp] theorem exec_loop (w : JForm) (s : State) :
    exec (.loop w) s = execLoop w s := rfl
@[simp] theorem exec_loopi (w : JForm) (s : State) :
    exec (.loopi w) s = execLoopi w s := rfl
@[simp] theorem exec_loopx (w : JForm) (s : State) :
    exec (.loopx w) s = execLoopx w s := rfl
@[simp] theorem exec_mloop (w : JForm) (s : State) :
    exec (.mloop w) s = execMloop w s := rfl
@[simp] theorem exec_lbrk (w : RForm) (s : State) :
    exec (.lbrk w) s = execLbrk w s := rfl
@[simp] theorem exec_getx (w : RForm) (s : State) :
    exec (.getx w) s = execGetx w s := rfl
@[simp] theorem exec_chksig (w : RForm) (s : State) :
    exec (.chksig w) s = execChksig w s := rfl
@[simp] theorem exec_phase (w : RForm) (s : State) :
    exec (.phase w) s = execPhase w s := rfl
@[simp] theorem exec_qwait (w : RForm) (s : State) :
    exec (.qwait w) s = execQwait w s := rfl
@[simp] theorem exec_qfree (w : RForm) (s : State) :
    exec (.qfree w) s = execQfree w s := rfl
@[simp] theorem exec_waitc (w : RForm) (s : State) :
    exec (.waitc w) s = execWaitc w s := rfl
@[simp] theorem exec_bara (w : RForm) (s : State) :
    exec (.bara w) s = execBara w s := rfl
@[simp] theorem exec_barw (w : RForm) (s : State) :
    exec (.barw w) s = execBarw w s := rfl
@[simp] theorem exec_bar (w : RForm) (s : State) :
    exec (.bar w) s = execBar w s := rfl
@[simp] theorem exec_gjoin (w : RForm) (s : State) :
    exec (.gjoin w) s = execGjoin w s := rfl
@[simp] theorem exec_giss (w : RForm) (s : State) :
    exec (.giss w) s = execGiss w s := rfl
@[simp] theorem exec_gend (w : RForm) (s : State) :
    exec (.gend w) s = execGend w s := rfl
@[simp] theorem exec_lnch (w : RForm) (s : State) :
    exec (.lnch w) s = execLnch w s := rfl
@[simp] theorem exec_done (w : RForm) (s : State) :
    exec (.done w) s = execDone w s := rfl
@[simp] theorem exec_yield (w : RForm) (s : State) :
    exec (.yield w) s = execYield w s := rfl
@[simp] theorem exec_trap (w : RForm) (s : State) :
    exec (.trap w) s = execTrap w s := rfl
@[simp] theorem exec_eretResume (w : RForm) (s : State) :
    exec (.eretResume w) s = execEretResume w s := rfl
@[simp] theorem exec_eretSkip (w : RForm) (s : State) :
    exec (.eretSkip w) s = execEretSkip w s := rfl
@[simp] theorem exec_eretEsc (w : RForm) (s : State) :
    exec (.eretEsc w) s = execEretEsc w s := rfl
@[simp] theorem exec_sysrd (w : RForm) (s : State) :
    exec (.sysrd w) s = execSysrd w s := rfl
@[simp] theorem exec_syswr (w : RForm) (s : State) :
    exec (.syswr w) s = execSyswr w s := rfl
@[simp] theorem exec_qcfg (w : RForm) (s : State) :
    exec (.qcfg w) s = execQcfg w s := rfl
@[simp] theorem exec_qpop (w : RForm) (s : State) :
    exec (.qpop w) s = execQpop w s := rfl
@[simp] theorem exec_qsplc (w : RForm) (s : State) :
    exec (.qsplc w) s = execQsplc w s := rfl
@[simp] theorem exec_qunsp (w : RForm) (s : State) :
    exec (.qunsp w) s = execQunsp w s := rfl
@[simp] theorem exec_qsync (w : RForm) (s : State) :
    exec (.qsync w) s = execQsync w s := rfl
@[simp] theorem exec_qstat (w : RForm) (s : State) :
    exec (.qstat w) s = execQstat w s := rfl
@[simp] theorem exec_qclr (w : RForm) (s : State) :
    exec (.qclr w) s = execQclr w s := rfl
@[simp] theorem exec_dset (w : RForm) (s : State) :
    exec (.dset w) s = execDset w s := rfl
@[simp] theorem exec_dget (w : RForm) (s : State) :
    exec (.dget w) s = execDget w s := rfl
@[simp] theorem exec_qzap (w : RForm) (s : State) :
    exec (.qzap w) s = execQzap w s := rfl
@[simp] theorem exec_vadd (w : VForm) (s : State) :
    exec (.vadd w) s = execVadd w s := rfl
@[simp] theorem exec_vsub (w : VForm) (s : State) :
    exec (.vsub w) s = execVsub w s := rfl
@[simp] theorem exec_vmul (w : VForm) (s : State) :
    exec (.vmul w) s = execVmul w s := rfl
@[simp] theorem exec_vfma (w : VForm) (s : State) :
    exec (.vfma w) s = execVfma w s := rfl
@[simp] theorem exec_vfms (w : VForm) (s : State) :
    exec (.vfms w) s = execVfms w s := rfl
@[simp] theorem exec_vfnma (w : VForm) (s : State) :
    exec (.vfnma w) s = execVfnma w s := rfl
@[simp] theorem exec_vmin (w : VForm) (s : State) :
    exec (.vmin w) s = execVmin w s := rfl
@[simp] theorem exec_vmax (w : VForm) (s : State) :
    exec (.vmax w) s = execVmax w s := rfl
@[simp] theorem exec_vabs (w : VForm) (s : State) :
    exec (.vabs w) s = execVabs w s := rfl
@[simp] theorem exec_vneg (w : VForm) (s : State) :
    exec (.vneg w) s = execVneg w s := rfl
@[simp] theorem exec_vabd (w : VForm) (s : State) :
    exec (.vabd w) s = execVabd w s := rfl
@[simp] theorem exec_vadds (w : VForm) (s : State) :
    exec (.vadds w) s = execVadds w s := rfl
@[simp] theorem exec_vsubs (w : VForm) (s : State) :
    exec (.vsubs w) s = execVsubs w s := rfl
@[simp] theorem exec_vmulh (w : VForm) (s : State) :
    exec (.vmulh w) s = execVmulh w s := rfl
@[simp] theorem exec_vand (w : VForm) (s : State) :
    exec (.vand w) s = execVand w s := rfl
@[simp] theorem exec_vor (w : VForm) (s : State) :
    exec (.vor w) s = execVor w s := rfl
@[simp] theorem exec_vxor (w : VForm) (s : State) :
    exec (.vxor w) s = execVxor w s := rfl
@[simp] theorem exec_vnot (w : VForm) (s : State) :
    exec (.vnot w) s = execVnot w s := rfl
@[simp] theorem exec_vshl (w : VForm) (s : State) :
    exec (.vshl w) s = execVshl w s := rfl
@[simp] theorem exec_vshra (w : VForm) (s : State) :
    exec (.vshra w) s = execVshra w s := rfl
@[simp] theorem exec_vshrl (w : VForm) (s : State) :
    exec (.vshrl w) s = execVshrl w s := rfl
@[simp] theorem exec_vclz (w : VForm) (s : State) :
    exec (.vclz w) s = execVclz w s := rfl
@[simp] theorem exec_vpopc (w : VForm) (s : State) :
    exec (.vpopc w) s = execVpopc w s := rfl
@[simp] theorem exec_vmov (w : VForm) (s : State) :
    exec (.vmov w) s = execVmov w s := rfl
@[simp] theorem exec_vsel (w : VForm) (s : State) :
    exec (.vsel w) s = execVsel w s := rfl
@[simp] theorem exec_vidx (w : VForm) (s : State) :
    exec (.vidx w) s = execVidx w s := rfl
@[simp] theorem exec_vcmpeq (w : VForm) (s : State) :
    exec (.vcmpeq w) s = execVcmpeq w s := rfl
@[simp] theorem exec_vcmpne (w : VForm) (s : State) :
    exec (.vcmpne w) s = execVcmpne w s := rfl
@[simp] theorem exec_vcmplt (w : VForm) (s : State) :
    exec (.vcmplt w) s = execVcmplt w s := rfl
@[simp] theorem exec_vcmple (w : VForm) (s : State) :
    exec (.vcmple w) s = execVcmple w s := rfl
@[simp] theorem exec_vpand (w : VForm) (s : State) :
    exec (.vpand w) s = execVpand w s := rfl
@[simp] theorem exec_vpor (w : VForm) (s : State) :
    exec (.vpor w) s = execVpor w s := rfl
@[simp] theorem exec_vpnot (w : VForm) (s : State) :
    exec (.vpnot w) s = execVpnot w s := rfl
@[simp] theorem exec_vradd (w : VForm) (s : State) :
    exec (.vradd w) s = execVradd w s := rfl
@[simp] theorem exec_vrmax (w : VForm) (s : State) :
    exec (.vrmax w) s = execVrmax w s := rfl
@[simp] theorem exec_vrmin (w : VForm) (s : State) :
    exec (.vrmin w) s = execVrmin w s := rfl
@[simp] theorem exec_xcp (w : VForm) (s : State) :
    exec (.xcp w) s = execXcp w s := rfl
@[simp] theorem exec_xbc (w : VForm) (s : State) :
    exec (.xbc w) s = execXbc w s := rfl
@[simp] theorem exec_vdot2 (w : VForm) (s : State) :
    exec (.vdot2 w) s = execVdot2 w s := rfl
@[simp] theorem exec_vdot4 (w : VForm) (s : State) :
    exec (.vdot4 w) s = execVdot4 w s := rfl
@[simp] theorem exec_sfexp2 (w : SForm) (s : State) :
    exec (.sfexp2 w) s = execSfexp2 w s := rfl
@[simp] theorem exec_sflog2 (w : SForm) (s : State) :
    exec (.sflog2 w) s = execSflog2 w s := rfl
@[simp] theorem exec_sfrcp (w : SForm) (s : State) :
    exec (.sfrcp w) s = execSfrcp w s := rfl
@[simp] theorem exec_sfrsq (w : SForm) (s : State) :
    exec (.sfrsq w) s = execSfrsq w s := rfl
@[simp] theorem exec_sfsqrt (w : SForm) (s : State) :
    exec (.sfsqrt w) s = execSfsqrt w s := rfl
@[simp] theorem exec_sfsin (w : SForm) (s : State) :
    exec (.sfsin w) s = execSfsin w s := rfl
@[simp] theorem exec_sfcos (w : SForm) (s : State) :
    exec (.sfcos w) s = execSfcos w s := rfl
@[simp] theorem exec_sftanh (w : SForm) (s : State) :
    exec (.sftanh w) s = execSftanh w s := rfl
@[simp] theorem exec_sfsigm (w : SForm) (s : State) :
    exec (.sfsigm w) s = execSfsigm w s := rfl
@[simp] theorem exec_sferf (w : SForm) (s : State) :
    exec (.sferf w) s = execSferf w s := rfl
@[simp] theorem exec_ppack (w : PForm) (s : State) :
    exec (.ppack w) s = execPpack w s := rfl
@[simp] theorem exec_punpk (w : PForm) (s : State) :
    exec (.punpk w) s = execPunpk w s := rfl
@[simp] theorem exec_pcvt (w : PForm) (s : State) :
    exec (.pcvt w) s = execPcvt w s := rfl
@[simp] theorem exec_pscl (w : PForm) (s : State) :
    exec (.pscl w) s = execPscl w s := rfl
@[simp] theorem exec_pdscl (w : PForm) (s : State) :
    exec (.pdscl w) s = execPdscl w s := rfl
@[simp] theorem exec_pres (w : PForm) (s : State) :
    exec (.pres w) s = execPres w s := rfl
@[simp] theorem exec_pcrt (w : PForm) (s : State) :
    exec (.pcrt w) s = execPcrt w s := rfl
@[simp] theorem exec_pshuf (w : PForm) (s : State) :
    exec (.pshuf w) s = execPshuf w s := rfl
@[simp] theorem exec_ptrn (w : PForm) (s : State) :
    exec (.ptrn w) s = execPtrn w s := rfl
@[simp] theorem exec_pswz (w : PForm) (s : State) :
    exec (.pswz w) s = execPswz w s := rfl
@[simp] theorem exec_plut (w : PForm) (s : State) :
    exec (.plut w) s = execPlut w s := rfl
@[simp] theorem exec_ld (w : MForm) (s : State) :
    exec (.ld w) s = execLd w s := rfl
@[simp] theorem exec_st (w : MForm) (s : State) :
    exec (.st w) s = execSt w s := rfl
@[simp] theorem exec_ldl (w : MForm) (s : State) :
    exec (.ldl w) s = execLdl w s := rfl
@[simp] theorem exec_stl (w : MForm) (s : State) :
    exec (.stl w) s = execStl w s := rfl
@[simp] theorem exec_ldv (w : MForm) (s : State) :
    exec (.ldv w) s = execLdv w s := rfl
@[simp] theorem exec_stv (w : MForm) (s : State) :
    exec (.stv w) s = execStv w s := rfl
@[simp] theorem exec_ldg (w : MForm) (s : State) :
    exec (.ldg w) s = execLdg w s := rfl
@[simp] theorem exec_sts (w : MForm) (s : State) :
    exec (.sts w) s = execSts w s := rfl
@[simp] theorem exec_pref (w : MForm) (s : State) :
    exec (.pref w) s = execPref w s := rfl
@[simp] theorem exec_flush (w : MForm) (s : State) :
    exec (.flush w) s = execFlush w s := rfl
@[simp] theorem exec_flushInv (w : MForm) (s : State) :
    exec (.flushInv w) s = execFlushInv w s := rfl
@[simp] theorem exec_flushAll (w : MForm) (s : State) :
    exec (.flushAll w) s = execFlushAll w s := rfl
@[simp] theorem exec_fence (w : MForm) (s : State) :
    exec (.fence w) s = execFence w s := rfl
@[simp] theorem exec_lock (w : MForm) (s : State) :
    exec (.lock w) s = execLock w s := rfl
@[simp] theorem exec_unlock (w : MForm) (s : State) :
    exec (.unlock w) s = execUnlock w s := rfl
@[simp] theorem exec_aadd (w : MForm) (s : State) :
    exec (.aadd w) s = execAadd w s := rfl
@[simp] theorem exec_amin (w : MForm) (s : State) :
    exec (.amin w) s = execAmin w s := rfl
@[simp] theorem exec_amax (w : MForm) (s : State) :
    exec (.amax w) s = execAmax w s := rfl
@[simp] theorem exec_aand (w : MForm) (s : State) :
    exec (.aand w) s = execAand w s := rfl
@[simp] theorem exec_aor (w : MForm) (s : State) :
    exec (.aor w) s = execAor w s := rfl
@[simp] theorem exec_axor (w : MForm) (s : State) :
    exec (.axor w) s = execAxor w s := rfl
@[simp] theorem exec_aswp (w : MForm) (s : State) :
    exec (.aswp w) s = execAswp w s := rfl
@[simp] theorem exec_acas (w : MForm) (s : State) :
    exec (.acas w) s = execAcas w s := rfl
@[simp] theorem exec_afadd (w : MForm) (s : State) :
    exec (.afadd w) s = execAfadd w s := rfl
@[simp] theorem exec_redadd (w : MForm) (s : State) :
    exec (.redadd w) s = execRedadd w s := rfl
@[simp] theorem exec_redmin (w : MForm) (s : State) :
    exec (.redmin w) s = execRedmin w s := rfl
@[simp] theorem exec_redmax (w : MForm) (s : State) :
    exec (.redmax w) s = execRedmax w s := rfl
@[simp] theorem exec_redfadd (w : MForm) (s : State) :
    exec (.redfadd w) s = execRedfadd w s := rfl
@[simp] theorem exec_lend (w : MForm) (s : State) :
    exec (.lend w) s = execLend w s := rfl
@[simp] theorem exec_lendPass (w : MForm) (s : State) :
    exec (.lendPass w) s = execLendPass w s := rfl
@[simp] theorem exec_retn (w : MForm) (s : State) :
    exec (.retn w) s = execRetn w s := rfl
@[simp] theorem exec_split (w : MForm) (s : State) :
    exec (.split w) s = execSplit w s := rfl
@[simp] theorem exec_join (w : MForm) (s : State) :
    exec (.join w) s = execJoin w s := rfl
@[simp] theorem exec_share (w : MForm) (s : State) :
    exec (.share w) s = execShare w s := rfl
@[simp] theorem exec_unshr (w : MForm) (s : State) :
    exec (.unshr w) s = execUnshr w s := rfl
@[simp] theorem exec_tkmodePlain (w : MForm) (s : State) :
    exec (.tkmodePlain w) s = execTkmodePlain w s := rfl
@[simp] theorem exec_tkmodeAtomic (w : MForm) (s : State) :
    exec (.tkmodeAtomic w) s = execTkmodeAtomic w s := rfl
@[simp] theorem exec_tkqry (w : MForm) (s : State) :
    exec (.tkqry w) s = execTkqry w s := rfl
@[simp] theorem exec_tkqryChain (w : MForm) (s : State) :
    exec (.tkqryChain w) s = execTkqryChain w s := rfl
@[simp] theorem exec_tkqrySelf (w : MForm) (s : State) :
    exec (.tkqrySelf w) s = execTkqrySelf w s := rfl
@[simp] theorem exec_reclaimClean (w : MForm) (s : State) :
    exec (.reclaimClean w) s = execReclaimClean w s := rfl
@[simp] theorem exec_reclaimReinit (w : MForm) (s : State) :
    exec (.reclaimReinit w) s = execReclaimReinit w s := rfl
@[simp] theorem exec_reclaimCreate (w : MForm) (s : State) :
    exec (.reclaimCreate w) s = execReclaimCreate w s := rfl
@[simp] theorem exec_reclaimDestroy (w : MForm) (s : State) :
    exec (.reclaimDestroy w) s = execReclaimDestroy w s := rfl
@[simp] theorem exec_reclaimSeize (w : MForm) (s : State) :
    exec (.reclaimSeize w) s = execReclaimSeize w s := rfl
@[simp] theorem exec_cpy (w : MForm) (s : State) :
    exec (.cpy w) s = execCpy w s := rfl
@[simp] theorem exec_cpym (w : MForm) (s : State) :
    exec (.cpym w) s = execCpym w s := rfl
@[simp] theorem exec_cpyn (w : MForm) (s : State) :
    exec (.cpyn w) s = execCpyn w s := rfl
@[simp] theorem exec_cpyq (w : MForm) (s : State) :
    exec (.cpyq w) s = execCpyq w s := rfl
@[simp] theorem exec_cpyf (w : MForm) (s : State) :
    exec (.cpyf w) s = execCpyf w s := rfl
@[simp] theorem exec_sxbm (w : MForm) (s : State) :
    exec (.sxbm w) s = execSxbm w s := rfl
@[simp] theorem exec_sxrl (w : MForm) (s : State) :
    exec (.sxrl w) s = execSxrl w s := rfl
@[simp] theorem exec_sxstop (w : MForm) (s : State) :
    exec (.sxstop w) s = execSxstop w s := rfl
@[simp] theorem exec_sxstopAll (w : MForm) (s : State) :
    exec (.sxstopAll w) s = execSxstopAll w s := rfl
@[simp] theorem exec_mnop (w : XForm) (s : State) :
    exec (.mnop w) s = execMnop w s := rfl
@[simp] theorem exec_mpa (w : XForm) (s : State) :
    exec (.mpa w) s = execMpa w s := rfl
@[simp] theorem exec_mpsh (w : XForm) (s : State) :
    exec (.mpsh w) s = execMpsh w s := rfl
@[simp] theorem exec_macc (w : XForm) (s : State) :
    exec (.macc w) s = execMacc w s := rfl
@[simp] theorem exec_mshf (w : XForm) (s : State) :
    exec (.mshf w) s = execMshf w s := rfl
@[simp] theorem exec_mdrn (w : XForm) (s : State) :
    exec (.mdrn w) s = execMdrn w s := rfl
@[simp] theorem exec_mclr (w : XForm) (s : State) :
    exec (.mclr w) s = execMclr w s := rfl
@[simp] theorem exec_mlda (w : XForm) (s : State) :
    exec (.mlda w) s = execMlda w s := rfl
@[simp] theorem exec_interlockHold (c : Nat) (s : State) :
    exec (.interlockHold c) s = execInterlockHold c s := rfl
@[simp] theorem exec_freezeThaw (c : Nat) (s : State) :
    exec (.freezeThaw c) s = execFreezeThaw c s := rfl
@[simp] theorem exec_segmentExpansion (c : Nat) (k : Nat) (seg : Nat) (s : State) :
    exec (.segmentExpansion c k seg) s = execSegmentExpansion c k seg s := rfl
@[simp] theorem exec_exposedWriteLanding (c : Nat) (s : State) :
    exec (.exposedWriteLanding c) s = execExposedWriteLanding c s := rfl
@[simp] theorem exec_loadDataArrival (n : Nat) (s : State) :
    exec (.loadDataArrival n) s = execLoadDataArrival n s := rfl
@[simp] theorem exec_registerLanding (c : Nat) (k : Nat) (s : State) :
    exec (.registerLanding c k) s = execRegisterLanding c k s := rfl
@[simp] theorem exec_slotLanding (n : Nat) (s : State) :
    exec (.slotLanding n) s = execSlotLanding n s := rfl
@[simp] theorem exec_waitConditionMet (c : Nat) (k : Nat) (s : State) :
    exec (.waitConditionMet c k) s = execWaitConditionMet c k s := rfl
@[simp] theorem exec_starvationGuard (c : Nat) (k : Nat) (s : State) :
    exec (.starvationGuard c k) s = execStarvationGuard c k s := rfl
@[simp] theorem exec_preemptionRequest (c : Nat) (k : Nat) (s : State) :
    exec (.preemptionRequest c k) s = execPreemptionRequest c k s := rfl
@[simp] theorem exec_preemptionLimitExpiry (c : Nat) (k : Nat) (s : State) :
    exec (.preemptionLimitExpiry c k) s = execPreemptionLimitExpiry c k s := rfl
@[simp] theorem exec_serviceEntry (c : Nat) (s : State) :
    exec (.serviceEntry c) s = execServiceEntry c s := rfl
@[simp] theorem exec_escalationDrainComplete (c : Nat) (k : Nat) (s : State) :
    exec (.escalationDrainComplete c k) s = execEscalationDrainComplete c k s := rfl
@[simp] theorem exec_phaseSnapshot (c : Nat) (k : Nat) (s : State) :
    exec (.phaseSnapshot c k) s = execPhaseSnapshot c k s := rfl
@[simp] theorem exec_phaseRollback (c : Nat) (k : Nat) (s : State) :
    exec (.phaseRollback c k) s = execPhaseRollback c k s := rfl
@[simp] theorem exec_spliceRequest (n : Nat) (s : State) :
    exec (.spliceRequest n) s = execSpliceRequest n s := rfl
@[simp] theorem exec_spliceAnswer (n : Nat) (s : State) :
    exec (.spliceAnswer n) s = execSpliceAnswer n s := rfl
@[simp] theorem exec_remoteAppend (n : Nat) (s : State) :
    exec (.remoteAppend n) s = execRemoteAppend n s := rfl
@[simp] theorem exec_headMessageSend (c : Nat) (k : Nat) (q : Nat) (s : State) :
    exec (.headMessageSend c k q) s = execHeadMessageSend c k q s := rfl
@[simp] theorem exec_headMessage (n : Nat) (ok : Bool) (s : State) :
    exec (.headMessage n ok) s = execHeadMessage n ok s := rfl
@[simp] theorem exec_unspliceMarker (n : Nat) (s : State) :
    exec (.unspliceMarker n) s = execUnspliceMarker n s := rfl
@[simp] theorem exec_headRequest (n : Nat) (s : State) :
    exec (.headRequest n) s = execHeadRequest n s := rfl
@[simp] theorem exec_headRequestAnswer (n : Nat) (s : State) :
    exec (.headRequestAnswer n) s = execHeadRequestAnswer n s := rfl
@[simp] theorem exec_copyStart (die : Nat) (s : State) :
    exec (.copyStart die) s = execCopyStart die s := rfl
@[simp] theorem exec_copyPiece (n : Nat) (j : Nat) (s : State) :
    exec (.copyPiece n j) s = execCopyPiece n j s := rfl
@[simp] theorem exec_cpymDelivery (n : Nat) (k : Nat) (s : State) :
    exec (.cpymDelivery n k) s = execCpymDelivery n k s := rfl
@[simp] theorem exec_notify (n : Nat) (s : State) :
    exec (.notify n) s = execNotify n s := rfl
@[simp] theorem exec_copyCompletion (n : Nat) (s : State) :
    exec (.copyCompletion n) s = execCopyCompletion n s := rfl
@[simp] theorem exec_sparseStart (c : Nat) (s : State) :
    exec (.sparseStart c) s = execSparseStart c s := rfl
@[simp] theorem exec_metadataArrival (c : Nat) (s : State) :
    exec (.metadataArrival c) s = execMetadataArrival c s := rfl
@[simp] theorem exec_sparseEmit (c : Nat) (s : State) :
    exec (.sparseEmit c) s = execSparseEmit c s := rfl
@[simp] theorem exec_sparseFinish (c : Nat) (s : State) :
    exec (.sparseFinish c) s = execSparseFinish c s := rfl
@[simp] theorem exec_latchReady (n : Nat) (s : State) :
    exec (.latchReady n) s = execLatchReady n s := rfl
@[simp] theorem exec_matrixAccumulationLanding (c : Nat) (s : State) :
    exec (.matrixAccumulationLanding c) s = execMatrixAccumulationLanding c s := rfl
@[simp] theorem exec_drainSlotPresent (c : Nat) (s : State) :
    exec (.drainSlotPresent c) s = execDrainSlotPresent c s := rfl
@[simp] theorem exec_barrierArrival (n : Nat) (s : State) :
    exec (.barrierArrival n) s = execBarrierArrival n s := rfl
@[simp] theorem exec_barrierRelease (n : Nat) (s : State) :
    exec (.barrierRelease n) s = execBarrierRelease n s := rfl
@[simp] theorem exec_gangStart (n : Nat) (s : State) :
    exec (.gangStart n) s = execGangStart n s := rfl
@[simp] theorem exec_gissHoldEnd (n : Nat) (s : State) :
    exec (.gissHoldEnd n) s = execGissHoldEnd n s := rfl
@[simp] theorem exec_gangCompletion (n : Nat) (s : State) :
    exec (.gangCompletion n) s = execGangCompletion n s := rfl
@[simp] theorem exec_homeAccess (n : Nat) (s : State) :
    exec (.homeAccess n) s = execHomeAccess n s := rfl
@[simp] theorem exec_homeAtomic (n : Nat) (s : State) :
    exec (.homeAtomic n) s = execHomeAtomic n s := rfl
@[simp] theorem exec_tableWalkRead (c : Nat) (j : Nat) (s : State) :
    exec (.tableWalkRead c j) s = execTableWalkRead c j s := rfl
@[simp] theorem exec_dirtyReport (n : Nat) (s : State) :
    exec (.dirtyReport n) s = execDirtyReport n s := rfl
@[simp] theorem exec_tokenSliceRequest (n : Nat) (s : State) :
    exec (.tokenSliceRequest n) s = execTokenSliceRequest n s := rfl
@[simp] theorem exec_ownershipInvalidation (n : Nat) (s : State) :
    exec (.ownershipInvalidation n) s = execOwnershipInvalidation n s := rfl
@[simp] theorem exec_partyDeath (p : Word) (s : State) :
    exec (.partyDeath p) s = execPartyDeath p s := rfl
@[simp] theorem exec_orphanScan (die : Nat) (p : Word) (s : State) :
    exec (.orphanScan die p) s = execOrphanScan die p s := rfl
@[simp] theorem exec_completionReread (c : Nat) (k : Nat) (s : State) :
    exec (.completionReread c k) s = execCompletionReread c k s := rfl
@[simp] theorem exec_l1Eviction (c : Nat) (line : Nat) (s : State) :
    exec (.l1Eviction c line) s = execL1Eviction c line s := rfl
@[simp] theorem exec_flushMarker (n : Nat) (s : State) :
    exec (.flushMarker n) s = execFlushMarker n s := rfl
@[simp] theorem exec_flushAcknowledgement (n : Nat) (s : State) :
    exec (.flushAcknowledgement n) s = execFlushAcknowledgement n s := rfl
@[simp] theorem exec_lqPush (h : Nat) (die : Nat) (q : Nat) (addr : Nat) (s : State) :
    exec (.lqPush h die q addr) s = execLqPush h die q addr s := rfl
@[simp] theorem exec_lqControlWrite (h : Nat) (die : Nat) (q : Nat) (v : Word) (s : State) :
    exec (.lqControlWrite h die q v) s = execLqControlWrite h die q v s := rfl
@[simp] theorem exec_launchAcceptance (die : Nat) (q : Nat) (s : State) :
    exec (.launchAcceptance die q) s = execLaunchAcceptance die q s := rfl
@[simp] theorem exec_packageTick (s : State) :
    exec (.packageTick) s = execPackageTick s := rfl
@[simp] theorem exec_dispatch (l : Nat) (e : Nat) (s : State) :
    exec (.dispatch l e) s = execDispatch l e s := rfl
@[simp] theorem exec_doneFinish (c : Nat) (k : Nat) (s : State) :
    exec (.doneFinish c k) s = execDoneFinish c k s := rfl
@[simp] theorem exec_launchEnd (l : Nat) (s : State) :
    exec (.launchEnd l) s = execLaunchEnd l s := rfl
@[simp] theorem exec_coalWindowExpiry (t : Nat) (s : State) :
    exec (.coalWindowExpiry t) s = execCoalWindowExpiry t s := rfl
@[simp] theorem exec_contextSave (c : Nat) (k : Nat) (s : State) :
    exec (.contextSave c k) s = execContextSave c k s := rfl
@[simp] theorem exec_contextRestore (n : Nat) (c : Nat) (k : Nat) (s : State) :
    exec (.contextRestore n c k) s = execContextRestore n c k s := rfl
@[simp] theorem exec_sampleInterval (c : Nat) (r : Sample) (s : State) :
    exec (.sampleInterval c r) s = execSampleInterval c r s := rfl
@[simp] theorem exec_clockSwitch (c : Nat) (s : State) :
    exec (.clockSwitch c) s = execClockSwitch c s := rfl
@[simp] theorem exec_clockSwitchEnd (c : Nat) (s : State) :
    exec (.clockSwitchEnd c) s = execClockSwitchEnd c s := rfl
@[simp] theorem exec_scratchpadSweep (c : Nat) (s : State) :
    exec (.scratchpadSweep c) s = execScratchpadSweep c s := rfl
@[simp] theorem exec_sageCommit (s : State) :
    exec (.sageCommit) s = execSageCommit s := rfl
@[simp] theorem exec_bankAccess (n : Nat) (s : State) :
    exec (.bankAccess n) s = execBankAccess n s := rfl
@[simp] theorem exec_alertBlockEnd (n : Nat) (s : State) :
    exec (.alertBlockEnd n) s = execAlertBlockEnd n s := rfl
@[simp] theorem exec_refresh (n : Nat) (s : State) :
    exec (.refresh n) s = execRefresh n s := rfl
@[simp] theorem exec_patrolScrub (stack : Nat) (s : State) :
    exec (.patrolScrub stack) s = execPatrolScrub stack s := rfl
@[simp] theorem exec_l2Sweep (die : Nat) (slice : Nat) (s : State) :
    exec (.l2Sweep die slice) s = execL2Sweep die slice s := rfl
@[simp] theorem exec_channelClr (h : Nat) (stack : Nat) (s : State) :
    exec (.channelClr h stack) s = execChannelClr h stack s := rfl
@[simp] theorem exec_force (h : Nat) (die : Nat) (s : State) :
    exec (.force h die) s = execForce h die s := rfl
@[simp] theorem exec_flitArrival (link : Nat) (lane : Nat) (outw : Bool) (ok : Bool) (s : State) :
    exec (.flitArrival link lane outw ok) s = execFlitArrival link lane outw ok s := rfl
@[simp] theorem exec_linkFailure (link : Nat) (s : State) :
    exec (.linkFailure link) s = execLinkFailure link s := rfl
@[simp] theorem exec_transportTimeout (n : Nat) (s : State) :
    exec (.transportTimeout n) s = execTransportTimeout n s := rfl
@[simp] theorem exec_packetReceive (port : Nat) (p : Packet) (s : State) :
    exec (.packetReceive port p) s = execPacketReceive port p s := rfl
@[simp] theorem exec_requestAdmission (n : Nat) (s : State) :
    exec (.requestAdmission n) s = execRequestAdmission n s := rfl
@[simp] theorem exec_shareRefill (c : Nat) (s : State) :
    exec (.shareRefill c) s = execShareRefill c s := rfl
@[simp] theorem exec_hostAccess (h : Nat) (a : Nat) (d : List Byte) (wr : Bool) (s : State) :
    exec (.hostAccess h a d wr) s = execHostAccess h a d wr s := rfl
@[simp] theorem exec_hostLend (h : Nat) (s : State) :
    exec (.hostLend h) s = execHostLend h s := rfl
@[simp] theorem exec_hostLendPass (h : Nat) (s : State) :
    exec (.hostLendPass h) s = execHostLendPass h s := rfl
@[simp] theorem exec_hostRetn (h : Nat) (s : State) :
    exec (.hostRetn h) s = execHostRetn h s := rfl
@[simp] theorem exec_hostSplit (h : Nat) (s : State) :
    exec (.hostSplit h) s = execHostSplit h s := rfl
@[simp] theorem exec_hostJoin (h : Nat) (s : State) :
    exec (.hostJoin h) s = execHostJoin h s := rfl
@[simp] theorem exec_hostShare (h : Nat) (s : State) :
    exec (.hostShare h) s = execHostShare h s := rfl
@[simp] theorem exec_hostUnshr (h : Nat) (s : State) :
    exec (.hostUnshr h) s = execHostUnshr h s := rfl
@[simp] theorem exec_hostTkmodePlain (h : Nat) (s : State) :
    exec (.hostTkmodePlain h) s = execHostTkmodePlain h s := rfl
@[simp] theorem exec_hostTkmodeAtomic (h : Nat) (s : State) :
    exec (.hostTkmodeAtomic h) s = execHostTkmodeAtomic h s := rfl
@[simp] theorem exec_hostTkqry (h : Nat) (s : State) :
    exec (.hostTkqry h) s = execHostTkqry h s := rfl
@[simp] theorem exec_hostReclaimClean (h : Nat) (s : State) :
    exec (.hostReclaimClean h) s = execHostReclaimClean h s := rfl
@[simp] theorem exec_hostReinit (h : Nat) (s : State) :
    exec (.hostReinit h) s = execHostReinit h s := rfl
@[simp] theorem exec_hostCreate (h : Nat) (s : State) :
    exec (.hostCreate h) s = execHostCreate h s := rfl
@[simp] theorem exec_hostDestroy (h : Nat) (s : State) :
    exec (.hostDestroy h) s = execHostDestroy h s := rfl
@[simp] theorem exec_hostSeize (h : Nat) (s : State) :
    exec (.hostSeize h) s = execHostSeize h s := rfl
@[simp] theorem exec_xinvAsn (h : Nat) (s : State) :
    exec (.xinvAsn h) s = execXinvAsn h s := rfl
@[simp] theorem exec_xinvRange (h : Nat) (s : State) :
    exec (.xinvRange h) s = execXinvRange h s := rfl
@[simp] theorem exec_hostBadCommand (h : Nat) (op : Nat) (s : State) :
    exec (.hostBadCommand h op) s = execHostBadCommand h op s := rfl
@[simp] theorem exec_ago (h : Nat) (s : State) :
    exec (.ago h) s = execAgo h s := rfl
@[simp] theorem exec_registerWrite (h : Nat) (a : Nat) (v : Word) (s : State) :
    exec (.registerWrite h a v) s = execRegisterWrite h a v s := rfl
@[simp] theorem exec_journalWrite (s : State) :
    exec (.journalWrite) s = execJournalWrite s := rfl
@[simp] theorem exec_throttleStep (pnow : Nat) (tj : Nat) (s : State) :
    exec (.throttleStep pnow tj) s = execThrottleStep pnow tj s := rfl
@[simp] theorem exec_overtemperature (s : State) :
    exec (.overtemperature) s = execOvertemperature s := rfl
@[simp] theorem exec_packageReset (ims : List Image) (s : State) :
    exec (.packageReset ims) s = execPackageReset ims s := rfl
@[simp] theorem exec_liveUpdate (im : Image) (s : State) :
    exec (.liveUpdate im) s = execLiveUpdate im s := rfl
@[simp] theorem exec_mgmtPower (on : Bool) (s : State) :
    exec (.mgmtPower on) s = execMgmtPower on s := rfl
@[simp] theorem exec_mgmtReset (s : State) :
    exec (.mgmtReset) s = execMgmtReset s := rfl
@[simp] theorem exec_mgmtFirmwareUpdate (im : Image) (s : State) :
    exec (.mgmtFirmwareUpdate im) s = execMgmtFirmwareUpdate im s := rfl
@[simp] theorem exec_mgmtRead (n : Nat) (s : State) :
    exec (.mgmtRead n) s = execMgmtRead n s := rfl
@[simp] theorem exec_mgmtAttestation (nonce : Nat) (s : State) :
    exec (.mgmtAttestation nonce) s = execMgmtAttestation nonce s := rfl
@[simp] theorem exec_mgmtForceDecTed (die : Nat) (s : State) :
    exec (.mgmtForceDecTed die) s = execMgmtForceDecTed die s := rfl
@[simp] theorem exec_mgmtRetireCore (c : Nat) (s : State) :
    exec (.mgmtRetireCore c) s = execMgmtRetireCore c s := rfl
@[simp] theorem exec_mgmtRaiseMinSvn (svn : Nat) (signed : Bool) (s : State) :
    exec (.mgmtRaiseMinSvn svn signed) s = execMgmtRaiseMinSvn svn signed s := rfl
@[simp] theorem exec_mgmtClearCore (c : Nat) (s : State) :
    exec (.mgmtClearCore c) s = execMgmtClearCore c s := rfl
@[simp] theorem exec_podRemove (n : Nat) (s : State) :
    exec (.podRemove n) s = execPodRemove n s := rfl
@[simp] theorem exec_podAdmit (n : Nat) (ok : Bool) (s : State) :
    exec (.podAdmit n ok) s = execPodAdmit n ok s := rfl
@[simp] theorem exec_emptyBundle (s : State) :
    exec (.emptyBundle) s = execEmptyBundle s := rfl
@[simp] theorem exec_unassignedOpcode (s : State) :
    exec (.unassignedOpcode) s = execUnassignedOpcode s := rfl
@[simp] theorem exec_taskKill (c : Nat) (k : Nat) (s : State) :
    exec (.taskKill c k) s = execTaskKill c k s := rfl
@[simp] theorem exec_coreUnresponsive (c : Nat) (s : State) :
    exec (.coreUnresponsive c) s = execCoreUnresponsive c s := rfl
@[simp] theorem exec_powerLoss (s : State) :
    exec (.powerLoss) s = execPowerLoss s := rfl
@[simp] theorem exec_portLinkDown (n : Nat) (s : State) :
    exec (.portLinkDown n) s = execPortLinkDown n s := rfl
@[simp] theorem exec_portLinkUp (n : Nat) (s : State) :
    exec (.portLinkUp n) s = execPortLinkUp n s := rfl
@[simp] theorem exec_softError (e : SoftError) (s : State) :
    exec (.softError e) s = execSoftError e s := rfl
@[simp] theorem exec_writeAcknowledgement (n : Nat) (s : State) :
    exec (.writeAcknowledgement n) s = execWriteAcknowledgement n s := rfl
@[simp] theorem exec_hselWrite (h : Nat) (v : Word) (s : State) :
    exec (.hselWrite h v) s = execHselWrite h v s := rfl

end Sys2Proof.Machine
end

