-- ==== Sys2Proof/Laws/PerInstr.lean ====
section
/-!
SUPPORT. The family Shape: an instruction has a word exactly where some slot accepts it, and the word fits its slot; one lemma for each
constructor.
-/
namespace Sys2Proof.Laws.Shape
set_option Elab.async false

/-- An instruction is encoded exactly where a slot accepts it, and its word fits every such slot (R32, R33, R36 to R43). -/
def Statement (i : Instr) : Prop :=
  (encode i).isSome = !i.slots.isEmpty ∧ ∀ n, encode i = some n → ∀ slot ∈ i.slots, n < 2 ^ (8 * slotBytes slot)

/-- Some slot accepts the instruction, and each one that does holds words of `n` bits. -/
def fits (n : Nat) (l : List Nat) : Bool := !l.isEmpty && l.all (fun slot => decide (8 * slotBytes slot = n))

theorem of_r {i : Instr} {op : Nat} {w : RForm} (h : encode i = some (Layout.r op w).word) (ho : op < 128)
    (hs : fits 32 i.slots = true) : Statement i := by
  simp only [fits, Bool.and_eq_true, Bool.not_eq_true', List.all_eq_true, decide_eq_true_eq] at hs
  refine ⟨by rw [h, hs.1]; rfl, fun n hn slot hm => ?_⟩
  rw [h] at hn
  cases hn
  rw [hs.2 slot hm]
  exact (word_r op w ho).1

theorem of_l {i : Instr} {op : Nat} {w : LForm} (h : encode i = some (Layout.l op w).word) (ho : op < 128)
    (hs : fits 32 i.slots = true) : Statement i := by
  simp only [fits, Bool.and_eq_true, Bool.not_eq_true', List.all_eq_true, decide_eq_true_eq] at hs
  refine ⟨by rw [h, hs.1]; rfl, fun n hn slot hm => ?_⟩
  rw [h] at hn
  cases hn
  rw [hs.2 slot hm]
  exact (word_l op w ho).1

theorem of_t {i : Instr} {op : Nat} {w : TForm} (h : encode i = some (Layout.t op w).word) (ho : op < 128)
    (hs : fits 32 i.slots = true) : Statement i := by
  simp only [fits, Bool.and_eq_true, Bool.not_eq_true', List.all_eq_true, decide_eq_true_eq] at hs
  refine ⟨by rw [h, hs.1]; rfl, fun n hn slot hm => ?_⟩
  rw [h] at hn
  cases hn
  rw [hs.2 slot hm]
  exact (word_t op w ho).1

theorem of_b {i : Instr} {op : Nat} {w : BForm} (h : encode i = some (Layout.b op w).word) (ho : op < 128)
    (hs : fits 32 i.slots = true) : Statement i := by
  simp only [fits, Bool.and_eq_true, Bool.not_eq_true', List.all_eq_true, decide_eq_true_eq] at hs
  refine ⟨by rw [h, hs.1]; rfl, fun n hn slot hm => ?_⟩
  rw [h] at hn
  cases hn
  rw [hs.2 slot hm]
  exact (word_b op w ho).1

theorem of_bp {i : Instr} {op : Nat} {w : BPForm} (h : encode i = some (Layout.bp op w).word) (ho : op < 128)
    (hs : fits 32 i.slots = true) : Statement i := by
  simp only [fits, Bool.and_eq_true, Bool.not_eq_true', List.all_eq_true, decide_eq_true_eq] at hs
  refine ⟨by rw [h, hs.1]; rfl, fun n hn slot hm => ?_⟩
  rw [h] at hn
  cases hn
  rw [hs.2 slot hm]
  exact (word_bp op w ho).1

theorem of_j {i : Instr} {op : Nat} {w : JForm} (h : encode i = some (Layout.j op w).word) (ho : op < 128)
    (hs : fits 32 i.slots = true) : Statement i := by
  simp only [fits, Bool.and_eq_true, Bool.not_eq_true', List.all_eq_true, decide_eq_true_eq] at hs
  refine ⟨by rw [h, hs.1]; rfl, fun n hn slot hm => ?_⟩
  rw [h] at hn
  cases hn
  rw [hs.2 slot hm]
  exact (word_j op w ho).1

theorem of_x {i : Instr} {op : Nat} {w : XForm} (h : encode i = some (Layout.x op w).word) (ho : op < 8)
    (hs : fits 32 i.slots = true) : Statement i := by
  simp only [fits, Bool.and_eq_true, Bool.not_eq_true', List.all_eq_true, decide_eq_true_eq] at hs
  refine ⟨by rw [h, hs.1]; rfl, fun n hn slot hm => ?_⟩
  rw [h] at hn
  cases hn
  rw [hs.2 slot hm]
  exact (word_x op w ho).1

theorem of_v {i : Instr} {op : Nat} {w : VForm} (h : encode i = some (Layout.v op w).word) (ho : op < 256)
    (hs : fits 64 i.slots = true) : Statement i := by
  simp only [fits, Bool.and_eq_true, Bool.not_eq_true', List.all_eq_true, decide_eq_true_eq] at hs
  refine ⟨by rw [h, hs.1]; rfl, fun n hn slot hm => ?_⟩
  rw [h] at hn
  cases hn
  rw [hs.2 slot hm]
  exact (word_v op w ho).1

theorem of_s {i : Instr} {op : Nat} {w : SForm} (h : encode i = some (Layout.s op w).word) (ho : op < 64)
    (hs : fits 64 i.slots = true) : Statement i := by
  simp only [fits, Bool.and_eq_true, Bool.not_eq_true', List.all_eq_true, decide_eq_true_eq] at hs
  refine ⟨by rw [h, hs.1]; rfl, fun n hn slot hm => ?_⟩
  rw [h] at hn
  cases hn
  rw [hs.2 slot hm]
  exact (word_s op w ho).1

theorem of_p {i : Instr} {op : Nat} {w : PForm} (h : encode i = some (Layout.p op w).word) (ho : op < 64)
    (hs : fits 64 i.slots = true) : Statement i := by
  simp only [fits, Bool.and_eq_true, Bool.not_eq_true', List.all_eq_true, decide_eq_true_eq] at hs
  refine ⟨by rw [h, hs.1]; rfl, fun n hn slot hm => ?_⟩
  rw [h] at hn
  cases hn
  rw [hs.2 slot hm]
  exact (word_p op w ho).1

theorem of_m {i : Instr} {op : Nat} {w : MForm} (h : encode i = some (Layout.m op w).word) (ho : op < 128)
    (hs : fits 64 i.slots = true) : Statement i := by
  simp only [fits, Bool.and_eq_true, Bool.not_eq_true', List.all_eq_true, decide_eq_true_eq] at hs
  refine ⟨by rw [h, hs.1]; rfl, fun n hn slot hm => ?_⟩
  rw [h] at hn
  cases hn
  rw [hs.2 slot hm]
  exact (word_m op w ho).1

theorem of_event {i : Instr} (h : encode i = none) (hs : i.slots = []) : Statement i := by
  refine ⟨by rw [h, hs]; rfl, fun n hn => ?_⟩
  rw [h] at hn
  cases hn

theorem add (w : RForm) : Statement (.add w) := of_r (op := 1) rfl (of_decide_eq_true rfl) rfl
theorem sub (w : RForm) : Statement (.sub w) := of_r (op := 2) rfl (of_decide_eq_true rfl) rfl
theorem mul (w : RForm) : Statement (.mul w) := of_r (op := 3) rfl (of_decide_eq_true rfl) rfl
theorem mulh (w : RForm) : Statement (.mulh w) := of_r (op := 4) rfl (of_decide_eq_true rfl) rfl
theorem mulhn (w : RForm) : Statement (.mulhn w) := of_r (op := 5) rfl (of_decide_eq_true rfl) rfl
theorem div (w : RForm) : Statement (.div w) := of_r (op := 6) rfl (of_decide_eq_true rfl) rfl
theorem divn (w : RForm) : Statement (.divn w) := of_r (op := 7) rfl (of_decide_eq_true rfl) rfl
theorem mod (w : RForm) : Statement (.mod w) := of_r (op := 8) rfl (of_decide_eq_true rfl) rfl
theorem modn (w : RForm) : Statement (.modn w) := of_r (op := 9) rfl (of_decide_eq_true rfl) rfl
theorem and (w : RForm) : Statement (.and w) := of_r (op := 16) rfl (of_decide_eq_true rfl) rfl
theorem or (w : RForm) : Statement (.or w) := of_r (op := 17) rfl (of_decide_eq_true rfl) rfl
theorem xor (w : RForm) : Statement (.xor w) := of_r (op := 18) rfl (of_decide_eq_true rfl) rfl
theorem andn (w : RForm) : Statement (.andn w) := of_r (op := 19) rfl (of_decide_eq_true rfl) rfl
theorem orn (w : RForm) : Statement (.orn w) := of_r (op := 20) rfl (of_decide_eq_true rfl) rfl
theorem shl (w : RForm) : Statement (.shl w) := of_r (op := 21) rfl (of_decide_eq_true rfl) rfl
theorem shra (w : RForm) : Statement (.shra w) := of_r (op := 22) rfl (of_decide_eq_true rfl) rfl
theorem shrl (w : RForm) : Statement (.shrl w) := of_r (op := 23) rfl (of_decide_eq_true rfl) rfl
theorem rotl (w : RForm) : Statement (.rotl w) := of_r (op := 24) rfl (of_decide_eq_true rfl) rfl
theorem clz (w : RForm) : Statement (.clz w) := of_r (op := 25) rfl (of_decide_eq_true rfl) rfl
theorem ctz (w : RForm) : Statement (.ctz w) := of_r (op := 26) rfl (of_decide_eq_true rfl) rfl
theorem popc (w : RForm) : Statement (.popc w) := of_r (op := 27) rfl (of_decide_eq_true rfl) rfl
theorem min (w : RForm) : Statement (.min w) := of_r (op := 32) rfl (of_decide_eq_true rfl) rfl
theorem max (w : RForm) : Statement (.max w) := of_r (op := 33) rfl (of_decide_eq_true rfl) rfl
theorem minn (w : RForm) : Statement (.minn w) := of_r (op := 34) rfl (of_decide_eq_true rfl) rfl
theorem maxn (w : RForm) : Statement (.maxn w) := of_r (op := 35) rfl (of_decide_eq_true rfl) rfl
theorem sext (w : RForm) : Statement (.sext w) := of_r (op := 36) rfl (of_decide_eq_true rfl) rfl
theorem zext (w : RForm) : Statement (.zext w) := of_r (op := 37) rfl (of_decide_eq_true rfl) rfl
theorem bfx (w : RForm) : Statement (.bfx w) := of_r (op := 38) rfl (of_decide_eq_true rfl) rfl
theorem bfi (w : RForm) : Statement (.bfi w) := of_r (op := 39) rfl (of_decide_eq_true rfl) rfl
theorem mov (w : RForm) : Statement (.mov w) := of_r (op := 40) rfl (of_decide_eq_true rfl) rfl
theorem sel (w : RForm) : Statement (.sel w) := of_r (op := 41) rfl (of_decide_eq_true rfl) rfl
theorem li (w : LForm) : Statement (.li w) := of_l (op := 42) rfl (of_decide_eq_true rfl) rfl
theorem lih (w : LForm) : Statement (.lih w) := of_l (op := 43) rfl (of_decide_eq_true rfl) rfl
theorem lit (w : TForm) : Statement (.lit w) := of_t (op := 44) rfl (of_decide_eq_true rfl) rfl
theorem cmpeq (w : RForm) : Statement (.cmpeq w) := of_r (op := 48) rfl (of_decide_eq_true rfl) rfl
theorem cmpne (w : RForm) : Statement (.cmpne w) := of_r (op := 49) rfl (of_decide_eq_true rfl) rfl
theorem cmplt (w : RForm) : Statement (.cmplt w) := of_r (op := 50) rfl (of_decide_eq_true rfl) rfl
theorem cmple (w : RForm) : Statement (.cmple w) := of_r (op := 51) rfl (of_decide_eq_true rfl) rfl
theorem cmpltn (w : RForm) : Statement (.cmpltn w) := of_r (op := 52) rfl (of_decide_eq_true rfl) rfl
theorem cmplen (w : RForm) : Statement (.cmplen w) := of_r (op := 53) rfl (of_decide_eq_true rfl) rfl
theorem pand (w : RForm) : Statement (.pand w) := of_r (op := 54) rfl (of_decide_eq_true rfl) rfl
theorem por (w : RForm) : Statement (.por w) := of_r (op := 55) rfl (of_decide_eq_true rfl) rfl
theorem pxor (w : RForm) : Statement (.pxor w) := of_r (op := 56) rfl (of_decide_eq_true rfl) rfl
theorem pnot (w : RForm) : Statement (.pnot w) := of_r (op := 57) rfl (of_decide_eq_true rfl) rfl
theorem fadd (w : RForm) : Statement (.fadd w) := of_r (op := 64) rfl (of_decide_eq_true rfl) rfl
theorem fsub (w : RForm) : Statement (.fsub w) := of_r (op := 65) rfl (of_decide_eq_true rfl) rfl
theorem fmul (w : RForm) : Statement (.fmul w) := of_r (op := 66) rfl (of_decide_eq_true rfl) rfl
theorem fma (w : RForm) : Statement (.fma w) := of_r (op := 67) rfl (of_decide_eq_true rfl) rfl
theorem fmin (w : RForm) : Statement (.fmin w) := of_r (op := 68) rfl (of_decide_eq_true rfl) rfl
theorem fmax (w : RForm) : Statement (.fmax w) := of_r (op := 69) rfl (of_decide_eq_true rfl) rfl
theorem fcmplt (w : RForm) : Statement (.fcmplt w) := of_r (op := 70) rfl (of_decide_eq_true rfl) rfl
theorem fcmpeq (w : RForm) : Statement (.fcmpeq w) := of_r (op := 71) rfl (of_decide_eq_true rfl) rfl
theorem fcvti (w : RForm) : Statement (.fcvti w) := of_r (op := 72) rfl (of_decide_eq_true rfl) rfl
theorem icvtf (w : RForm) : Statement (.icvtf w) := of_r (op := 73) rfl (of_decide_eq_true rfl) rfl
theorem fabs (w : RForm) : Statement (.fabs w) := of_r (op := 74) rfl (of_decide_eq_true rfl) rfl
theorem fneg (w : RForm) : Statement (.fneg w) := of_r (op := 75) rfl (of_decide_eq_true rfl) rfl
theorem br (w : BForm) : Statement (.br w) := of_b (op := 80) rfl (of_decide_eq_true rfl) rfl
theorem brp (w : BPForm) : Statement (.brp w) := of_bp (op := 81) rfl (of_decide_eq_true rfl) rfl
theorem brnp (w : BPForm) : Statement (.brnp w) := of_bp (op := 82) rfl (of_decide_eq_true rfl) rfl
theorem call (w : BForm) : Statement (.call w) := of_b (op := 83) rfl (of_decide_eq_true rfl) rfl
theorem ret (w : RForm) : Statement (.ret w) := of_r (op := 84) rfl (of_decide_eq_true rfl) rfl
theorem jmps (w : RForm) : Statement (.jmps w) := of_r (op := 85) rfl (of_decide_eq_true rfl) rfl
theorem loop (w : JForm) : Statement (.loop w) := of_j (op := 86) rfl (of_decide_eq_true rfl) rfl
theorem loopi (w : JForm) : Statement (.loopi w) := of_j (op := 87) rfl (of_decide_eq_true rfl) rfl
theorem loopx (w : JForm) : Statement (.loopx w) := of_j (op := 88) rfl (of_decide_eq_true rfl) rfl
theorem mloop (w : JForm) : Statement (.mloop w) := of_j (op := 89) rfl (of_decide_eq_true rfl) rfl
theorem lbrk (w : RForm) : Statement (.lbrk w) := of_r (op := 90) rfl (of_decide_eq_true rfl) rfl
theorem getx (w : RForm) : Statement (.getx w) := of_r (op := 91) rfl (of_decide_eq_true rfl) rfl
theorem chksig (w : RForm) : Statement (.chksig w) := of_r (op := 92) rfl (of_decide_eq_true rfl) rfl
theorem phase (w : RForm) : Statement (.phase w) := of_r (op := 93) rfl (of_decide_eq_true rfl) rfl
theorem qwait (w : RForm) : Statement (.qwait w) := of_r (op := 96) rfl (of_decide_eq_true rfl) rfl
theorem qfree (w : RForm) : Statement (.qfree w) := of_r (op := 97) rfl (of_decide_eq_true rfl) rfl
theorem waitc (w : RForm) : Statement (.waitc w) := of_r (op := 98) rfl (of_decide_eq_true rfl) rfl
theorem bara (w : RForm) : Statement (.bara w) := of_r (op := 99) rfl (of_decide_eq_true rfl) rfl
theorem barw (w : RForm) : Statement (.barw w) := of_r (op := 100) rfl (of_decide_eq_true rfl) rfl
theorem bar (w : RForm) : Statement (.bar w) := of_r (op := 101) rfl (of_decide_eq_true rfl) rfl
theorem gjoin (w : RForm) : Statement (.gjoin w) := of_r (op := 102) rfl (of_decide_eq_true rfl) rfl
theorem giss (w : RForm) : Statement (.giss w) := of_r (op := 103) rfl (of_decide_eq_true rfl) rfl
theorem gend (w : RForm) : Statement (.gend w) := of_r (op := 104) rfl (of_decide_eq_true rfl) rfl
theorem lnch (w : RForm) : Statement (.lnch w) := of_r (op := 105) rfl (of_decide_eq_true rfl) rfl
theorem done (w : RForm) : Statement (.done w) := of_r (op := 106) rfl (of_decide_eq_true rfl) rfl
theorem yield (w : RForm) : Statement (.yield w) := of_r (op := 107) rfl (of_decide_eq_true rfl) rfl
theorem trap (w : RForm) : Statement (.trap w) := of_r (op := 108) rfl (of_decide_eq_true rfl) rfl
theorem eretResume (w : RForm) : Statement (.eretResume w) := of_r (op := 109) rfl (of_decide_eq_true rfl) rfl
theorem eretSkip (w : RForm) : Statement (.eretSkip w) := of_r (op := 109) rfl (of_decide_eq_true rfl) rfl
theorem eretEsc (w : RForm) : Statement (.eretEsc w) := of_r (op := 109) rfl (of_decide_eq_true rfl) rfl
theorem sysrd (w : RForm) : Statement (.sysrd w) := of_r (op := 110) rfl (of_decide_eq_true rfl) rfl
theorem syswr (w : RForm) : Statement (.syswr w) := of_r (op := 111) rfl (of_decide_eq_true rfl) rfl
theorem qcfg (w : RForm) : Statement (.qcfg w) := of_r (op := 112) rfl (of_decide_eq_true rfl) rfl
theorem qpop (w : RForm) : Statement (.qpop w) := of_r (op := 113) rfl (of_decide_eq_true rfl) rfl
theorem qsplc (w : RForm) : Statement (.qsplc w) := of_r (op := 114) rfl (of_decide_eq_true rfl) rfl
theorem qunsp (w : RForm) : Statement (.qunsp w) := of_r (op := 115) rfl (of_decide_eq_true rfl) rfl
theorem qsync (w : RForm) : Statement (.qsync w) := of_r (op := 116) rfl (of_decide_eq_true rfl) rfl
theorem qstat (w : RForm) : Statement (.qstat w) := of_r (op := 117) rfl (of_decide_eq_true rfl) rfl
theorem qclr (w : RForm) : Statement (.qclr w) := of_r (op := 118) rfl (of_decide_eq_true rfl) rfl
theorem dset (w : RForm) : Statement (.dset w) := of_r (op := 119) rfl (of_decide_eq_true rfl) rfl
theorem dget (w : RForm) : Statement (.dget w) := of_r (op := 120) rfl (of_decide_eq_true rfl) rfl
theorem qzap (w : RForm) : Statement (.qzap w) := of_r (op := 121) rfl (of_decide_eq_true rfl) rfl
theorem vadd (w : VForm) : Statement (.vadd w) := of_v (op := 1) rfl (of_decide_eq_true rfl) rfl
theorem vsub (w : VForm) : Statement (.vsub w) := of_v (op := 2) rfl (of_decide_eq_true rfl) rfl
theorem vmul (w : VForm) : Statement (.vmul w) := of_v (op := 3) rfl (of_decide_eq_true rfl) rfl
theorem vfma (w : VForm) : Statement (.vfma w) := of_v (op := 4) rfl (of_decide_eq_true rfl) rfl
theorem vfms (w : VForm) : Statement (.vfms w) := of_v (op := 5) rfl (of_decide_eq_true rfl) rfl
theorem vfnma (w : VForm) : Statement (.vfnma w) := of_v (op := 6) rfl (of_decide_eq_true rfl) rfl
theorem vmin (w : VForm) : Statement (.vmin w) := of_v (op := 7) rfl (of_decide_eq_true rfl) rfl
theorem vmax (w : VForm) : Statement (.vmax w) := of_v (op := 8) rfl (of_decide_eq_true rfl) rfl
theorem vabs (w : VForm) : Statement (.vabs w) := of_v (op := 9) rfl (of_decide_eq_true rfl) rfl
theorem vneg (w : VForm) : Statement (.vneg w) := of_v (op := 10) rfl (of_decide_eq_true rfl) rfl
theorem vabd (w : VForm) : Statement (.vabd w) := of_v (op := 11) rfl (of_decide_eq_true rfl) rfl
theorem vadds (w : VForm) : Statement (.vadds w) := of_v (op := 12) rfl (of_decide_eq_true rfl) rfl
theorem vsubs (w : VForm) : Statement (.vsubs w) := of_v (op := 13) rfl (of_decide_eq_true rfl) rfl
theorem vmulh (w : VForm) : Statement (.vmulh w) := of_v (op := 14) rfl (of_decide_eq_true rfl) rfl
theorem vand (w : VForm) : Statement (.vand w) := of_v (op := 16) rfl (of_decide_eq_true rfl) rfl
theorem vor (w : VForm) : Statement (.vor w) := of_v (op := 17) rfl (of_decide_eq_true rfl) rfl
theorem vxor (w : VForm) : Statement (.vxor w) := of_v (op := 18) rfl (of_decide_eq_true rfl) rfl
theorem vnot (w : VForm) : Statement (.vnot w) := of_v (op := 19) rfl (of_decide_eq_true rfl) rfl
theorem vshl (w : VForm) : Statement (.vshl w) := of_v (op := 20) rfl (of_decide_eq_true rfl) rfl
theorem vshra (w : VForm) : Statement (.vshra w) := of_v (op := 21) rfl (of_decide_eq_true rfl) rfl
theorem vshrl (w : VForm) : Statement (.vshrl w) := of_v (op := 22) rfl (of_decide_eq_true rfl) rfl
theorem vclz (w : VForm) : Statement (.vclz w) := of_v (op := 23) rfl (of_decide_eq_true rfl) rfl
theorem vpopc (w : VForm) : Statement (.vpopc w) := of_v (op := 24) rfl (of_decide_eq_true rfl) rfl
theorem vmov (w : VForm) : Statement (.vmov w) := of_v (op := 25) rfl (of_decide_eq_true rfl) rfl
theorem vsel (w : VForm) : Statement (.vsel w) := of_v (op := 26) rfl (of_decide_eq_true rfl) rfl
theorem vidx (w : VForm) : Statement (.vidx w) := of_v (op := 27) rfl (of_decide_eq_true rfl) rfl
theorem vcmpeq (w : VForm) : Statement (.vcmpeq w) := of_v (op := 32) rfl (of_decide_eq_true rfl) rfl
theorem vcmpne (w : VForm) : Statement (.vcmpne w) := of_v (op := 33) rfl (of_decide_eq_true rfl) rfl
theorem vcmplt (w : VForm) : Statement (.vcmplt w) := of_v (op := 34) rfl (of_decide_eq_true rfl) rfl
theorem vcmple (w : VForm) : Statement (.vcmple w) := of_v (op := 35) rfl (of_decide_eq_true rfl) rfl
theorem vpand (w : VForm) : Statement (.vpand w) := of_v (op := 36) rfl (of_decide_eq_true rfl) rfl
theorem vpor (w : VForm) : Statement (.vpor w) := of_v (op := 37) rfl (of_decide_eq_true rfl) rfl
theorem vpnot (w : VForm) : Statement (.vpnot w) := of_v (op := 38) rfl (of_decide_eq_true rfl) rfl
theorem vradd (w : VForm) : Statement (.vradd w) := of_v (op := 48) rfl (of_decide_eq_true rfl) rfl
theorem vrmax (w : VForm) : Statement (.vrmax w) := of_v (op := 49) rfl (of_decide_eq_true rfl) rfl
theorem vrmin (w : VForm) : Statement (.vrmin w) := of_v (op := 50) rfl (of_decide_eq_true rfl) rfl
theorem xcp (w : VForm) : Statement (.xcp w) := of_v (op := 51) rfl (of_decide_eq_true rfl) rfl
theorem xbc (w : VForm) : Statement (.xbc w) := of_v (op := 52) rfl (of_decide_eq_true rfl) rfl
theorem vdot2 (w : VForm) : Statement (.vdot2 w) := of_v (op := 53) rfl (of_decide_eq_true rfl) rfl
theorem vdot4 (w : VForm) : Statement (.vdot4 w) := of_v (op := 54) rfl (of_decide_eq_true rfl) rfl
theorem sfexp2 (w : SForm) : Statement (.sfexp2 w) := of_s (op := 1) rfl (of_decide_eq_true rfl) rfl
theorem sflog2 (w : SForm) : Statement (.sflog2 w) := of_s (op := 2) rfl (of_decide_eq_true rfl) rfl
theorem sfrcp (w : SForm) : Statement (.sfrcp w) := of_s (op := 3) rfl (of_decide_eq_true rfl) rfl
theorem sfrsq (w : SForm) : Statement (.sfrsq w) := of_s (op := 4) rfl (of_decide_eq_true rfl) rfl
theorem sfsqrt (w : SForm) : Statement (.sfsqrt w) := of_s (op := 5) rfl (of_decide_eq_true rfl) rfl
theorem sfsin (w : SForm) : Statement (.sfsin w) := of_s (op := 6) rfl (of_decide_eq_true rfl) rfl
theorem sfcos (w : SForm) : Statement (.sfcos w) := of_s (op := 7) rfl (of_decide_eq_true rfl) rfl
theorem sftanh (w : SForm) : Statement (.sftanh w) := of_s (op := 8) rfl (of_decide_eq_true rfl) rfl
theorem sfsigm (w : SForm) : Statement (.sfsigm w) := of_s (op := 9) rfl (of_decide_eq_true rfl) rfl
theorem sferf (w : SForm) : Statement (.sferf w) := of_s (op := 10) rfl (of_decide_eq_true rfl) rfl
theorem ppack (w : PForm) : Statement (.ppack w) := of_p (op := 1) rfl (of_decide_eq_true rfl) rfl
theorem punpk (w : PForm) : Statement (.punpk w) := of_p (op := 2) rfl (of_decide_eq_true rfl) rfl
theorem pcvt (w : PForm) : Statement (.pcvt w) := of_p (op := 3) rfl (of_decide_eq_true rfl) rfl
theorem pscl (w : PForm) : Statement (.pscl w) := of_p (op := 4) rfl (of_decide_eq_true rfl) rfl
theorem pdscl (w : PForm) : Statement (.pdscl w) := of_p (op := 5) rfl (of_decide_eq_true rfl) rfl
theorem pres (w : PForm) : Statement (.pres w) := of_p (op := 6) rfl (of_decide_eq_true rfl) rfl
theorem pcrt (w : PForm) : Statement (.pcrt w) := of_p (op := 7) rfl (of_decide_eq_true rfl) rfl
theorem pshuf (w : PForm) : Statement (.pshuf w) := of_p (op := 8) rfl (of_decide_eq_true rfl) rfl
theorem ptrn (w : PForm) : Statement (.ptrn w) := of_p (op := 9) rfl (of_decide_eq_true rfl) rfl
theorem pswz (w : PForm) : Statement (.pswz w) := of_p (op := 10) rfl (of_decide_eq_true rfl) rfl
theorem plut (w : PForm) : Statement (.plut w) := of_p (op := 11) rfl (of_decide_eq_true rfl) rfl
theorem ld (w : MForm) : Statement (.ld w) := of_m (op := 1) rfl (of_decide_eq_true rfl) rfl
theorem st (w : MForm) : Statement (.st w) := of_m (op := 2) rfl (of_decide_eq_true rfl) rfl
theorem ldl (w : MForm) : Statement (.ldl w) := of_m (op := 3) rfl (of_decide_eq_true rfl) rfl
theorem stl (w : MForm) : Statement (.stl w) := of_m (op := 4) rfl (of_decide_eq_true rfl) rfl
theorem ldv (w : MForm) : Statement (.ldv w) := of_m (op := 5) rfl (of_decide_eq_true rfl) rfl
theorem stv (w : MForm) : Statement (.stv w) := of_m (op := 6) rfl (of_decide_eq_true rfl) rfl
theorem ldg (w : MForm) : Statement (.ldg w) := of_m (op := 7) rfl (of_decide_eq_true rfl) rfl
theorem sts (w : MForm) : Statement (.sts w) := of_m (op := 8) rfl (of_decide_eq_true rfl) rfl
theorem pref (w : MForm) : Statement (.pref w) := of_m (op := 16) rfl (of_decide_eq_true rfl) rfl
theorem flush (w : MForm) : Statement (.flush w) := of_m (op := 17) rfl (of_decide_eq_true rfl) rfl
theorem flushInv (w : MForm) : Statement (.flushInv w) := of_m (op := 17) rfl (of_decide_eq_true rfl) rfl
theorem flushAll (w : MForm) : Statement (.flushAll w) := of_m (op := 17) rfl (of_decide_eq_true rfl) rfl
theorem fence (w : MForm) : Statement (.fence w) := of_m (op := 18) rfl (of_decide_eq_true rfl) rfl
theorem lock (w : MForm) : Statement (.lock w) := of_m (op := 19) rfl (of_decide_eq_true rfl) rfl
theorem unlock (w : MForm) : Statement (.unlock w) := of_m (op := 20) rfl (of_decide_eq_true rfl) rfl
theorem aadd (w : MForm) : Statement (.aadd w) := of_m (op := 32) rfl (of_decide_eq_true rfl) rfl
theorem amin (w : MForm) : Statement (.amin w) := of_m (op := 33) rfl (of_decide_eq_true rfl) rfl
theorem amax (w : MForm) : Statement (.amax w) := of_m (op := 34) rfl (of_decide_eq_true rfl) rfl
theorem aand (w : MForm) : Statement (.aand w) := of_m (op := 35) rfl (of_decide_eq_true rfl) rfl
theorem aor (w : MForm) : Statement (.aor w) := of_m (op := 36) rfl (of_decide_eq_true rfl) rfl
theorem axor (w : MForm) : Statement (.axor w) := of_m (op := 37) rfl (of_decide_eq_true rfl) rfl
theorem aswp (w : MForm) : Statement (.aswp w) := of_m (op := 38) rfl (of_decide_eq_true rfl) rfl
theorem acas (w : MForm) : Statement (.acas w) := of_m (op := 39) rfl (of_decide_eq_true rfl) rfl
theorem afadd (w : MForm) : Statement (.afadd w) := of_m (op := 40) rfl (of_decide_eq_true rfl) rfl
theorem redadd (w : MForm) : Statement (.redadd w) := of_m (op := 48) rfl (of_decide_eq_true rfl) rfl
theorem redmin (w : MForm) : Statement (.redmin w) := of_m (op := 49) rfl (of_decide_eq_true rfl) rfl
theorem redmax (w : MForm) : Statement (.redmax w) := of_m (op := 50) rfl (of_decide_eq_true rfl) rfl
theorem redfadd (w : MForm) : Statement (.redfadd w) := of_m (op := 51) rfl (of_decide_eq_true rfl) rfl
theorem lend (w : MForm) : Statement (.lend w) := of_m (op := 64) rfl (of_decide_eq_true rfl) rfl
theorem lendPass (w : MForm) : Statement (.lendPass w) := of_m (op := 64) rfl (of_decide_eq_true rfl) rfl
theorem retn (w : MForm) : Statement (.retn w) := of_m (op := 65) rfl (of_decide_eq_true rfl) rfl
theorem split (w : MForm) : Statement (.split w) := of_m (op := 66) rfl (of_decide_eq_true rfl) rfl
theorem join (w : MForm) : Statement (.join w) := of_m (op := 67) rfl (of_decide_eq_true rfl) rfl
theorem share (w : MForm) : Statement (.share w) := of_m (op := 68) rfl (of_decide_eq_true rfl) rfl
theorem unshr (w : MForm) : Statement (.unshr w) := of_m (op := 69) rfl (of_decide_eq_true rfl) rfl
theorem tkmodePlain (w : MForm) : Statement (.tkmodePlain w) := of_m (op := 70) rfl (of_decide_eq_true rfl) rfl
theorem tkmodeAtomic (w : MForm) : Statement (.tkmodeAtomic w) := of_m (op := 70) rfl (of_decide_eq_true rfl) rfl
theorem tkqry (w : MForm) : Statement (.tkqry w) := of_m (op := 71) rfl (of_decide_eq_true rfl) rfl
theorem tkqryChain (w : MForm) : Statement (.tkqryChain w) := of_m (op := 71) rfl (of_decide_eq_true rfl) rfl
theorem tkqrySelf (w : MForm) : Statement (.tkqrySelf w) := of_m (op := 71) rfl (of_decide_eq_true rfl) rfl
theorem reclaimClean (w : MForm) : Statement (.reclaimClean w) := of_m (op := 72) rfl (of_decide_eq_true rfl) rfl
theorem reclaimReinit (w : MForm) : Statement (.reclaimReinit w) := of_m (op := 72) rfl (of_decide_eq_true rfl) rfl
theorem reclaimCreate (w : MForm) : Statement (.reclaimCreate w) := of_m (op := 72) rfl (of_decide_eq_true rfl) rfl
theorem reclaimDestroy (w : MForm) : Statement (.reclaimDestroy w) := of_m (op := 72) rfl (of_decide_eq_true rfl) rfl
theorem reclaimSeize (w : MForm) : Statement (.reclaimSeize w) := of_m (op := 72) rfl (of_decide_eq_true rfl) rfl
theorem cpy (w : MForm) : Statement (.cpy w) := of_m (op := 80) rfl (of_decide_eq_true rfl) rfl
theorem cpym (w : MForm) : Statement (.cpym w) := of_m (op := 81) rfl (of_decide_eq_true rfl) rfl
theorem cpyn (w : MForm) : Statement (.cpyn w) := of_m (op := 82) rfl (of_decide_eq_true rfl) rfl
theorem cpyq (w : MForm) : Statement (.cpyq w) := of_m (op := 83) rfl (of_decide_eq_true rfl) rfl
theorem cpyf (w : MForm) : Statement (.cpyf w) := of_m (op := 84) rfl (of_decide_eq_true rfl) rfl
theorem sxbm (w : MForm) : Statement (.sxbm w) := of_m (op := 96) rfl (of_decide_eq_true rfl) rfl
theorem sxrl (w : MForm) : Statement (.sxrl w) := of_m (op := 97) rfl (of_decide_eq_true rfl) rfl
theorem sxstop (w : MForm) : Statement (.sxstop w) := of_m (op := 98) rfl (of_decide_eq_true rfl) rfl
theorem sxstopAll (w : MForm) : Statement (.sxstopAll w) := of_m (op := 98) rfl (of_decide_eq_true rfl) rfl
theorem mnop (w : XForm) : Statement (.mnop w) := of_x (op := 0) rfl (of_decide_eq_true rfl) rfl
theorem mpa (w : XForm) : Statement (.mpa w) := of_x (op := 1) rfl (of_decide_eq_true rfl) rfl
theorem mpsh (w : XForm) : Statement (.mpsh w) := of_x (op := 2) rfl (of_decide_eq_true rfl) rfl
theorem macc (w : XForm) : Statement (.macc w) := of_x (op := 3) rfl (of_decide_eq_true rfl) rfl
theorem mshf (w : XForm) : Statement (.mshf w) := of_x (op := 4) rfl (of_decide_eq_true rfl) rfl
theorem mdrn (w : XForm) : Statement (.mdrn w) := of_x (op := 5) rfl (of_decide_eq_true rfl) rfl
theorem mclr (w : XForm) : Statement (.mclr w) := of_x (op := 6) rfl (of_decide_eq_true rfl) rfl
theorem mlda (w : XForm) : Statement (.mlda w) := of_x (op := 7) rfl (of_decide_eq_true rfl) rfl
theorem interlockHold (c : Nat) : Statement (.interlockHold c) := of_event rfl rfl
theorem freezeThaw (c : Nat) : Statement (.freezeThaw c) := of_event rfl rfl
theorem segmentExpansion (c : Nat) (k : Nat) (seg : Nat) : Statement (.segmentExpansion c k seg) := of_event rfl rfl
theorem exposedWriteLanding (c : Nat) : Statement (.exposedWriteLanding c) := of_event rfl rfl
theorem loadDataArrival (n : Nat) : Statement (.loadDataArrival n) := of_event rfl rfl
theorem registerLanding (c : Nat) (k : Nat) : Statement (.registerLanding c k) := of_event rfl rfl
theorem slotLanding (n : Nat) : Statement (.slotLanding n) := of_event rfl rfl
theorem waitConditionMet (c : Nat) (k : Nat) : Statement (.waitConditionMet c k) := of_event rfl rfl
theorem starvationGuard (c : Nat) (k : Nat) : Statement (.starvationGuard c k) := of_event rfl rfl
theorem preemptionRequest (c : Nat) (k : Nat) : Statement (.preemptionRequest c k) := of_event rfl rfl
theorem preemptionLimitExpiry (c : Nat) (k : Nat) : Statement (.preemptionLimitExpiry c k) := of_event rfl rfl
theorem serviceEntry (c : Nat) : Statement (.serviceEntry c) := of_event rfl rfl
theorem escalationDrainComplete (c : Nat) (k : Nat) : Statement (.escalationDrainComplete c k) := of_event rfl rfl
theorem phaseSnapshot (c : Nat) (k : Nat) : Statement (.phaseSnapshot c k) := of_event rfl rfl
theorem phaseRollback (c : Nat) (k : Nat) : Statement (.phaseRollback c k) := of_event rfl rfl
theorem spliceRequest (n : Nat) : Statement (.spliceRequest n) := of_event rfl rfl
theorem spliceAnswer (n : Nat) : Statement (.spliceAnswer n) := of_event rfl rfl
theorem remoteAppend (n : Nat) : Statement (.remoteAppend n) := of_event rfl rfl
theorem headMessageSend (c : Nat) (k : Nat) (q : Nat) : Statement (.headMessageSend c k q) := of_event rfl rfl
theorem headMessage (n : Nat) (ok : Bool) : Statement (.headMessage n ok) := of_event rfl rfl
theorem unspliceMarker (n : Nat) : Statement (.unspliceMarker n) := of_event rfl rfl
theorem headRequest (n : Nat) : Statement (.headRequest n) := of_event rfl rfl
theorem headRequestAnswer (n : Nat) : Statement (.headRequestAnswer n) := of_event rfl rfl
theorem copyStart (die : Nat) : Statement (.copyStart die) := of_event rfl rfl
theorem copyPiece (n : Nat) (j : Nat) : Statement (.copyPiece n j) := of_event rfl rfl
theorem cpymDelivery (n : Nat) (k : Nat) : Statement (.cpymDelivery n k) := of_event rfl rfl
theorem notify (n : Nat) : Statement (.notify n) := of_event rfl rfl
theorem copyCompletion (n : Nat) : Statement (.copyCompletion n) := of_event rfl rfl
theorem sparseStart (c : Nat) : Statement (.sparseStart c) := of_event rfl rfl
theorem metadataArrival (c : Nat) : Statement (.metadataArrival c) := of_event rfl rfl
theorem sparseEmit (c : Nat) : Statement (.sparseEmit c) := of_event rfl rfl
theorem sparseFinish (c : Nat) : Statement (.sparseFinish c) := of_event rfl rfl
theorem latchReady (n : Nat) : Statement (.latchReady n) := of_event rfl rfl
theorem matrixAccumulationLanding (c : Nat) : Statement (.matrixAccumulationLanding c) := of_event rfl rfl
theorem drainSlotPresent (c : Nat) : Statement (.drainSlotPresent c) := of_event rfl rfl
theorem barrierArrival (n : Nat) : Statement (.barrierArrival n) := of_event rfl rfl
theorem barrierRelease (n : Nat) : Statement (.barrierRelease n) := of_event rfl rfl
theorem gangStart (n : Nat) : Statement (.gangStart n) := of_event rfl rfl
theorem gissHoldEnd (n : Nat) : Statement (.gissHoldEnd n) := of_event rfl rfl
theorem gangCompletion (n : Nat) : Statement (.gangCompletion n) := of_event rfl rfl
theorem homeAccess (n : Nat) : Statement (.homeAccess n) := of_event rfl rfl
theorem homeAtomic (n : Nat) : Statement (.homeAtomic n) := of_event rfl rfl
theorem tableWalkRead (c : Nat) (j : Nat) : Statement (.tableWalkRead c j) := of_event rfl rfl
theorem dirtyReport (n : Nat) : Statement (.dirtyReport n) := of_event rfl rfl
theorem tokenSliceRequest (n : Nat) : Statement (.tokenSliceRequest n) := of_event rfl rfl
theorem ownershipInvalidation (n : Nat) : Statement (.ownershipInvalidation n) := of_event rfl rfl
theorem partyDeath (p : Word) : Statement (.partyDeath p) := of_event rfl rfl
theorem orphanScan (die : Nat) (p : Word) : Statement (.orphanScan die p) := of_event rfl rfl
theorem completionReread (c : Nat) (k : Nat) : Statement (.completionReread c k) := of_event rfl rfl
theorem l1Eviction (c : Nat) (line : Nat) : Statement (.l1Eviction c line) := of_event rfl rfl
theorem flushMarker (n : Nat) : Statement (.flushMarker n) := of_event rfl rfl
theorem flushAcknowledgement (n : Nat) : Statement (.flushAcknowledgement n) := of_event rfl rfl
theorem lqPush (h : Nat) (die : Nat) (q : Nat) (addr : Nat) : Statement (.lqPush h die q addr) := of_event rfl rfl
theorem lqControlWrite (h : Nat) (die : Nat) (q : Nat) (v : Word) : Statement (.lqControlWrite h die q v) := of_event rfl rfl
theorem launchAcceptance (die : Nat) (q : Nat) : Statement (.launchAcceptance die q) := of_event rfl rfl
theorem packageTick : Statement (.packageTick) := of_event rfl rfl
theorem dispatch (l : Nat) (e : Nat) : Statement (.dispatch l e) := of_event rfl rfl
theorem doneFinish (c : Nat) (k : Nat) : Statement (.doneFinish c k) := of_event rfl rfl
theorem launchEnd (l : Nat) : Statement (.launchEnd l) := of_event rfl rfl
theorem coalWindowExpiry (t : Nat) : Statement (.coalWindowExpiry t) := of_event rfl rfl
theorem contextSave (c : Nat) (k : Nat) : Statement (.contextSave c k) := of_event rfl rfl
theorem contextRestore (n : Nat) (c : Nat) (k : Nat) : Statement (.contextRestore n c k) := of_event rfl rfl
theorem sampleInterval (c : Nat) (r : Sample) : Statement (.sampleInterval c r) := of_event rfl rfl
theorem clockSwitch (c : Nat) : Statement (.clockSwitch c) := of_event rfl rfl
theorem clockSwitchEnd (c : Nat) : Statement (.clockSwitchEnd c) := of_event rfl rfl
theorem scratchpadSweep (c : Nat) : Statement (.scratchpadSweep c) := of_event rfl rfl
theorem sageCommit : Statement (.sageCommit) := of_event rfl rfl
theorem bankAccess (n : Nat) : Statement (.bankAccess n) := of_event rfl rfl
theorem alertBlockEnd (n : Nat) : Statement (.alertBlockEnd n) := of_event rfl rfl
theorem refresh (n : Nat) : Statement (.refresh n) := of_event rfl rfl
theorem patrolScrub (stack : Nat) : Statement (.patrolScrub stack) := of_event rfl rfl
theorem l2Sweep (die : Nat) (slice : Nat) : Statement (.l2Sweep die slice) := of_event rfl rfl
theorem channelClr (h : Nat) (stack : Nat) : Statement (.channelClr h stack) := of_event rfl rfl
theorem force (h : Nat) (die : Nat) : Statement (.force h die) := of_event rfl rfl
theorem flitArrival (link : Nat) (lane : Nat) (outw : Bool) (ok : Bool) : Statement (.flitArrival link lane outw ok) := of_event rfl rfl
theorem linkFailure (link : Nat) : Statement (.linkFailure link) := of_event rfl rfl
theorem transportTimeout (n : Nat) : Statement (.transportTimeout n) := of_event rfl rfl
theorem packetReceive (port : Nat) (p : Packet) : Statement (.packetReceive port p) := of_event rfl rfl
theorem requestAdmission (n : Nat) : Statement (.requestAdmission n) := of_event rfl rfl
theorem shareRefill (c : Nat) : Statement (.shareRefill c) := of_event rfl rfl
theorem hostAccess (h : Nat) (a : Nat) (d : List Byte) (wr : Bool) : Statement (.hostAccess h a d wr) := of_event rfl rfl
theorem hostLend (h : Nat) : Statement (.hostLend h) := of_event rfl rfl
theorem hostLendPass (h : Nat) : Statement (.hostLendPass h) := of_event rfl rfl
theorem hostRetn (h : Nat) : Statement (.hostRetn h) := of_event rfl rfl
theorem hostSplit (h : Nat) : Statement (.hostSplit h) := of_event rfl rfl
theorem hostJoin (h : Nat) : Statement (.hostJoin h) := of_event rfl rfl
theorem hostShare (h : Nat) : Statement (.hostShare h) := of_event rfl rfl
theorem hostUnshr (h : Nat) : Statement (.hostUnshr h) := of_event rfl rfl
theorem hostTkmodePlain (h : Nat) : Statement (.hostTkmodePlain h) := of_event rfl rfl
theorem hostTkmodeAtomic (h : Nat) : Statement (.hostTkmodeAtomic h) := of_event rfl rfl
theorem hostTkqry (h : Nat) : Statement (.hostTkqry h) := of_event rfl rfl
theorem hostReclaimClean (h : Nat) : Statement (.hostReclaimClean h) := of_event rfl rfl
theorem hostReinit (h : Nat) : Statement (.hostReinit h) := of_event rfl rfl
theorem hostCreate (h : Nat) : Statement (.hostCreate h) := of_event rfl rfl
theorem hostDestroy (h : Nat) : Statement (.hostDestroy h) := of_event rfl rfl
theorem hostSeize (h : Nat) : Statement (.hostSeize h) := of_event rfl rfl
theorem xinvAsn (h : Nat) : Statement (.xinvAsn h) := of_event rfl rfl
theorem xinvRange (h : Nat) : Statement (.xinvRange h) := of_event rfl rfl
theorem hostBadCommand (h : Nat) (op : Nat) : Statement (.hostBadCommand h op) := of_event rfl rfl
theorem ago (h : Nat) : Statement (.ago h) := of_event rfl rfl
theorem registerWrite (h : Nat) (a : Nat) (v : Word) : Statement (.registerWrite h a v) := of_event rfl rfl
theorem journalWrite : Statement (.journalWrite) := of_event rfl rfl
theorem throttleStep (pnow : Nat) (tj : Nat) : Statement (.throttleStep pnow tj) := of_event rfl rfl
theorem overtemperature : Statement (.overtemperature) := of_event rfl rfl
theorem packageReset (ims : List Image) : Statement (.packageReset ims) := of_event rfl rfl
theorem liveUpdate (im : Image) : Statement (.liveUpdate im) := of_event rfl rfl
theorem mgmtPower (on : Bool) : Statement (.mgmtPower on) := of_event rfl rfl
theorem mgmtReset : Statement (.mgmtReset) := of_event rfl rfl
theorem mgmtFirmwareUpdate (im : Image) : Statement (.mgmtFirmwareUpdate im) := of_event rfl rfl
theorem mgmtRead (n : Nat) : Statement (.mgmtRead n) := of_event rfl rfl
theorem mgmtAttestation (nonce : Nat) : Statement (.mgmtAttestation nonce) := of_event rfl rfl
theorem mgmtForceDecTed (die : Nat) : Statement (.mgmtForceDecTed die) := of_event rfl rfl
theorem mgmtRetireCore (c : Nat) : Statement (.mgmtRetireCore c) := of_event rfl rfl
theorem mgmtRaiseMinSvn (svn : Nat) (signed : Bool) : Statement (.mgmtRaiseMinSvn svn signed) := of_event rfl rfl
theorem mgmtClearCore (c : Nat) : Statement (.mgmtClearCore c) := of_event rfl rfl
theorem podRemove (n : Nat) : Statement (.podRemove n) := of_event rfl rfl
theorem podAdmit (n : Nat) (ok : Bool) : Statement (.podAdmit n ok) := of_event rfl rfl
theorem emptyBundle : Statement (.emptyBundle) := of_event rfl rfl
theorem unassignedOpcode : Statement (.unassignedOpcode) := of_event rfl rfl
theorem taskKill (c : Nat) (k : Nat) : Statement (.taskKill c k) := of_event rfl rfl
theorem coreUnresponsive (c : Nat) : Statement (.coreUnresponsive c) := of_event rfl rfl
theorem powerLoss : Statement (.powerLoss) := of_event rfl rfl
theorem portLinkDown (n : Nat) : Statement (.portLinkDown n) := of_event rfl rfl
theorem portLinkUp (n : Nat) : Statement (.portLinkUp n) := of_event rfl rfl
theorem softError (e : SoftError) : Statement (.softError e) := of_event rfl rfl
theorem writeAcknowledgement (n : Nat) : Statement (.writeAcknowledgement n) := of_event rfl rfl
theorem hselWrite (h : Nat) (v : Word) : Statement (.hselWrite h v) := of_event rfl rfl

end Sys2Proof.Laws.Shape
end

