-- ==== Sys2Proof/Laws/Sequencer.lean ====
section
/-!
SUPPORT. The issue of a bundle with one slot word, and the first part of a wall cycle.
-/
namespace Sys2Proof.Machine
set_option Elab.async false

/-- The state in which the only slot of a bundle issues (R49, R52). -/
def State.oneSlot (run : Instr → State → Out) (sl : Nat) (a : State) : State :=
  let b := a.modBun (fun b => { b with lit := none })
  (b.modBun (fun x => { x with pops := x.fixed.getD (b.popsOf run) })).modBun (fun x => { x with slot := sl })

theorem State.ctxAt_modBun (a : State) (f : Bun → Bun) (c k : Nat) : (a.modBun f).ctxAt c k = a.ctxAt c k := by
  simp only [State.ctxAt, State.modBun, State.modMyCore]
  by_cases h : c = a.cur
  · rw [h, State.coreAt_modCore]; rfl
  · rw [State.coreAt_modCore_ne _ _ _ _ h]

theorem State.leaderP_modBun (a : State) (f : Bun → Bun) : (a.modBun f).leaderP = a.leaderP := by
  have h1 : (a.modBun f).inService = a.inService := by simp [State.inService]
  have h2 : (a.modBun f).inBroadcast = a.inBroadcast := by
    simp only [State.inBroadcast, State.memberState, State.gangOf, State.me_modBun, h1, State.modBun_gangs]
  unfold State.leaderP
  rw [h2]
  simp only [State.gangOf, State.me_modBun, State.modBun_gangs, State.ctxAt_modBun]

/-- The one slot word of a bundle that nothing stops before its slots is run by `run` (R49). -/
theorem State.attempt_one {run : Instr → State → Out} {a t : State} {sl w : Nat} {i : Instr} (hp : a.me.phase.next = none)
    (hr : a.bun.recheck = false) (ha : (a.me.pend.any fun p => p.again) = false)
    (hd : a.due = .bundle) (hb : a.bundleTrap = none) (hl : a.bun.bundle.literal = none) (hw : a.bun.bundle.words = [(sl, w)])
    (hn : a.bun.done = 0) (hdec : decodeWord sl w = .ok i) (hL : a.leaderP = none) (hs : a.inService = false)
    (hx : run i (a.oneSlot run sl) = .next t) (hc : a.bun.issued = true ∨ t.cfgClash = false) : a.attempt run = .next t := by
  have hlit : a.modBun (fun b => { b with lit := b.bundle.literal }) = a.modBun (fun b => { b with lit := none }) := by
    simp only [State.modBun, State.modMyCore, State.modCore]
    have : a.core.bun.bundle.literal = none := hl
    congr 1
    have e : a.coreAt a.cur = a.core := rfl
    rw [e, this]
  unfold State.attempt
  rw [hp, hr, ha, hd, hb]
  simp only [Option.isSome_none, Bool.or_self, Bool.false_eq_true, if_false]
  rw [hlit]
  generalize hb2 : a.modBun (fun b => { b with lit := none }) = b
  have hbun : b.bun = { a.bun with lit := none } := by rw [← hb2]; simp
  have hw2 : (b.modBun fun x => { x with pops := x.fixed.getD (b.popsOf run) }).bun.bundle.words = [(sl, w)] := by simp [hbun, hw]
  have hn2 : (b.modBun fun x => { x with pops := x.fixed.getD (b.popsOf run) }).bun.done = 0 := by simp [hbun, hn]
  have hi2 : (b.modBun fun x => { x with pops := x.fixed.getD (b.popsOf run) }).bun.issued = a.bun.issued := by simp [hbun]
  have hL2 : ((b.modBun fun x => { x with pops := x.fixed.getD (b.popsOf run) }).modBun fun x => { x with slot := sl }).leaderP = none := by
    rw [State.leaderP_modBun, State.leaderP_modBun, ← hb2, State.leaderP_modBun, hL]
  have hs2 : (b.modBun fun x => { x with pops := x.fixed.getD (b.popsOf run) }).inService = false := by
    rw [← hb2]; simpa [State.inService] using hs
  have hx2 : run i ((b.modBun fun x => { x with pops := x.fixed.getD (b.popsOf run) }).modBun fun x => { x with slot := sl }) = .next t := by
    rw [← hx, State.oneSlot, hb2]
  rw [hw2, hn2, hi2]
  simp only [State.runWords, Nat.zero_testBit, hs2, Bool.false_and, Bool.or_false, Bool.false_eq_true, if_false, State.runOne, hdec, hL2, hx2]
  rcases hc with h | h
  · simp [h]
  · simp [h]

end Sys2Proof.Machine
end

