-- ==== Sys2Proof/Tests/Slice0.lean ====
section
/-!
SUPPORT. The model's own tests: ill-formed words that the check refuses, words of the spec that decode, the worked examples of the spec, and
for each statement a state and operands that meet its hypotheses.
-/
namespace Sys2Proof.Tests
open Sys2Proof.Machine Sys2Proof.Claims
set_option Elab.async false

/-! ## Ill-formed words -/

def r0 : RForm := { g := 0, d := 1, a := 2, i := 0, b := 3 }
def ri : RForm := { g := 0, d := 1, a := 2, i := 1, b := 5 }
def v0 : VForm := { g := 0, ty := 0, gm := 255, dst := 1, a := 0x102, b := 0x103, c := 0x104, lm := 0 }
def p0 : PForm := { g := 0, tf := 0, tt := 1, gm := 255, dst := 0x83, a := 0x111, b := 0x121, imm := 0 }
def m0 : MForm := { g := 0, sz := 2, sc := 1, data := 4, base := 2, idx := 0, at16 := 0, disp := 0 }
def x0 : XForm := { g := 0, cell := 0, bank := 0, a := 0, b := 0, q := 0, fmt := 0, flags := 0, slice := 0 }
def j0 : JForm := { g := 0, x := 0, e := 1, c := 4 }

/-- Form R: B's high bits, unused fields, predicate fields, queue numbers and immediates in range (R36, R97, R190, R193, R212). -/
theorem test_wf_scalar : Instr.wf (.add { r0 with b := 32 }) = false ∧ Instr.wf (.add r0) = true ∧ Instr.wf (.clz r0) = false ∧
    Instr.wf (.lit { g := 1, lit := 0 }) = false ∧ Instr.wf (.cmpeq { r0 with d := 8 }) = false ∧
    Instr.wf (.pand { r0 with a := 8 }) = false ∧ Instr.wf (.pand { r0 with b := 8 }) = false ∧ Instr.wf (.pnot { r0 with b := 1 }) = false ∧
    Instr.wf (.fadd ri) = false ∧ Instr.wf (.fadd { r0 with b := 32 }) = false ∧ Instr.wf (.fcmplt { r0 with d := 8 }) = false ∧
    Instr.wf (.fcvti r0) = false ∧ Instr.wf (.fcvti { ri with b := 16 }) = false ∧ Instr.wf (.icvtf { ri with b := 5 }) = false := by decide

theorem test_wf_control : Instr.wf (.ret r0) = false ∧ Instr.wf (.ret { r0 with d := 0, b := 1 }) = false ∧
    Instr.wf (.loop { j0 with x := 6 }) = false ∧ Instr.wf (.loop { j0 with c := 32 }) = false ∧ Instr.wf (.loopx { j0 with c := 30 }) = false ∧
    Instr.wf (.mloop { j0 with c := 31 }) = false ∧ Instr.wf (.mloop { j0 with c := 288 }) = false ∧ Instr.wf (.lbrk { r0 with d := 0 }) = false ∧
    Instr.wf (.getx { r0 with a := 6, b := 0 }) = false ∧ Instr.wf (.phase r0) = false ∧ Instr.wf (.qwait { ri with a := 0, d := 16 }) = false ∧
    Instr.wf (.qwait ri) = false ∧ Instr.wf (.qwait { ri with a := 0, b := 256 }) = false ∧ Instr.wf (.qfree { ri with a := 0, b := 0 }) = false ∧
    Instr.wf (.gjoin { r0 with b := 0 }) = false ∧ Instr.wf (.trap { r0 with d := 0 }) = false ∧
    Instr.wf (.eretResume { ri with d := 0, a := 0, b := 1 }) = false ∧ Instr.wf (.eretSkip { ri with d := 0, a := 0, b := 0 }) = false ∧
    Instr.wf (.eretEsc { ri with d := 0, a := 0, b := 1 }) = false ∧ Instr.wf (.sysrd { ri with a := 0, b := 6 }) = false ∧
    Instr.wf (.syswr { ri with d := 0, b := 0x40 + 33 }) = false ∧ Instr.wf (.qcfg { r0 with d := 16, b := 0 }) = false ∧
    Instr.wf (.qpop { r0 with a := 0, b := 32 }) = false ∧ Instr.wf (.qpop { ri with a := 0, b := 257 }) = false ∧
    Instr.wf (.qunsp r0) = false ∧ Instr.wf (.qstat { r0 with a := 16, b := 0 }) = false ∧ Instr.wf (.dset { r0 with a := 29, b := 0 }) = false ∧
    Instr.wf (.dget { r0 with d := 29, b := 0 }) = false ∧ Instr.wf (.qzap { r0 with a := 1, b := 0 }) = false ∧
    Instr.wf (.giss { r0 with d := 0 }) = false ∧ Instr.wf (.barw r0) = false ∧ Instr.wf (.bar r0) = false := by decide

/-- Vector, special-function and permute words: specifiers, types, destinations and unused sources (R39 to R41, R230, R233, R235, R244). -/
theorem test_wf_vector : Instr.wf (.vfma v0) = true ∧ Instr.wf (.vfma { v0 with ty := 5 }) = false ∧ Instr.wf (.vadd v0) = false ∧
    Instr.wf (.vfma { v0 with dst := 32 }) = false ∧ Instr.wf (.vfma { v0 with dst := 144 }) = false ∧ Instr.wf (.vfma { v0 with a := 64 }) = false ∧
    Instr.wf (.vfma { v0 with a := 0x220 }) = false ∧ Instr.wf (.vcmpeq { v0 with dst := 8, c := 0 }) = false ∧
    Instr.wf (.vpand { v0 with ty := 12, a := 8, b := 1, c := 0 }) = false ∧ Instr.wf (.vsel { v0 with c := 8 }) = false ∧
    Instr.wf (.xbc { v0 with b := 0x2FF, c := 0 }) = false ∧ Instr.wf (.vadds { v0 with c := 0 }) = false ∧ Instr.wf (.vshl { v0 with c := 0 }) = false ∧
    Instr.wf (.vidx { v0 with ty := 7, b := 0, c := 0 }) = false ∧ Instr.wf (.vdot2 v0) = false ∧ Instr.wf (.vdot4 v0) = false ∧
    Instr.wf (.vand { v0 with ty := 13, c := 0 }) = false ∧ Instr.wf (.vradd { v0 with c := 0 }) = false ∧
    Instr.wf (.sfexp2 { g := 0, ty := 3, gm := 255, dst := 1, src := 0x102, lm := 0, z := 0 }) = false ∧
    Instr.wf (.sfexp2 { g := 0, ty := 0, gm := 255, dst := 1, src := 0x102, lm := 0, z := 1 }) = false ∧
    Instr.wf (.ppack p0) = true ∧ Instr.wf (.ppack { p0 with dst := 1 }) = false ∧ Instr.wf (.ppack { p0 with a := 1 }) = false ∧
    Instr.wf (.ppack { p0 with tt := 5 }) = false ∧ Instr.wf (.ppack { p0 with imm := 5 }) = false ∧ Instr.wf (.punpk p0) = false ∧
    Instr.wf (.pcvt { p0 with b := 0, tf := 11 }) = false ∧ Instr.wf (.pscl { p0 with tt := 3, imm := 16 }) = false ∧
    Instr.wf (.pdscl { p0 with tf := 0 }) = false ∧ Instr.wf (.pres p0) = false ∧ Instr.wf (.pcrt { p0 with b := 0 }) = false ∧
    Instr.wf (.pshuf { p0 with tt := 0, imm := 1 }) = false ∧ Instr.wf (.ptrn { p0 with tt := 0, b := 0, gm := 1 }) = false ∧
    Instr.wf (.plut p0) = false := by decide

/-- Memory and engine words: scope, size, data kind and fields that must be zero (R42, R132, R133, R181, R182, R260). -/
theorem test_wf_memory : Instr.wf (.ld m0) = true ∧ Instr.wf (.ld { m0 with sc := 0 }) = false ∧ Instr.wf (.ld { m0 with sc := 6 }) = false ∧
    Instr.wf (.ld { m0 with sz := 7, data := 5 }) = false ∧ Instr.wf (.ld { m0 with data := 64 }) = false ∧ Instr.wf (.st { m0 with at16 := 1 }) = false ∧
    Instr.wf (.st { m0 with sz := 4 }) = false ∧ Instr.wf (.ldl m0) = false ∧ Instr.wf (.ldv m0) = false ∧ Instr.wf (.stv { m0 with data := 64, sz := 4 }) = false ∧
    Instr.wf (.ldg m0) = false ∧ Instr.wf (.sts { m0 with data := 192, sz := 4 }) = false ∧ Instr.wf (.pref m0) = false ∧
    Instr.wf (.flush m0) = false ∧ Instr.wf (.flushInv m0) = false ∧ Instr.wf (.flushAll { m0 with data := 0 }) = false ∧
    Instr.wf (.fence { m0 with sz := 0 }) = false ∧ Instr.wf (.lock m0) = false ∧ Instr.wf (.aadd { m0 with sz := 4 }) = false ∧
    Instr.wf (.aswp { m0 with sz := 7, idx := 1 }) = false ∧ Instr.wf (.afadd m0) = false ∧ Instr.wf (.redadd { m0 with idx := 1 }) = false ∧
    Instr.wf (.redfadd m0) = false ∧ Instr.wf (.lend m0) = false ∧ Instr.wf (.retn { m0 with sz := 0, idx := 1 }) = false ∧
    Instr.wf (.tkqry { m0 with sz := 0, data := 31 }) = false ∧ Instr.wf (.tkqrySelf m0) = false ∧ Instr.wf (.reclaimSeize m0) = false ∧
    Instr.wf (.cpy m0) = false ∧ Instr.wf (.sxstop { m0 with sz := 0, idx := 1 }) = false ∧ Instr.wf (.sxstopAll { m0 with sz := 1 }) = false := by decide

/-- Matrix words: the fields that a beat does not use are zero (R287); and an instruction stands only in its slots (R61). -/
theorem test_wf_matrix : Instr.wf (.mnop x0) = true ∧ Instr.wf (.mnop { x0 with cell := 1 }) = false ∧ Instr.wf (.mpa { x0 with q := 1 }) = false ∧
    Instr.wf (.mpa { x0 with flags := 4 }) = false ∧ Instr.wf (.mpsh { x0 with bank := 1 }) = false ∧ Instr.wf (.macc { x0 with a := 1 }) = false ∧
    Instr.wf (.mclr { x0 with slice := 1 }) = false ∧ Instr.wf (.mdrn { x0 with fmt := 5 }) = false ∧ Instr.wf (.mlda { x0 with fmt := 1 }) = false ∧
    Instr.wf (.mdrn { x0 with flags := 2 }) = false ∧ Instr.wfIn 2 (.add r0) = false ∧ Instr.wfIn 9 (.mnop x0) = true := by decide

/-! ## Words of the spec -/

/-- The word of a slot decodes to an instruction. -/
def isWord (slot w : Nat) (i : Instr) : Bool := match decodeWord slot w with | .ok j => decide (j = i) | .error _ => false

/-- Scalar words (R36; the words of R35, R83, R192, R199, R204, R210, R307, R318). -/
theorem test_decode_scalar : isWord 0 0x00231C40 (.add { g := 0, d := 3, a := 3, i := 1, b := 64 }) = true ∧
    isWord 0 0x00260418 (.add { g := 0, d := 6, a := 0, i := 1, b := 24 }) = true ∧ isWord 0 0x00252806 (.add { g := 0, d := 5, a := 5, i := 0, b := 6 }) = true ∧
    isWord 0 0x054503E8 (.li { g := 0, d := 5, imm := 1000 }) = true ∧ isWord 1 0x05800061 (.lit { g := 0, lit := 0x61 }) = true ∧
    isWord 0 0x0B201264 (.mloop { g := 0, x := 0, e := 9, c := 0x64 }) = true ∧ isWord 0 0x0B803800 (.chksig { g := 0, d := 0, a := 7, i := 0, b := 0 }) = true ∧
    isWord 0 0x0C405C01 (.waitc { g := 0, d := 0, a := 11, i := 1, b := 1 }) = true ∧ isWord 0 0x0C80B401 (.barw { g := 0, d := 0, a := 22, i := 1, b := 1 }) = true ∧
    isWord 0 0x0CD70000 (.gjoin { g := 0, d := 23, a := 0, i := 0, b := 0 }) = true ∧ isWord 0 0x0CE0B000 (.giss { g := 0, d := 0, a := 22, i := 0, b := 0 }) = true ∧
    isWord 0 0x0D000000 (.gend { g := 0, d := 0, a := 0, i := 0, b := 0 }) = true ∧ isWord 0 0x0D266000 (.lnch { g := 0, d := 6, a := 12, i := 0, b := 0 }) = true ∧
    isWord 0 0x0D400000 (.done { g := 0, d := 0, a := 0, i := 0, b := 0 }) = true ∧ isWord 0 0x0DA00400 (.eretResume { g := 0, d := 0, a := 0, i := 1, b := 0 }) = true ∧
    isWord 1 0x0E466000 (.qsplc { g := 0, d := 6, a := 12, i := 0, b := 0 }) = true := by decide

/-- Vector, special-function and permute words (R38 to R41). -/
theorem test_decode_wide : isWord 2 0x0040FF854C402010 (.vfma { g := 0, ty := 0, gm := 255, dst := 0x85, a := 0x131, b := 2, c := 4, lm := 0 }) = true ∧
    isWord 2 0xB040FF8305013049 (.vfma { g := 11, ty := 0, gm := 255, dst := 0x83, a := 0x14, b := 0x13, c := 0x12, lm := 1 }) = true ∧
    isWord 2 0x0330FF0E03301000 (.xcp { g := 0, ty := 0, gm := 255, dst := 0x0E, a := 0x0C, b := 0x301, c := 0, lm := 0 }) = true ∧
    isWord 2 0x0352FF0A44301028 (.vdot2 { g := 0, ty := 2, gm := 255, dst := 0x0A, a := 0x110, b := 0x301, c := 0x0A, lm := 0 }) = true ∧
    isWord 5 0x0043FE0C05000000 (.sfexp2 { g := 0, ty := 0, gm := 255, dst := 0x83, src := 5, lm := 0, z := 0 }) = true ∧
    isWord 6 0x00407FE0D1148400 (.ppack { g := 0, tf := 0, tt := 1, gm := 255, dst := 0x83, a := 0x111, b := 0x121, imm := 0 }) = true := by decide

/-- Memory, token, engine and matrix words (R42, R43). -/
theorem test_decode_memory : isWord 7 0x0038820808000040 (.ld { g := 0, sz := 6, sc := 1, data := 4, base := 2, idx := 0, at16 := 8, disp := 64 }) = true ∧
    isWord 7 0x0801832128000000 (.lend { g := 0, sz := 0, sc := 3, data := 6, base := 8, idx := 9, at16 := 8, disp := 0 }) = true ∧
    isWord 7 0x0A00800000000000 (.cpy { g := 0, sz := 0, sc := 1, data := 0, base := 0, idx := 0, at16 := 0, disp := 0 }) = true ∧
    isWord 7 0x0A20803000000040 (.cpym { g := 0, sz := 0, sc := 1, data := 0, base := 12, idx := 0, at16 := 0, disp := 64 }) = true ∧
    isWord 7 0x0C00803000000080 (.sxbm { g := 0, sz := 0, sc := 1, data := 0, base := 12, idx := 0, at16 := 0, disp := 128 }) = true ∧
    isWord 9 0x03514023 (.mpa { g := 0, cell := 2, bank := 1, a := 4, b := 5, q := 0, fmt := 0, flags := 2, slice := 3 }) = true ∧
    isWord 9 0x0240401F (.mpa { g := 0, cell := 0, bank := 1, a := 0, b := 1, q := 0, fmt := 0, flags := 1, slice := 15 }) = true ∧
    isWord 9 0x0A001880 (.mdrn { g := 0, cell := 0, bank := 0, a := 0, b := 0, q := 6, fmt := 1, flags := 0, slice := 0 }) = true := by decide

/-- Reserved and unassigned words are refused by name (R35, R46, R67). -/
theorem test_decode_refuses : (match decodeWord 0 0 with | .error .unassigned => true | _ => false) = true ∧
    (match decodeWord 0 0x00230020 with | .error .malformed => true | _ => false) = true ∧ isWord 2 0x00231C40 (.add ri) = false := by decide

/-! ## States that meet the hypotheses of the statements -/

/-- Core 0 runs context 0. -/
def base (x : Ctx) : State := { cores := [(0, { ctxs := [(0, { x with status := .running })], running := some 0 })] }

/-- Core 0 runs context 0 with a bundle in progress. -/
def busy (x : Ctx) (b : Bun) : State := { cores := [(0, { ctxs := [(0, { x with status := .running })], running := some 0, bun := b })] }

theorem witness_DecodeEncode : Instr.wfIn 0 (.add r0) = true ∧ Instr.wfIn 8 (.ld m0) = true ∧ Instr.wfIn 9 (.mnop x0) = true := by decide

theorem witness_DecodedIsWellFormed : ∃ i, decodeWord 0 0x00231C40 = .ok i := ⟨_, rfl⟩

theorem witness_StepRunsEvent : ∃ (s : State) (r : List Choice), s.agenda = .event .sageCommit :: r := ⟨{ agenda := [.event .sageCommit] }, _, rfl⟩

/-- A word that completes, one that traps (TRAP 5), and one that is held (DIV while the divider is busy), each the next of its state. -/
def fetchAdd : State := State.reset.withFetchWord 32 0x00231C40
def fetchTrap : State := State.reset.withFetchWord 32 0x0D800405
def fetchHeld : State := (State.reset.withFetchWord 32 0x00C31C40).modCore 0 (fun y => { y with div0 := 5 })

/-- What an instruction answers, as a test. -/
def after (i : Instr) (s : State) (p : State → Bool) : Bool := match exec i s with | .next t => p t | _ => false

theorem witness_StepRunsDecoded : isWord 0 0x00231C40 (.add { g := 0, d := 3, a := 3, i := 1, b := 64 }) = true ∧ IssuesWord 0 0 0x00231C40 fetchAdd ∧ (BundleStart 0 fetchAdd).leaderP = none ∧
    after (.add { g := 0, d := 3, a := 3, i := 1, b := 64 }) (SlotStart 0 0 fetchAdd) (fun t => decide ((t.coreAt 0).bun = t.bun) &&
      decide (t.bun.bundle.words.length = 1) && decide (t.bun.dead = none) && decide (t.cfgClash = false) && decide (t.bun.trap = none) && decide (t.bun.holds = [])) = true :=
  ⟨rfl, ⟨rfl, rfl, rfl, rfl, rfl, rfl, rfl, rfl, ⟨rfl, rfl⟩, ⟨rfl, rfl⟩, ⟨rfl, rfl, rfl⟩, ⟨rfl, rfl, rfl⟩, ⟨rfl, rfl⟩⟩, rfl, rfl⟩

theorem witness_StepRunsDecoded_trap : isWord 0 0x0D800405 (.trap { g := 0, d := 0, a := 0, i := 1, b := 5 }) = true ∧ IssuesWord 0 0 0x0D800405 fetchTrap ∧
    after (.trap { g := 0, d := 0, a := 0, i := 1, b := 5 }) (SlotStart 0 0 fetchTrap) (fun t => decide ((t.coreAt 0).bun = t.bun) &&
      decide (t.bun.bundle.words.length = 1) && decide (t.bun.dead = none) && decide (t.cfgClash = false)) = true :=
  ⟨rfl, ⟨rfl, rfl, rfl, rfl, rfl, rfl, rfl, rfl, ⟨rfl, rfl⟩, ⟨rfl, rfl⟩, ⟨rfl, rfl, rfl⟩, ⟨rfl, rfl, rfl⟩, ⟨rfl, rfl⟩⟩, rfl⟩

theorem witness_StepRunsDecoded_held : isWord 0 0x00C31C40 (.div { g := 0, d := 3, a := 3, i := 1, b := 64 }) = true ∧ IssuesWord 0 0 0x00C31C40 fetchHeld ∧
    after (.div { g := 0, d := 3, a := 3, i := 1, b := 64 }) (SlotStart 0 0 fetchHeld) (fun t => decide ((t.coreAt 0).bun = t.bun) &&
      decide (t.bun.bundle.words.length = 1) && decide (t.bun.dead = none) && decide (t.cfgClash = false) && decide (t.bun.trap = none) && decide (t.bun.holds ≠ [])) = true :=
  ⟨rfl, ⟨rfl, rfl, rfl, rfl, rfl, rfl, rfl, rfl, ⟨rfl, rfl⟩, ⟨rfl, rfl⟩, ⟨rfl, rfl, rfl⟩, ⟨rfl, rfl, rfl⟩, ⟨rfl, rfl⟩⟩, rfl⟩

/-- Guard P1, which is false. -/
theorem witness_ExecTotal_guard : Instr.wfIn 0 (.add { r0 with g := 1 }) = true ∧
    (encode (.add { r0 with g := 1 })).map (fun n => (base {}).guard (BitVec.ofNat 4 (n / 2 ^ (8 * slotBytes 0 - 4)))) = some false := by decide

/-- Each form of B: a register, an immediate, an immediate with LIT. -/
theorem witness_AluResults : (IsB r0 (base {}) 0 ∧ Issues r0.g (rReads r0) (base {})) ∧ (IsB ri (base {}) 5 ∧ Issues ri.g (rReads ri) (base {})) ∧
    IsB ri (busy {} { lit := some 1 }) 1029 ∧ Issues ri.g (rReads ri) (busy {} { lit := some 1 }) :=
  ⟨⟨.inl (by decide), by unfold Issues; decide⟩, ⟨.inr (.inl (by decide)), by unfold Issues; decide⟩,
    .inr (.inr ⟨1, by decide⟩), by unfold Issues; decide⟩

/-- A divisor of zero, one that overflows the most negative dividend, and a divider that is busy. -/
theorem witness_MultiplyDivide : (IsB r0 (base {}) 0 ∧ (base {}).divBusy = 0) ∧
    (let s := base { regs := { s := [(2, BitVec.intMin 64), (3, -1)] } }
     IsB r0 s (-1) ∧ Issues r0.g (rReads r0) s ∧ s.sreg r0.a = BitVec.intMin 64 ∧ s.divBusy = 0) ∧
    (IsB ri (base {}) 5 ∧ ((base {}).modCore 0 (fun y => { y with div0 := 3 })).divBusy ≠ 0) :=
  ⟨⟨.inl (by decide), by decide⟩, ⟨.inl (by decide), by unfold Issues; decide, by decide, by decide⟩, .inr (.inl (by decide)), by decide⟩

theorem witness_BitCountsAndFields : Issues r0.g [r0.a.toNat] (base {}) ∧ IsB ri (base {}) 5 ∧ Issues ri.g (ri.d.toNat :: rReads ri) (base {}) :=
  ⟨by unfold Issues; decide, .inr (.inl (by decide)), by unfold Issues; decide⟩

theorem witness_Immediates : (base {}).guard 0 = true ∧ (base {}).litFor = none ∧ (busy {} { lit := some 3 }).litFor = some 3 ∧
    Issues 0 [1] (base {}) ∧ Issues 0 [1] (busy {} { lit := some 3 }) := by unfold Issues; decide

theorem witness_ComparesPredicates : IsB ri (base {}) 5 ∧ Issues ri.g (rReads ri) (base {}) ∧ (base {}).guard 0 = true :=
  ⟨.inr (.inl (by decide)), by unfold Issues; decide, by decide⟩

theorem witness_ScalarFloat : r0.i = 0 ∧ Issues r0.g (rReads r0) (base {}) ∧ r0.d.toNat ∉ (base {}).me.badS ∧ Issues r0.g [r0.a.toNat] (base {}) := by
  unfold Issues; decide

/-- A full loop stack leaves no room; an END beyond an enclosing one does not fit; the counts at the ends of their ranges. -/
def lv (e : Nat) (x : Nat) : Level := { rem := 1, start := 0, endIdx := e, xn := x, stg := 0, step := 1 }

theorem witness_Transfers : (base {}).litFor = none ∧ (busy {} { lit := some 3 }).litFor = some 3 ∧ (base {}).bun.holds = [] ∧ (base {}).atLoopEnd = false ∧
    (base {}).inBroadcast = false ∧ r0.a.toNat ∉ (base {}).me.badS ∧ (base { pc := 4, loops := [lv 4 0] }).atLoopEnd = true := by decide

theorem witness_NextBundle : (let x : Ctx := { pc := 4, loops := [lv 4 0] }
    let l := lv 4 0
    l.start.toNat / 512 = x.pc.toNat / 512 ∧ l.endIdx = x.pc.toNat % 512 ∧ 0 < l.rem ∧ segOf l.start = segOf x.pc) ∧ ({ lv 4 0 with after := some 5 } : Level).after = some 5 ∧
    (lv 5 0).endIdx ≠ (4 : Nat) := by decide

theorem witness_LoopInstructions : (base {}).guard j0.g = true ∧ LoopFits j0 (base {}) ∧ (base {}).bun.holds = [] ∧ j0.c.toNat % 32 ∉ (base {}).me.badS ∧
    ((base {}).rd.sreg 4).toNat < 2 ^ 32 ∧ ((base {}).rd.sreg 6).setWidth 32 = (0 : BitVec 32) ∧
    ((base { regs := { s := [(6, 1)] } }).rd.sreg 6).setWidth 32 ≠ (0 : BitVec 32) ∧
    2 ^ 32 ≤ ((base { regs := { s := [(4, 0x100000000)] } }).rd.sreg 4).toNat ∧
    ¬ LoopFits j0 (base { loops := [lv 9 1, lv 9 2, lv 9 3, lv 9 4, lv 9 5, lv 9 6] }) ∧ ¬ LoopFits j0 (base { loops := [lv 9 0] }) := by
  unfold LoopFits; decide

/-- A bundle with its stop bit. -/
def stopBun : Bun := { bundle := { stop := true } }

theorem witness_SequencerInstructions : (base {}).me.loops = [] ∧ (base { loops := [lv 1 0] }).me.loops ≠ [] ∧
    ((base {}).sreg r0.a).setWidth 32 = ~~~ (base {}).me.sig ∧ ((base { sig := 0 }).sreg r0.a).setWidth 32 ≠ ~~~ (base { sig := 0 }).me.sig ∧
    (base {}).inService = false ∧ (busy {} stopBun).isStopPoint = true ∧ (busy {} { bundle := {} }).isStopPoint = false ∧
    (busy {} stopBun).inBroadcast = false ∧ (base {}).me.bind.phaseBound = false ∧
    (let s := busy { bind := { phaseBound := true, snap := 1024, spanBytes := 40960 } } stopBun
     let w : RForm := { ri with b := 1 }
     Issues w.g (rReads w) s ∧ s.me.bind.phaseBound = true ∧ s.me.bind.gang = none ∧ 1 ≤ (s.opB w).toNat ∧ (s.opB w).toNat ≤ 3072 ∧
       (s.sreg w.a).toNat + 512 * (s.opB w).toNat ≤ s.me.bind.snap ∧ s.me.bind.snap ≤ s.me.bind.spanBytes ∧ s.isStopPoint = true ∧
       (s.sreg w.a).toNat % 512 = 0) ∧
    ((busy { regs := { s := [(2, 8)] } } stopBun).sreg r0.a).toNat % 512 ≠ 0 := by unfold Issues; decide

theorem witness_TrapTakesCause : (base {}).guard r0.g = true ∧ (base {}).inService = false ∧ (base {}).me.bind.phaseBound = false ∧
    (base {}).core.svcTimer = none ∧ (base {}).bun.void = false ∧ (base {}).bun.trap = none := by decide

/-- The service context runs for held context 0. -/
def service (x : Ctx) : State :=
  { cores := [(0, { ctxs := [(0, { x with status := .held }), (4, { status := .running })], running := some 0, held := some 0, freeze := [.fault] })] }

theorem witness_ServiceReturns : (base {}).inService = false ∧ (base {}).guard r0.g = true ∧
    (let s := service {}
     s.guard r0.g = true ∧ s.bun.holds = [] ∧ s.core.held = some 0 ∧ (s.ctxAt s.cur 0).bind.gang = none ∧ (s.ctxAt s.cur 0).cause.res = false) ∧
    ((service { cause := { res := true } }).ctxAt 0 0).cause.res = true := by decide

/-! Queue 1 of context 0: local with 8 slots of which `n` are allocated, the first three present; or a splice end. -/

def lq (n : Nat) : QDesc := { mode := .localQ, capm1 := 7, tail := ⟨n % 8, decide (n = 8)⟩, pmap := 7 }
def inq : QDesc := { mode := .spliceIn, capm1 := 7, occm1 := 3, pmap := 1 }
def outq (n : Nat) : QDesc := { mode := .spliceOut, rcapm1 := 3, rcapw := 3, tail := ⟨n % 4, decide (n = 4)⟩ }
def withQ (d : QDesc) : State := base { q := [(1, d)] }
def qBun (d : QDesc) (b : Bun) : State := busy { q := [(1, d)] } b

theorem witness_BundleEnd : (∀ s ∈ [qBun (lq 3) {}, qBun (lq 3) { pops := [(1, 3)] }, qBun (lq 7) { apps := [(2, 1, 7)] }],
      s.me.phase.rollback = none ∧ s.me.status ≠ .held ∧ s.bun.ctl = none ∧ s.inService = false ∧ s.leaderP = none ∧
      s.bun.acts = [] ∧ s.bun.pins = [] ∧ s.bun.issued = false ∧ (s.queue 1).mode = .localQ ∧ s.me.bind.phaseBound = false) ∧
    (qBun (lq 3) { pops := [(1, 3)] }).bun.popped 1 = 3 ∧ (qBun (lq 7) { apps := [(2, 1, 7)] }).bun.popped 1 = 0 := by decide

theorem witness_QueueChecks : ((withQ {}).queue 1).mode = .disabled ∧ ((withQ (lq 3)).queue 1).used ≤ 3 ∧ ((withQ inq).queue 1).adv ≤ 4 ∧
    ((withQ (lq 8)).queue 1).mode = .localQ ∧ 7 < ((withQ (lq 8)).queue 1).used ∧ 3 < ((withQ inq).queue 1).adv ∧
    (∀ e ∈ (withQ (lq 7)).bun.pre, e.1 ≠ (withQ (lq 7)).slot ∨ e.2.1 ≠ 1) ∧ (withQ (lq 7)).bun.pins = [] ∧
    (let d := (withQ (lq 8)).queue 1; d.cap < d.used - 0 + 0 + 1) ∧ (let d := (withQ (lq 7)).queue 1; d.used - 0 + 0 + 1 ≤ d.cap) ∧
    (let d := (qBun (lq 8) { pops := [(1, 1)] }).queue 1; d.used - (qBun (lq 8) { pops := [(1, 1)] }).bun.popped 1 + 0 + 1 ≤ d.cap) ∧
    ((withQ { outq 0 with down := true }).queue 1).down = true ∧ ((withQ { outq 0 with refused := true }).queue 1).refused = true ∧
    ((withQ { outq 0 with mpar := true }).queue 1).mirrorOk = false ∧
    (let d := (withQ (outq 3)).queue 1; d.down = false ∧ d.refused = false ∧ d.pend = false ∧ d.failing = false ∧ d.mirrorOk = true ∧ 0 + 1 ≤ d.freeOut) ∧
    (let d := (withQ (outq 4)).queue 1; d.mirrorOk = true ∧ d.freeOut < 0 + 1) := by decide

/-- The word of QPOP, QWAIT and QFREE with an immediate count. -/
def rn (n : BitVec 10) : RForm := { g := 0, d := 1, a := 0, i := 1, b := n }

theorem witness_QueueInstructions : (withQ (lq 3)).guard 0 = true ∧ (withQ (lq 3)).bun.holds = [] ∧
    255 < ((withQ (lq 3)).opB (rn 256)).toNat ∧ ((withQ (lq 3)).opB (rn 2)).toNat < ((withQ (lq 3)).queue 1).used ∧
    ((withQ inq).opB (rn 3)).toNat < ((withQ inq).queue 1).adv ∧ ((withQ {}).opB (rn 0)).toNat = 0 ∧ ((withQ {}).opB (rn 257)).toNat > 256 ∧
    (let d := (withQ (lq 3)).queue 1; d.pinned = [] ∧ d.popped = 0 ∧ d.used + ((withQ (lq 3)).opB (rn 5)).toNat ≤ d.cap ∧
      d.cap < d.used + ((withQ (lq 3)).opB (rn 6)).toNat) ∧
    (let d := (withQ (outq 0)).queue 1; ((withQ (outq 0)).opB (rn 4)).toNat ≤ d.rcapm1 + 1 ∧ d.mirrorOk = true ∧ d.pend = false ∧ d.failing = false) ∧
    (let s := base { regs := { s := [(2, 0x03070000)] }, bind := { spanBytes := 4096 } }
     let v := (s.sreg 2).toNat
     v < 2 ^ 32 ∧ v / 2 ^ 16 % 256 ≠ 0 ∧ v / 2 ^ 24 % 256 ≤ v / 2 ^ 16 % 256 ∧
       (v % 4096 + (v / 2 ^ 16 % 256 + 1) * (v / 2 ^ 12 % 16 + 1)) * 512 ≤ s.data.bind.spanBytes ∧ (s.queue 1).mode = .disabled) ∧
    ((withQ (lq 0)).sreg 2).toNat = 0 ∧ ((withQ (lq 0)).queue 1).used = 0 ∧ 0 < ((withQ (lq 1)).queue 1).used ∧
    spliceDst 5 ≠ ⟨(withQ (lq 0)).cur, (withQ (lq 0)).core.dataIdx, 1⟩ ∧ (5 : Nat) % 128 < 96 ∧
    ((withQ { outq 0 with pend := true }).queue 1).pend = true ∧ ((withQ (lq 3)).queue 1).mode ≠ .spliceOut ∧
    (∀ k < ((withQ (lq 3)).queue 1).used, ((withQ (lq 3)).queue 1).pmap.getLsbD (((withQ (lq 3)).queue 1).at k) = true) ∧
    ((withQ (lq 4)).queue 1).pmap.getLsbD (((withQ (lq 4)).queue 1).at 3) = false ∧
    MayAppend 1 0 (withQ (lq 7)) ∧
    (let d := (withQ (lq 8)).queue 1; d.capm1 < 256 ∧ d.head.idx ≤ d.capm1 ∧ d.tail.idx ≤ d.capm1 ∧ d.hwm ≤ 256 ∧ d.used ≤ d.cap) ∧
    streamOk 0 = true ∧ streamOk (1#256 <<< 39) = false ∧ (withQ {}).inService = false ∧
    (let d := ((withQ (lq 3)).ctxAt 0 0).queue 1; d.used = 3) := by
  refine ⟨?_, ?_, ?_, ?_, ?_, ?_, ?_, ?_, ?_, ?_, ?_, ?_, ?_, ?_, ?_, ?_, ?_, ?_, ?_, .inr (.inl (by decide)), ?_, ?_, ?_, ?_, ?_⟩ <;> decide

theorem witness_GetxReadsIndex : (base {}).guard 0 = true ∧ (Instr.getx { r0 with a := 5, b := 0 }).wfIn 0 = true ∧
    (encode (.getx { r0 with a := 5, b := 0 })).isSome = true := by decide

/-- A span of 4,096 bytes, so that address 0 is in the window. -/
def wind (x : Ctx) : Ctx := { x with bind := { x.bind with spanBytes := 4096 } }

/-- The one piece of `n` bytes at the start of the window of context 0 of core 0. -/
def wPiece (n : Nat) : Piece := ⟨spanPA 0 (wind {}) 0, n, true, true, true, 0⟩

/-- A task of launch 1 that may use barrier slot 0 of its core, whose phase is 3. -/
def barSt (x : Ctx) : State := { base { x with bind := { x.bind with launch := 1 }, regs := { s := [(2, 1)] } } with bars := [(65536, { phase := 3, launch := 1 })] }

/-- A gang of two members, this context being member `m`. -/
def gangSt (m : Nat) (st : GState) : State :=
  { busy { bind := { gang := some 1, member := m } } stopBun with gangs := [(1, { members := [(0, 0), (1, 0)], states := [st, st] })] }

/-- What MayAccess asks, each part decided by itself. -/
theorem may_access (k : RKind) (a n align : Nat) (s : State) (ps : List Piece) (h : a % align = 0)
    (r : s.resolve (k == .store || k == .atom) a n = .pieces ps) (p : s.tokenPending ps = false)
    (c : (s.lendOnDemand ps).pieceCause k ps = none) : MayAccess k a n align s ps (s.lendOnDemand ps) := ⟨h, r, p, rfl, c⟩

theorem witness_window : MayAccess .bypass 0 8 8 (base (wind {})) [wPiece 8] ((base (wind {})).lendOnDemand [wPiece 8]) ∧
    MayAccess .bypass 0 64 64 (base (wind {})) [wPiece 64] ((base (wind {})).lendOnDemand [wPiece 64]) :=
  ⟨may_access _ _ _ _ _ _ (by decide) (by decide) (by decide) (by decide), may_access _ _ _ _ _ _ (by decide) (by decide) (by decide) (by decide)⟩

theorem witness_WaitsBarriersGangs : (let s := base (wind {})
      Issues r0.g (rReads r0) s ∧ (s.sreg r0.a).toNat = 0 ∧ s.me.badS = [] ∧
      (s.lendOnDemand [wPiece 8]).piecesOf .bypass (s.sreg r0.a).toNat 8 = [wPiece 8] ∧ s.inReach (s.cur / 96) (wPiece 8).pa = true ∧
      (s.lendOnDemand [wPiece 8]).remote (wPiece 8).pa = false ∧ (s.payWaitc (wPiece 8).pa).isSome = true ∧ s.enFenced s.cur s.core.issuing = false ∧
      (s.opB (rn 0)).toNat ≤ leNat (s.homeBytes (wPiece 8).pa 8) ∧ leNat (s.homeBytes (wPiece 8).pa 8) < (s.opB (rn 1)).toNat) ∧
    (let s := barSt {}
     Issues r0.g (rReads r0) s ∧ MayUseBarrier (s.sreg 2) s ∧ s.me.bind.phaseBound = false ∧ barScope (s.sreg 2) < 4 ∧ s.me.land.length < 32 ∧
     Reached (s.bar (barKey s.cur (s.sreg 2))).phase 3 ∧ ¬ Reached (s.bar (barKey s.cur (s.sreg 2))).phase 4) ∧
    4 ≤ barScope 4 ∧ barOk 4 = true ∧ barOk 0 = false ∧ ((base {}).bar (barKey 0 1)).launch ≠ (barSt {}).me.bind.launch ∧
    (∀ m < 2, ∀ st ∈ [GState.broadcast, GState.detached], Issues r0.g [r0.a.toNat] (gangSt m st) ∧ (gangSt m st).me.bind.gang = some 1 ∧
      (Tab.find (gangSt m st).gangs 1).isSome = true ∧ (gangSt m st).inService = false ∧ (gangSt m st).me.bind.member = m ∧
      (gangSt m st).isStopPoint = true ∧ (gangSt m st).sreg r0.a = 0) ∧ (busy {} {}).isStopPoint = false := by
  unfold Issues MayUseBarrier Reached; decide

theorem witness_LaunchDoneSystem : (let s := base (wind {})
      Issues r0.g [r0.a.toNat] s ∧ s.inService = false ∧ s.data.bind.phaseBound = false ∧ s.inBroadcast = false ∧
      (s.sreg r0.a).toNat = 0 ∧ s.me.land.length < 32 ∧
      (s.lendOnDemand [wPiece 64]).piecesOf .bypass (s.sreg r0.a).toNat 64 = [wPiece 64]) ∧
    (base { bind := { phaseBound := true } }).data.bind.phaseBound = true ∧ (busy {} stopBun).isStopPoint = true ∧
    (busy {} stopBun).inBroadcast = false ∧ (base {}).isStopPoint = false ∧
    (let s : State := { base { bind := { lkey := 5 } } with thyme := { launches := [(5, { src := ⟨0, 0, 0, 0⟩, prio := 0, asn := 0, seq := 0, party := 1, entries := [] })] } }
     Issues r0.g [r0.a.toNat] s ∧ (Tab.find s.thyme.launches s.data.bind.lkey).isSome = true) ∧
    (base { bind := { tkadm := true } }).data.bind.tkadm = true ∧ (base {}).data.bind.tkadm = false ∧
    Issues r0.g [r0.a.toNat] (service {}) ∧ (service {}).inService = true := by
  unfold Issues; decide

/-! Page 0x400000 of address space 0 is HBM page 0x8000, with W and with a region of party 1 there; slot 1 of queue 1 may be appended or read. -/

def paged (x : Ctx) (w : Bool) (rs : Tab Region) : State :=
  { cores := [(0, { ctxs := [(0, { x with status := .running })], running := some 0, tlb := [⟨0, 0x400000, 4096, 0x8000, w, false, false⟩] })],
    own := { regions := rs } }

/-- A region of 4,096 bytes at 0x8000 owned by party 1. -/
def region : Region := { base := 0x8000, sz := 0, owner := 1 }

/-- A task of party 1 whose S2 is an address of the page. -/
def owner : Ctx := { bind := { party := 1 }, regs := { s := [(2, 0x400040)] } }
def pPiece (n : Nat) : Piece := ⟨0x8040, n, true, false, false, 0x400040⟩
def store1 : State := paged owner true [(0x8000, region)]

theorem witness_AccessChecks : (3 : Nat) % 4 ≠ 0 ∧ (base (wind {})).data.bind.spanBytes = 4092 + 4 ∧ (base (wind {})).data.bind.spanBytes < 4093 + 4 ∧
    ((base {}).core.tlbFind 0 0x400000 = none ∧ (base {}).core.walkFailed 0 0x400000 = false) ∧
    ({ (base {}).core with walks := [{ asn := 0, va := 0x400000, level := 0, table := 0, group := false, failed := true }] } : Core).walkFailed 0 0x400000 = true ∧
    ((paged {} false []).core.tlbFind 0 0x400FF8).isSome = true ∧ (0x400FF8 : Nat) % 4096 + 8 ≤ 4096 ∧ (paged {} false []).core.tlbFind 0 0x401000 = none ∧
    (paged {} true []).reaches 0 0x8000 = true ∧ (base {}).reaches 0 (scratchPA 0) = false ∧ (paged {} true []).own.regionAt 0x8040 = none ∧
    (store1.tokenPending [pPiece 8] = false ∧ (store1.lendOnDemand [pPiece 8]).own.regionAt 0x8040 = some region) := by decide

theorem witness_RegionRights : region.st = .held ∧ region.atomic = false ∧ region.shares = 0 ∧ region.owner = 1 ∧ (0x8040 : Nat) < 0x10000000000000 ∧
    ({ region with atomic := true }).atomic = true ∧ partyPkg 1 = store1.pkgid ∧ partyPkg (1#64 <<< 24) ≠ store1.pkgid ∧
    (0x8000, (2 : Word)) ∉ store1.own.shares ∧ ({ region with shares := 1 }).shares ≠ 0 := by decide

/-- LD and ST of S4 at S2; of queue 1; of stream 1. -/
def mS : MForm := { g := 0, sz := 3, sc := 1, data := 4, base := 2, idx := 0, at16 := 0, disp := 0 }
def mQ : MForm := { mS with data := 129 }
def mD : MForm := { mS with data := 193 }

theorem owned (k : RKind) (n al : Nat) (h : 0x400040 % al = 0 := by decide)
    (r : store1.resolve (k == .store || k == .atom) 0x400040 n = .pieces [pPiece n] := by decide)
    (c : (store1.lendOnDemand [pPiece n]).pieceCause k [pPiece n] = none := by decide) :
    MayAccess k 0x400040 n al store1 [pPiece n] (store1.lendOnDemand [pPiece n]) := may_access k _ n al _ _ h r rfl c

/-- Stream 1 reads and appends queue 1; its window holds the task's span. -/
def qCtx (n : Nat) (d : BitVec 256) : Ctx :=
  { q := [(1, lq n), (2, { lq 3 with base := 64 })], bind := { spanBytes := 65536 }, regs := { d := [(1, d)] } }

/-- The head slot's place in the window of that task. -/
def qPiece : Piece := ⟨spanPA 0 (qCtx 7 9) 0, 512, true, true, true, 0⟩

theorem witness_Loads : (let s := store1; let t := store1.lendOnDemand [pPiece 8]
      s.guard mS.g = true ∧ mS.base.toNat ∉ s.me.badS ∧ s.bun.holds = [] ∧ HasRoom t ∧ s.ea mS = 0x400040 ∧ t.me.land.length + 2 ≤ 32) ∧
    MayAccess .load 0x400040 8 8 store1 [pPiece 8] (store1.lendOnDemand [pPiece 8]) ∧
    MayAccess .load 0x400040 16 16 store1 [pPiece 16] (store1.lendOnDemand [pPiece 16]) ∧
    MayAccess .bypass 0x400040 512 64 store1 [pPiece 512] (store1.lendOnDemand [pPiece 512]) ∧
    MayAccess .load 0 512 64 (base (qCtx 7 9)) [qPiece] ((base (qCtx 7 9)).lendOnDemand [qPiece]) ∧
    (let s := base (qCtx 7 9)
     s.guard 0 = true ∧ s.me.badS = [] ∧ s.bun.holds = [] ∧ HasRoom (s.lendOnDemand [qPiece]) ∧ MayAppend 1 0 s ∧ (s.queue 1).slotBytes = 512 ∧ s.ea mQ = 0 ∧
       (s.stream 1).en = true ∧ (s.stream 1).kind < 2 ∧ (s.stream 1).qn = 1 ∧ SlotAt mD (s.stream 1) 512 0 s) :=
  ⟨by unfold HasRoom AddrSound; decide, owned .load 8 8, owned .load 16 16, owned .bypass 512 64,
    may_access _ _ _ _ _ _ (by decide) (by decide) (by decide) (by decide), by decide, by decide, by decide, by unfold HasRoom AddrSound; decide,
    .inr (.inl (by decide)), by decide, by decide, by decide, by decide, by decide, by unfold SlotAt; decide⟩

theorem witness_Stores : (let s := store1; let t := store1.lendOnDemand [pPiece 8]
      s.guard mS.g = true ∧ s.bun.holds = [] ∧ HasRoom t ∧ s.ea mS = 0x400040 ∧ 5 ∉ s.me.badS ∧ 4 ∉ t.me.badL) ∧
    MayStore 0x400040 8 8 store1 [pPiece 8] (store1.lendOnDemand [pPiece 8]) ∧
    MayStore 0x400040 16 16 store1 [pPiece 16] (store1.lendOnDemand [pPiece 16]) ∧
    MayStore 0x400040 512 64 store1 [pPiece 512] (store1.lendOnDemand [pPiece 512]) ∧
    MayStore 0 512 64 (base (qCtx 3 9)) [qPiece] ((base (qCtx 3 9)).lendOnDemand [qPiece]) ∧
    (let s := base (qCtx 3 9)
     s.bun.holds = [] ∧ HasRoom (s.lendOnDemand [qPiece]) ∧ SlotPresent 1 0 s ∧ s.badRange (s.slotPA 1 0) (s.queue 1).slotBytes = false ∧ s.ea mQ = 0 ∧
       (s.stream 1).en = true ∧ (s.stream 1).qn = 1 ∧ SlotAt mD (s.stream 1) 512 0 s) :=
  ⟨by unfold HasRoom AddrSound; decide, ⟨owned .store 8 8, by decide⟩, ⟨owned .store 16 16, by decide⟩, ⟨owned .store 512 64, by decide⟩,
    ⟨may_access _ _ _ _ _ _ (by decide) (by decide) (by decide) (by decide), by decide⟩, by decide, by unfold HasRoom AddrSound; decide,
    by unfold SlotPresent; decide, by decide, by decide, by decide, by decide, by unfold SlotAt; decide⟩

theorem witness_Atomics : (let s := store1
      s.guard mS.g = true ∧ mS.data.toNat < 64 ∧ s.bun.holds = [] ∧ s.eaNoIdx mS = 0x400040 ∧ s.data.bind.phaseBound = false ∧ s.me.badS = [] ∧
      inScratch s (s.piecesOf .atom 0x400040 8) = false ∧ inScratch s (s.piecesOf .atom 0x400040 16) = false ∧ HasRoom (s.lendOnDemand [pPiece 8]) ∧
      (s.lendOnDemand [pPiece 8]).me.land.length + 2 ≤ 32) ∧
    MayAccess .atom 0x400040 8 8 store1 [pPiece 8] (store1.lendOnDemand [pPiece 8]) ∧
    MayAccess .atom 0x400040 16 16 store1 [pPiece 16] (store1.lendOnDemand [pPiece 16]) ∧
    (base { bind := { phaseBound := true } }).data.bind.phaseBound = true ∧ (base { regs := { s := [(2, 4)] } }).eaNoIdx mS % 8 ≠ 0 ∧
    (base { regs := { s := [(2, 8)] } }).eaNoIdx mS < 0x200000 :=
  ⟨by unfold HasRoom AddrSound; decide, owned .atom 8 8, owned .atom 16 16, by decide, by decide, by decide⟩

/-- A task of party 1 with queue 1 to be read. -/
def storeQ : State := paged { qCtx 3 9 with bind := { party := 1, spanBytes := 65536 }, regs := { s := [(2, 0x400040)] } } true [(0x8000, region)]

theorem witness_Reductions : store1.eaNoIdx mS = 0x400040 ∧ inScratch store1 (store1.piecesOf .atom 0x400040 512) = false ∧ 4 ∉ store1.me.badL ∧
    MayAccess .atom 0x400040 512 64 store1 [pPiece 512] (store1.lendOnDemand [pPiece 512]) ∧
    MayAccess .atom 0x400040 512 64 storeQ [pPiece 512] (storeQ.lendOnDemand [pPiece 512]) ∧
    (let s := storeQ
     s.bun.holds = [] ∧ SlotPresent 1 0 s ∧ s.eaNoIdx mQ = 0x400040 ∧ (s.queue 1).slotBytes = 512 ∧ s.data.bind.phaseBound = false ∧
       s.badRange (s.slotPA 1 0) 512 = false ∧ inScratch s (s.piecesOf .atom 0x400040 512) = false ∧ HasRoom (s.lendOnDemand [pPiece 512])) :=
  ⟨rfl, by decide, by decide, owned .atom 512 64, may_access _ _ _ _ _ _ (by decide) (by decide) (by decide) (by decide), by decide,
    by unfold SlotPresent; decide, by decide, by decide, by decide, by decide, by decide, by unfold HasRoom AddrSound; decide⟩

/-- A private span of 256 bytes a lane. -/
def priv (v : Word) : State := base { bind := { privBytes := 256 }, regs := { s := [(2, v)] } }

theorem witness_LanePrivate : (priv 0).guard mS.g = true ∧ ((priv 0).laneSel 0).getLsbD 127 = true ∧ laneOff { mS with sz := 0 } (priv 2) 127 % 4 ≠ 0 ∧
    (laneOff { mS with sz := 0 } (priv 256) 0 % 4 = 0 ∧ (priv 256).data.bind.privBytes ≤ laneOff { mS with sz := 0 } (priv 256) 0) ∧
    (∀ j < 128, laneOff { mS with sz := 0 } (priv 252) j % 4 = 0 ∧ laneOff { mS with sz := 0 } (priv 252) j < (priv 252).data.bind.privBytes) ∧
    (priv 252).bun.holds = [] ∧ AddrSound (priv 252) ∧ (priv 252).me.badS = [] ∧ (priv 252).core.lanes.wf = true ∧
    (priv 252).data.bind.privBase + (priv 252).data.bind.privBytes ≤ 2048 ∧ (priv 252).data.bind.privBytes % 4 = 0 := by
  unfold AddrSound; decide

/-- Stream 1 as a gather of one row of 512 bytes by queue 2 into or from queue 1. -/
def gCtx (n : Nat) : Ctx := qCtx n (BitVec.ofNat 256 (1 + 4 + 8 + 127 * 2 ^ 31 + 2 * 2 ^ 56))

theorem witness_GatherScatter : (let st := (base (gCtx 7)).stream 1
      st.en = true ∧ st.kind = 2 ∧ st.rows * 2 ≤ ((base (gCtx 7)).queue st.iq).slotBytes ∧ st.rowBytes % 64 = 0 ∧ st.iq = 2 ∧ st.qn = 1 ∧
      st.rows * st.rowBytes = 512 ∧ st.rows * st.rowBytes ≤ 16384 ∧ ((base (gCtx 7)).core.latch 1).readers = 0) ∧
    (∃ v u t, needSlot 2 0 (base (gCtx 7)) = .ok v ∧ appendSlot 1 v = .ok u ∧ u.bun.holds = [] ∧ u.hasSlot 2 = true ∧
      checkRows .load { mD with sz := 0 } (u.stream 1) (u.rowIdx (u.stream 1)) u = .ok t ∧ t.bun.holds = [] ∧ HasRoom t ∧
      t.badRange (t.slotPA 2 0) 512 = false) ∧
    (∃ v u t, needSlot 1 0 (base (gCtx 3)) = .ok v ∧ popSlots 2 1 v = .ok u ∧ u.bun.holds = [] ∧ u.hasSlot 2 = true ∧
      checkRows .store { mD with sz := 2 } (u.stream 1) (u.rowIdx (u.stream 1)) u = .ok t ∧ t.bun.holds = [] ∧ HasRoom t ∧
      t.badRange (t.slotPA 1 0) 512 = false) ∧
    (let s := base (gCtx 7)
     s.bun.holds = [] ∧ HasRoom s ∧ s.me.badS = [] ∧ SlotPresent 2 0 s ∧ s.rowIdx (s.stream 1) = [0] ∧ s.badRange (s.slotPA 2 0) 512 = false ∧
       s.lendOnDemand [qPiece] = s ∧ MayAppend 1 0 s ∧ rowAddr { mD with sz := 0 } (s.stream 1) s 0 = 0) ∧
    MayAccess .load 0 512 64 (base (gCtx 7)) [qPiece] ((base (gCtx 7)).lendOnDemand [qPiece]) ∧
    MayStore 0 512 64 (base (gCtx 3)) [qPiece] ((base (gCtx 3)).lendOnDemand [qPiece]) ∧ (base (gCtx 3)).lendOnDemand [qPiece] = base (gCtx 3) ∧
    SlotPresent 1 0 (base (gCtx 3)) ∧ (base (gCtx 3)).rowIdx ((base (gCtx 3)).stream 1) = [0] :=
  ⟨by decide, ⟨_, _, _, rfl, rfl, rfl, rfl, rfl, rfl, by unfold HasRoom AddrSound; decide, rfl⟩,
    ⟨_, _, _, rfl, rfl, rfl, rfl, rfl, rfl, by unfold HasRoom AddrSound; decide, rfl⟩,
    ⟨by decide, by unfold HasRoom AddrSound; decide, by decide, by unfold SlotPresent; decide, by decide, by decide, rfl, .inr (.inl (by decide)), by decide⟩,
    may_access _ _ _ _ _ _ (by decide) (by decide) (by decide) (by decide),
    ⟨may_access _ _ _ _ _ _ (by decide) (by decide) (by decide) (by decide), by decide⟩, rfl, by unfold SlotPresent; decide, by decide⟩

/-- The first byte of the page's line. -/
def lPiece (pa va : Nat) : Piece := ⟨pa, 1, true, false, false, va⟩

theorem witness_CacheMaintenance : (base { regs := { s := [(2, 0x400040)] } }).resolve false 0x400000 1 = .miss 0x400000 ∧ store1.guard 0 = true ∧
    (∀ va, store1.resolve false 0x400000 1 ≠ .miss va) ∧ store1.ea mS = 0x400040 ∧ Issues 0 [4, 2, 0] store1 ∧ AddrSound store1 ∧ store1.outstanding 0 < 1024 ∧
    store1.core.l1.length < 512 ∧ store1.resolve false (0x400040 / 128 * 128) 1 = .pieces [lPiece 0x8000 0x400000] ∧
    store1.pieceCause .load [lPiece 0x8000 0x400000] = none ∧ store1.caches 1 (lPiece 0x8000 0x400000) = true ∧
    Tab.find store1.core.l1 (0x8000 / 128) = none ∧ (store1.takePort 0 (store1.shareClass 0 0) 128).isSome = true ∧
    BitVec.ofNat 5 (9 / 8) ≠ 0 ∧ BitVec.ofNat 5 (9 % 8 * 4 + 2 / 8) ≠ 0 ∧ (BitVec.ofNat 5 (9 % 8 * 4 + 2 / 8)).getLsbD 4 = false ∧
    (BitVec.ofNat 5 (4 * 4)).getLsbD 4 = true ∧ BitVec.ofNat 5 (4 / 8) = 0 := by
  refine ⟨by decide, by decide, ?_, by decide, by unfold Issues; decide, by unfold AddrSound; decide, by decide, by decide, by decide, by decide, by decide,
    by decide, by decide, by decide, by decide, by decide, by decide, by decide⟩
  intro va
  have h : store1.resolve false 0x400000 1 = .pieces [lPiece 0x8000 0x400000] := by decide
  rw [h]; nofun

theorem witness_LineLocks : (base { bind := { phaseBound := true } }).data.bind.phaseBound = true ∧ store1.data.bind.phaseBound = false ∧
    HasRoom (store1.lendOnDemand [pPiece 1]) ∧ store1.ea mS = 0x400040 ∧ store1.bun.holds = [] ∧ (store1.lendOnDemand [pPiece 1]).me.land.length + 1 ≤ 32 ∧
    MayAccess .load 0x400040 1 1 store1 [pPiece 1] (store1.lendOnDemand [pPiece 1]) :=
  ⟨by decide, by decide, by unfold HasRoom AddrSound; decide, rfl, rfl, by decide, owned .load 1 1⟩

/-! Access `a` of context 0 of core 0 in flight under number 3. -/

def flying (a : Acc) (x : Ctx) : State := { base x with flight := [(3, { core := 0, ctx := 0, msg := .access a })] }
def fl (a : Acc) : Flight := { core := 0, ctx := 0, msg := .access a }
def ldA : Acc := { cls := .ld, scope := 1, reads := [(0x8040, 8)], dst := .scalar 4 3 }
def stA : Acc := { cls := .st, scope := 1, writes := [(0x8040, [1, 2])] }

theorem ready (a : Acc) (x : Ctx) (hn : a.performed = false ∧ a.report = []) (h : (flying a x).mayPerform 3 (fl a) = true)
    (c : (flying a x).cutOff (fl a) = false ∧ (flying a x).afar (.access a) = false) : Ready 3 (fl a) a (flying a x) :=
  ⟨rfl, rfl, ⟨hn.1, rfl, hn.2⟩, h, c⟩

/-- The line of 0x8040 in the L1 of core 0. -/
def line8 : Line := { asn := 0, va := 0x400000, data := List.replicate 128 7, dirty := 0 }
def cached (a : Acc) : State := { cores := [(0, { ctxs := [(0, {})], l1 := [(0x8000 / 128, line8)] })], flight := [(3, fl a)] }

theorem witness_HomeAccess : Ready 3 (fl ldA) ldA (flying ldA {}) ∧ Ready 3 (fl stA) stA (flying stA {}) ∧ (0x8040 : Nat) / 4096 ≠ capBase / 4096 ∧
    (let a := { ldA with cached := [⟨0x8040, 8, 0x400040⟩] }
     Ready 3 (fl a) a (cached a) ∧ linesOf a.touched = [0x100] ∧ (∀ r ∈ a.touched, (a.cachedAt r.1).isSome = true) ∧ Tab.find ((cached a).coreAt 0).l1 0x100 = some line8 ∧ line8.data.length = 128 ∧
     Ready 3 (fl a) a (flying a {}) ∧ Tab.find ((flying a {}).coreAt 0).l1 0x100 = none ∧ ((flying a {}).coreAt 0).l1.length < 512) ∧
    (let a := { stA with cached := [⟨0x8040, 8, 0x400040⟩] }
     Ready 3 (fl a) a (cached a) ∧ a.reads = [] ∧ a.writes = [(0x8040, [1, 2])] ∧ linesOf a.touched = [0x100] ∧ (∀ r ∈ a.touched, (a.cachedAt r.1).isSome = true)) ∧
    (∀ unlock ok : Bool, let a : Acc := { cls := .ld, scope := 1, dst := .word 4 0, lock := some (unlock, 0x100, ok) }
     Ready 3 (fl a) a (flying a {}) ∧ a.atom = none) ∧
    (let s : State := { base {} with flight := [(3, { core := 0, ctx := 0, msg := .fence 3 3 1 false })] }
     s.fencePredsDone 3 { core := 0, ctx := 0, msg := .fence 3 3 1 false } 3 1 = true) ∧
    (let s : State := { base {} with flight := [(3, { core := 0, ctx := 0, msg := .fence 3 3 4 true })] }
     s.fencePredsDone 3 { core := 0, ctx := 0, msg := .fence 3 3 4 true } 3 4 = true ∧ s.markersDone 3 = true) ∧
    (let f : Flight := { core := 0, ctx := 0, msg := .flush 0 0x400000 128 false true }
     let s : State := { cached ldA with flight := [(3, f)] }
     s.mayPerform 3 f = true ∧ Tab.sorted (s.coreAt 0).l1 = true ∧ line8.usedIn 0 0x400000 128 = true) := by
  refine ⟨ready _ _ (by decide) (by decide) (by decide), ready _ _ (by decide) (by decide) (by decide), by decide,
    ⟨⟨rfl, rfl, by decide, by decide, by decide⟩, by decide, by decide, rfl, rfl, ready _ _ (by decide) (by decide) (by decide), rfl, by decide⟩,
    ⟨⟨rfl, rfl, by decide, by decide, by decide⟩, rfl, rfl, by decide, by decide⟩, ?_, by decide, by decide, by decide⟩
  intro u o; cases u <;> cases o <;> exact ⟨ready _ _ (by decide) (by decide) (by decide), rfl⟩

def addA (mac : Bool) : Acc := { cls := .at, scope := 1, dst := .old 4 0, atom := some { op := .add, cls := 0, elems := [(0x8040, 5)], mac := mac } }

theorem witness_HomeAtomic : Ready 3 (fl (addA false)) (addA false) (flying (addA false) {}) ∧ Ready 3 (fl (addA true)) (addA true) (flying (addA true) {}) ∧
    Tab.find ((flying (addA true) {}).coreAt 0).l1 (0x8040 / 128) = none ∧ ((flying (addA true) {}).useHome false true [(0x8040, 4)]).granule 0x8040 = [] ∧
    (let s : State := { flying (addA true) {} with granules := [(0x804, [(0x8040, 8)])] }
     Ready 3 (fl (addA true)) (addA true) s ∧ (s.useHome false true [(0x8040, 4)]).granule 0x8040 = [(0x8040, 8)] ∧ 8 ≠ atomBytes 0) ∧
    (flying (addA true) {}).mem.wf = true :=
  ⟨ready _ _ (by decide) (by decide) (by decide), ready _ _ (by decide) (by decide) (by decide), rfl, rfl,
    ⟨⟨rfl, rfl, by decide, by decide, by decide⟩, rfl, by decide⟩, rfl⟩

/-- A landing entry that is due, with its data or an error. -/
def due (f : Option Cause) : Landing := { due := 0, slot := 7, flight := 3, w := .s 4 9, arrived := true, fault := f }
def donA : Acc := { ldA with performed := true, data := [1, 2, 3, 4, 5, 6, 7, 8] }

theorem witness_Landings : (let s := flying donA { land := [{ due none with arrived := false }] }
     Tab.find s.flight 3 = some (fl donA) ∧ donA.performed = true ∧ s.dataAway donA = false ∧ s.returning donA.reads = false ∧
     (s.ctxAt 0 0).land = [] ++ { due none with arrived := false } :: [] ∧ (due none).flight = 3) ∧
    (∀ f ∈ [none, some Cause.eccUe], ((base { land := [due f] }).ctxAt 0 0).land = [] ++ due f :: [] ∧ (due f).due = 0 ∧ (due f).arrived = true ∧
     (due f).slot < 10 ∧ (base { land := [due f] }).core.held = none ∧ ((base { land := [due f] }).ctxAt 0 0).phase.rollback = none ∧ (base { land := [due f] }).core.running = some 0 ∧
     ((base { land := [due f] }).ctxAt 0 0).bind.phaseBound = false ∧ (base { land := [due f] }).core.svcTimer = none) ∧
    ((base { pend := [{ due := 0, slot := 1, w := .s 4 9 }] }).ctxAt 0 0).late = false ∧
    (∀ j < 5, j ≠ 0 → ∀ p ∈ ((base { pend := [{ due := 0, slot := 1, w := .s 4 9 }] }).ctxAt 0 j).pend, p.due ≠ 0) ∧
    ((base { pend := [{ due := 0, slot := 1, w := .s 4 9 }, { due := 0, slot := 0, w := .s 4 8 }] }).ctxAt 0 0).pend = [{ due := 0, slot := 1, w := .s 4 9 }, { due := 0, slot := 0, w := .s 4 8 }] ∧
    (let a : Acc := { donA with dst := .slot 1 3 0x0F none }
     let s := flying a { q := [(1, lq 3)] }
     Tab.find s.flight 3 = some (fl a) ∧ s.dataAway a = false ∧ a.fault = none) ∧
    (let a : Acc := { donA with dst := .latch 0 }
     (flying a {}).dataAway a = false ∧ a.performed = true) ∧ ({ stA with performed := true }).cls = .st := by decide

/-- A walk of core 0 for 0x400000 at `level` with its table at 0x10000, whose entries there are `m`. -/
def walking (level : Nat) (m : Memory) : State :=
  { cores := [(0, { ctxs := [(0, {})], walks := [{ asn := 0, va := 0x400000, level := level, table := 0x10000, asked := true }] })], mem := m }

/-- The level and its entry: invalid, a table, a small leaf, a large leaf. -/
theorem witness_Background_walk : ((walking 2 []).coreAt 0).walks[0]? = some { asn := 0, va := 0x400000, level := 2, table := 0x10000, asked := true } ∧
    (walking 2 []).walkers (0 / 96) < 512 ∧ (walking 2 []).atBank [(0x10010, 8)] = false ∧
    (walking 2 []).inReach (0 / 96) 0x10000 = true ∧ leNat ((walking 2 []).mem.readBytes 0x10010 8) % 2 = 0 ∧
    (let s := walking 2 [(0x10010, 1), (0x10012, 2)]
     let e := leNat (s.mem.readBytes (0x10000 + 8 * 2) 8)
     e % 64 = 1 ∧ e / 64 % 64 = 0 ∧ e / 2 ^ 52 % 2 ^ 12 = 0 ∧ s.targetOf (s.key 0x20000) = .hbm (0x20000 / 2 ^ 37 % 4)) ∧
    (let s := walking 3 [(0x10000, 3), (0x10001, 0x80)]
     let e := leNat (s.mem.readBytes (0x10000 + 8 * 0) 8)
     e % 4 = 3 ∧ e / 16 % 2 = 0 ∧ e / 64 % 64 = 0 ∧ e / 2 ^ 52 % 2 ^ 12 = 0 ∧ e / 4096 % 2 ^ 40 * 4096 = 0x8000 ∧ s.leafOk 0 0x8000 4096 (e.testBit 2) = true) ∧
    (let s := walking 2 [(0x10010, 3), (0x10012, 0x20)]
     let e := leNat (s.mem.readBytes (0x10000 + 8 * 2) 8)
     e % 4 = 3 ∧ e / 16 % 2 = 0 ∧ e / 64 % 64 = 0 ∧ e / 4096 % 2 ^ 40 * 4096 = 0x200000 ∧ s.leafOk 0 0x200000 (2 ^ 21) (e.testBit 2) = true) := by decide

/-- The example segment of the spec (R72): its stream as bytes after its header. -/
def demo : List Byte := leBytes (56 + 40 * 2 ^ 16 + 3 * 2 ^ 32 + 0x63C96173 * 2 ^ 64) 16 ++
  [0x11000005, 0x054503E8, 0x00260418, 0x08000001, 0x00252806, 0x10000005, 0x00272EA0, 0x05800061, 0x09000001, 0x0D400000].flatMap (fun w => leBytes w 4)

set_option maxRecDepth 8192 in
/-- It expands to its four bundles. -/
theorem test_expandSegment : (expandSegment 7 demo).bad = none ∧ (expandSegment 7 demo).next = 0 ∧ (expandSegment 7 demo).bundles =
    [{ stop := true, words := [(0, 0x054503E8), (1, 0x00260418)] }, { stop := false, words := [(0, 0x00252806)] },
     { stop := false, words := [(0, 0x00272EA0), (1, 0x05800061)] }, { stop := true, words := [(0, 0x0D400000)] }] := by decide

/-- The two bundles of the example of R35, the second of which repeats its words with a Delta of 2. -/
theorem test_expandDelta : expandBundles 2 0 [] [0x19000041, 0x00231C40, 0x4C402010, 0x0040FF85, 0x00200083] = some
    ([{ stop := true, words := [(0, 0x00231C40), (3, 0x0040FF854C402010)] }, { stop := false, words := [(0, 0x00231C42), (3, 0x0040FF854C402010)] }],
     [0x19000041, 0x00231C40, 0x4C402010, 0x0040FF85, 0x18000041, 0x00231C42, 0x4C402010, 0x0040FF85], []) := by decide

/-- A segment of zeros for the service context; a task at address 0, which is no code; a task whose page has no translation. -/
theorem witness_Background_fetch : ((base {}).ctxAt 0 4).wanted = some 0 ∧ (base {}).fetch 0 4 3 0 16 [] = .bytes (List.replicate 16 0) ∧
    (base {}).fetch 0 4 20 0 0 [] = .bytes [] ∧ (base {}).led ((base {}).ctxAt 0 4) = false ∧ ((base {}).ctxAt 0 0).wanted = some 0 ∧ (base {}).fetch 0 0 3 0 16 [] = .fault .xlate ∧
    ((base { pc := 0x2000000 }).ctxAt 0 0).wanted = some 0x10000 ∧ (base { pc := 0x2000000 }).fetch 0 0 3 0x400000 16 [] = .miss 0x400000 := by decide

set_option maxRecDepth 8192 in
theorem witness_Background : Tab.find ((cached ldA).coreAt 0).l1 0x100 = some line8 ∧ line8.data.length = 128 ∧ (cached ldA).mem.wf = true ∧
    (let s := flying { stA with report := [0x8000] } {}
     ∀ b ∈ [0x8000], s.fixedUp 0 (s.tokenTile b) = true) ∧
    (let s : State := { base {} with flight := [(4, { core := 0, ctx := 0, msg := .marker 3 1 })] }
     Tab.find s.flight 4 = some { core := 0, ctx := 0, msg := .marker 3 1 } ∧ s.canReach (0 / 96) 1 = true ∧ s.fixedUp (1000 + 1) 0 = true ∧
     s.flight.all (fun e => decide (e.1 = 4)) = true) := by decide

/-! Vector words with lane registers, an appended queue, a popped queue slot, a constant and a scalar as operands. -/

def vl : VForm := { v0 with a := 2, b := 3, c := 4 }

/-- A source that is no queue slot, where no register is in error; and the head slot of queue 1. -/
theorem lsource (sp : BitVec 10) (s : State) (h : sp.toNat / 256 ≠ 1) (l : s.me.badL = []) (r : s.me.badS = []) : LaneSource sp s :=
  ⟨fun _ => by simp [l], fun g => absurd g h, fun _ => by simp [r]⟩

theorem lqueue : LaneSource 0x111 (base { q := [(1, lq 3), (2, lq 7)] }) :=
  ⟨by decide, fun _ => ⟨rfl, by unfold QueueSource SlotPresent; decide⟩, by decide⟩

theorem witness_VectorInstructions : (base {}).guard vl.g = true ∧ (ekind 0 = .flt fp32 ∧ (∃ f, ekind 5 = .int f) ∧ ekind 11 = .res) ∧
    LanesReady [vl.a, vl.b, vl.c] vl.dst (base {}) (base {}) ∧ LanesReady [vl.a] vl.dst (base {}) (base {}) ∧
    (∃ t, LanesReady [0x111, 0x203] 0x82 (base { q := [(1, lq 3), (2, lq 7)] }) t) ∧ LanesReady [0x301, 0x203] 4 (base {}) (base {}) ∧
    vsrcsIssue [vl.a, vl.b] (base {}) = .ok (base {}) ∧ vsrcsRead [vl.a, vl.b] (base {}) = .ok (base {}) ∧ (base {}).bun.holds = [] ∧
    ((base { q := [(1, lq 3)] }).queue 1).ssz = 0 ∧
    (let s := base { q := [(1, lq 3), (2, lq 7)] }
     s.bun.holds = [] ∧ LaneSource 2 s ∧ LaneSource 0x111 s ∧ LaneSource 0x203 s ∧ LaneSource 0x301 s ∧
       LaneDest 0x82 [0x111, 0x203] s ∧ LaneDest 3 [2] s) :=
  ⟨rfl, ⟨rfl, ⟨_, rfl⟩, rfl⟩, ⟨⟨_, rfl, rfl⟩, rfl, rfl⟩, ⟨⟨_, rfl, rfl⟩, rfl, rfl⟩, ⟨_, ⟨_, rfl, rfl⟩, rfl, rfl⟩, ⟨⟨_, rfl, rfl⟩, rfl, rfl⟩, rfl, rfl, rfl, rfl,
    by decide, lsource _ _ (by decide) rfl rfl, lqueue, lsource _ _ (by decide) rfl rfl, lsource _ _ (by decide) rfl rfl, fun _ => ⟨rfl, .inr (.inl (by decide))⟩, nofun⟩

theorem witness_SpecialFunctions : (let s := base { q := [(1, lq 3), (2, lq 7)] }
      s.guard 0 = true ∧ s.bun.holds = [] ∧ LaneSource 2 s ∧ LaneSource 0x111 s ∧ LaneDest 3 [2] s ∧ LaneDest 0x82 [0x111] s ∧ s.core.fBusy = 0) ∧
    ((base {}).modCore 0 (fun c => { c with fBusy := 3 })).core.fBusy ≠ 0 ∧
    ekind 3 ≠ .res ∧ SFn.exact .exp2 3 (-1) = false ∧ (Nat.log2 3 : Int) + -1 < 8 ∧ 20 ≤ (Nat.log2 1 : Int) + 20 ∧
    (SFn.approx .exp2 true 301 (-1)).tiny = true := by
  refine ⟨⟨by decide, by decide, lsource _ _ (by decide) rfl rfl, lqueue, nofun,
    fun _ => ⟨rfl, .inr (.inl (by decide))⟩, by decide⟩, by decide, by decide, by decide, by decide, by decide, by decide⟩

/-! Streams 1, 2 and 3 bind queues 1, 2 and 3, whose slots have 512 bytes, as formats `fa`, `fb` and `fd`; D1 and D2 are read, D3 is appended. -/

def pv (qn fmt : Nat) : BitVec 256 := BitVec.ofNat 256 (1 + qn * 8 + fmt * 128)
def pCtx (fa fb fd : Nat) : Ctx :=
  { q := [(1, lq 3), (2, { lq 3 with base := 64 }), (3, { lq 3 with base := 128 })], bind := { spanBytes := 131072 },
    regs := { d := [(1, pv 1 fa), (2, pv 2 fb), (3, pv 3 fd ||| 5#256 <<< 40)] } }
/-- Every block of the span has the tag that agrees with every format. -/
def pst (fa fb fd : Nat) : State := base (pCtx fa fb fd)
def pw (tf tt : BitVec 4) (imm : BitVec 10) : PForm := { g := 0, tf := tf, tt := tt, gm := 255, dst := 0x83, a := 0x110, b := 0x120, imm := imm }

/-- The parts of `PermuteReady`. -/
theorem pready (x : PForm) (useB : Bool) (bt : Option Nat) (swz sc : Bool) (s : State) (h : s.guard x.g = true ∧ s.bun.holds = [] ∧ s.core.kBusy = 0 ∧
      (s.stream (PStream x.a)).en = true ∧ (s.stream (PStream x.a)).kind = 0 ∧ (s.stream (PStream x.b)).en = true ∧ (s.stream (PStream x.b)).kind = 0 ∧
      (∀ t, bt = some t → (s.stream (PStream x.b)).fmt = t) ∧ (s.stream (PStream x.b)).swz = 0 ∧ (s.stream (x.dst.toNat % 16)).en = true ∧
      (s.stream (x.dst.toNat % 16)).kind = 0 ∧ (s.stream (PStream x.a)).fmt = x.tf.toNat ∧ (s.stream (x.dst.toNat % 16)).fmt = x.tt.toNat ∧
      (s.stream (PStream x.a)).swz = 0 ∧ (s.stream (x.dst.toNat % 16)).swz = 0 ∧ (s.stream (x.dst.toNat % 16)).sq ≠ (s.stream (x.dst.toNat % 16)).qn)
    (a : PermuteSource x.a s) (b : PermuteSource x.b s)
    (r : MayAppend (s.stream (x.dst.toNat % 16)).qn (PermutePops x useB (s.stream (x.dst.toNat % 16)).qn s) s)
    (c : MayAppend (s.stream (x.dst.toNat % 16)).sq (PermutePops x useB (s.stream (x.dst.toNat % 16)).sq s) s) : PermuteReady x useB bt swz sc s :=
  let ⟨g, k, kb, ea, ka, eb, kb', fb, sb, ed, kd, fa, fd, sa, sd, q⟩ := h
  ⟨g, ⟨k, kb⟩, ⟨ea, ka⟩, fun _ => ⟨eb, kb', fb, fun _ => sb⟩, ⟨ed, kd⟩, ⟨fa, fd⟩, fun _ => ⟨sa, sd⟩, ⟨a, fun _ => b⟩, r, fun _ => ⟨q, c⟩⟩

/-- The instruction kinds with their types; the shuffle and the transpose leave B's format free, the table lookup asks for that of the result. -/
theorem witness_PermuteInstructions :
    PermuteReady (pw 0 0 0) false none false false (pst 0 0 0) ∧ PermuteReady (pw 0 1 0) true (some 0) false false (pst 0 0 1) ∧
    PermuteReady (pw 1 0 0) false none false false (pst 1 0 0) ∧ PermuteReady (pw 0 0 0) true (some 12) false false (pst 0 12 0) ∧
    PermuteReady (pw 0 3 8) false none false true (pst 0 0 3) ∧ ((pst 0 0 3).stream 3).scen = true ∧
    PermuteReady (pw 0 0 1023) (shufUsesB (pw 0 0 1023)) none false false (pst 0 5 0) ∧
    PermuteReady (pw 0 0 0) false none true false (pst 0 0 0) ∧ PermuteReady (pw 5 0 127) true (some 0) false false (pst 5 0 0) := by
  refine ⟨?_, ?_, ?_, ?_, ?_, by decide, ?_, ?_, ?_⟩ <;>
    exact pready _ _ _ _ _ _ ⟨rfl, rfl, rfl, rfl, rfl, rfl, rfl, (by rintro _ ⟨⟩; try rfl), rfl, rfl, rfl, rfl, rfl, rfl, rfl, by decide⟩
      (by unfold PermuteSource QueueSource SlotPresent; decide) (by unfold PermuteSource QueueSource SlotPresent; decide)
      (by unfold MayAppend PermutePops PopsOf; decide) (by unfold MayAppend PermutePops PopsOf; decide)

/-! Party 1's region of 4,096 bytes, whose chain is party 3; parties 1, 2 and 3 are tasks, of which 2 and 3 live. -/

def p1 : Word := 0x100001
def p2 : Word := 0x100002
def p3 : Word := 0x100003
def reg1 : Region := { base := 0x8000, sz := 0, owner := p1, chain := [p3] }
def own1 (rs : Tab Region) : Ownership := { regions := rs, live := [p1, p2, p3], dead := [{ party := 0x100009, launch := 0x300001, cores := [0], no := 9 }] }

/-- S2 holds the designator of the page, S5 party 2. -/
def asker (priv : Bool) (r : Tab Region) : State :=
  { paged { bind := { party := p1, tkadm := priv }, regs := { s := [(2, 0x400000), (5, p2)] } } true [] with own := own1 r }
def mT : MForm := { g := 0, sz := 0, sc := 1, data := 4, base := 2, idx := 5, at16 := 0, disp := 0 }

theorem may_ask (r : TokReq) (k : Nat) (s : State) (p : Piece) (h1 : r.op.reads = false → s.data.bind.phaseBound = false) (h2 : desOk (s.designator mT) = true)
    (h3 : s.desBase s.cur s.data (s.designator mT) = .pieces [p] ∧ p.pa = r.base ∧ s.tokenPending [p] = false) (h4 : s.own.tokenCause r = none)
    (h5 : HasRoom s) (h6 : s.me.land.length + k ≤ 32) : MayAsk r mT k s :=
  ⟨h1, h2, ⟨p, h3.1, h3.2.1, fun _ => h3.2.2⟩, h4, h5, h6⟩

theorem asker_base : (asker true [(0x8000, reg1)]).designator mT = 0x400000 ∧
    (asker true [(0x8000, reg1)]).desBase 0 (asker true [(0x8000, reg1)]).data 0x400000 = .pieces [⟨0x8000, 4096, true, false, false, 0x400000⟩] := by decide

theorem witness_TokenInstructions : (∀ op ∈ [TokOp.retn, .plain, .atomic, .destroy, .chain 3, .lend, .lendPass, .share, .clean, .reinit, .create, .seize, .query],
      let s := asker true [(0x8000, reg1)]
      MayAsk (Request op mT p2 0x8000 s) mT 2 s) ∧
    (asker true []).guard mT.g = true ∧ (asker true []).bun.holds = [] ∧ (asker true []).me.badS = [] ∧ (asker true []).sreg mT.idx = p2 ∧ 3 < p2.toNat ∧
    (asker false []).data.bind.phaseBound = false ∧ (asker false []).inService = false ∧ (asker false []).data.bind.tkadm = false ∧
    (asker false []).own.exact 0x8000 0 = none ∧ (asker false [(0x8000, { reg1 with shares := 1 })]).own.exact 0x8000 0 = some { reg1 with shares := 1 } ∧
    desOk ((base { regs := { s := [(2, 0x400021)] } }).designator mT) = false ∧
    (let s := asker true [(0x8000, reg1)]
     s.own.tokenCause (Request .split mT 0 0x8000 s) = none ∧
       (asker true [(0x7000, { reg1 with base := 0x7000 }), (0x8000, reg1)]).own.tokenCause { Request .join mT 0 0x7000 s with sz := 1 } = none ∧
       ({ own1 [(0x8000, { reg1 with shares := 1, owner := p2 })] with shares := [(0x8000, p1)] } : Ownership).tokenCause (Request .unshr mT 0 0x8000 s) = none) := by
  refine ⟨?_, by decide, by decide, by decide, by decide, by decide, by decide, by decide, by decide, by decide, by decide, by decide, by decide, by decide, by decide⟩
  intro op h
  simp only [List.mem_cons, List.not_mem_nil, or_false] at h
  rcases h with h | h | h | h | h | h | h | h | h | h | h | h | h <;> subst h <;>
    exact may_ask _ _ _ ⟨0x8000, 4096, true, false, false, 0x400000⟩ (by decide) (by decide) ⟨by rw [asker_base.1]; exact asker_base.2, rfl, rfl⟩ rfl (by unfold HasRoom AddrSound; decide) (by decide)

/-- Request `q` in flight under number 3 over the tokens `o`. -/
def slice (o : Ownership) (q : TokReq) : State := { base {} with flight := [(3, { core := 0, ctx := 0, msg := .token q })], own := o }
def tq (op : TokOp) : TokReq := { op := op, base := 0x8000, sz := 0, self := p1, target := p2, priv := true }

theorem takes (o : Ownership) (q : TokReq) (hw : q.answered = false) (fr : (slice o q).entryBusy 3 q.base (2 ^ (12 + q.sz)) = false)
    (m : (slice o q).mayPerform 3 { core := 0, ctx := 0, msg := .token q } = true)
    (n : (slice o q).cutOff { core := 0, ctx := 0, msg := .token q } = false ∧ (slice o q).afar (.token q) = false) (r : o.tokenCause q = none) :
    TakesTurn 3 { core := 0, ctx := 0, msg := .token q } q (slice o q) := ⟨rfl, rfl, ⟨hw, rfl⟩, fr, m, n, r⟩

/-- The operations on a held region, on an orphan, on two halves, on no region; each has status OK. -/
def turns : List (Ownership × TokReq) :=
  [.lend, .lendPass, .plain, .atomic, .retn, .share, .seize, .destroy].map (fun op => (own1 [(0x8000, reg1)], tq op)) ++
  [.clean, .reinit].map (fun op => (own1 [(0x8000, { reg1 with st := .orphan })], tq op)) ++
  [({ own1 [(0x8000, { reg1 with shares := 1, owner := p2 })] with shares := [(0x8000, p1)] }, tq .unshr), (own1 [], tq .create),
   (own1 [(0x8000, { reg1 with sz := 1 })], { tq .split with sz := 1 }),
   (own1 [(0x8000, reg1), (0x9000, { reg1 with base := 0x9000 })], { tq .join with sz := 1 })]

set_option maxRecDepth 4096 in
theorem witness_TokenSlice : (∀ e ∈ turns, e.1.tokenCause e.2 = none ∧ (slice e.1 e.2).tokenStatus e.2 = 0 ∧ e.2.op.reads = false) ∧
    (∀ e ∈ turns, (slice e.1 e.2).mayPerform 3 { core := 0, ctx := 0, msg := .token e.2 } = true ∧
      (slice e.1 e.2).entryBusy 3 e.2.base (2 ^ (12 + e.2.sz)) = false ∧ (slice e.1 e.2).cutOff { core := 0, ctx := 0, msg := .token e.2 } = false ∧ (slice e.1 e.2).afar (.token e.2) = false ∧
      (slice e.1 e.2).fencePredsDone 3 { core := 0, ctx := 0, msg := .token e.2 } 31 ((slice e.1 e.2).tokenScope 0 e.2) = true) ∧
    (∀ e ∈ turns, ∀ m ∈ (slice e.1 { e.2 with invSent := true }).flight, m.2.msg ≠ .inval 3) ∧ ((slice (own1 []) (tq .me)).coreAt 0).l1 = [] ∧
    (slice (own1 [(0x8000, reg1)]) { tq .lend with target := p1 }).tokenStatus { tq .lend with target := p1 } = 5 ∧
    (own1 [(0x8000, reg1)]).regionAt 0x8000 = some reg1 ∧ reg1.sz ≤ 18 ∧ reg1.chain.length ≤ 4 ∧ (own1 []).regionAt 0x8000 = none ∧
    (let s := slice (own1 []) (tq .retn)
     s.live p3 = true ∧ p1 ∈ s.own.live ∧ s.live 0x300001 = false) ∧
    (let d : Dead := { party := 0x100009, launch := 0x300001, cores := [0], no := 9 }
     let s := slice (own1 [(0x8000, { reg1 with owner := d.party })]) (tq .retn)
     s.own.dead.find? (fun e => e.party == d.party) = some d ∧ s.own.regions.sorted = true ∧ (∀ e ∈ s.own.regions, e.2.base = e.1) ∧
       s.homeDie 0x8000 = 0 ∧ s.oldAccess d.no 0 0x8000 4096 = false) ∧
    (let s : State := { slice (own1 []) (tq .retn) with flight := [(3, { core := 0, ctx := 0, msg := .token (tq .retn) }), (4, { core := 0, ctx := 0, msg := .inval 3 })] }
     Tab.find s.flight 4 = some { core := 0, ctx := 0, msg := .inval 3 } ∧ s.oldAccess 4 0 0x8000 4096 = false) := by decide

/-! Descriptors at the start of the window of context 0, as bytes (R258, R274). -/

/-- A check succeeds with a state of which `p` is true. -/
theorem ok_of (e : Except Stop State) (p : State → Bool) (h : (match e with | .ok t => p t | .error _ => false) = true) :
    ∃ t, e = .ok t ∧ p t = true := by
  cases e with
  | ok t => exact ⟨t, rfl, h⟩
  | error _ => cases h

def desc (bs : List (Nat × Byte)) (x : Ctx) : State :=
  { base { x with bind := { x.bind with spanBytes := 65536 } } with mem := bs.map (fun b => (scratchPA 0 + b.1, b.2)) }
/-- Nothing holds the bundle and every register is good. -/
def cleanB (t : State) : Bool := t.bun.holds.isEmpty && t.me.badS.isEmpty
def mE : MForm := { g := 0, sz := 0, sc := 1, data := 0, base := 0, idx := 0, at16 := 0, disp := 0 }
/-- 64 bytes from 0x400 to 0x800, INC 1; CPYM to its own core; CPYQ and CPY into queue 1, of 512 bytes. -/
def cpyD : State := desc [(1, 4), (9, 8), (24, 64), (29, 1)] {}
def cpymD : State := desc [(1, 4), (9, 8), (24, 64), (29, 1), (42, 8)] {}
def cpyqD : State := desc [(1, 4), (25, 2), (29, 1), (40, 192)] { q := [(1, outq 0)] }
def cpyfD : State := desc [(1, 4), (9, 8), (24, 64), (29, 1)] { bind := { phaseBound := true, snap := 8192 }, phase := { out := 4096, blocks := 1 } }
def cpyToQ : State := desc [(1, 4), (25, 2), (29, 1), (40, 192)] { q := [(1, lq 7)] }
/-- COUNT 4 at MSRC 0x800, RATE 1, G 1, into queue 0. -/
def sxD : State := desc [(1, 8), (16, 4), (28, 1), (30, 1)] { q := [(0, lq 7)] }

theorem witness_EngineInstructions_copies : (∃ t, copyIssue .cpy mE cpyD = .ok t ∧ cleanB t = true) ∧ (∃ t, copyIssue .cpy mE cpyToQ = .ok t ∧ cleanB t = true) ∧
    (∃ t, copyIssue .cpym mE cpymD = .ok t ∧ cleanB t = true) ∧ (∃ t, copyIssue .cpyn mE cpyD = .ok t ∧ cleanB t = true) ∧
    (∃ t, copyIssue .cpyq mE cpyqD = .ok t ∧ cleanB t = true) ∧ (∃ t, copyIssue .cpyf mE cpyfD = .ok t ∧ cleanB t = true) ∧
    (∃ t, sxIssue false mE sxD = .ok t ∧ cleanB t = true) ∧ (∃ t, sxIssue true mE sxD = .ok t ∧ cleanB t = true) :=
  ⟨ok_of _ _ (by decide +kernel), ok_of _ _ (by decide +kernel), ok_of _ _ (by decide +kernel), ok_of _ _ (by decide +kernel), ok_of _ _ (by decide +kernel), ok_of _ _ (by decide +kernel),
    ok_of _ _ (by decide +kernel), ok_of _ _ (by decide +kernel)⟩

theorem witness_EngineInstructions_cpy : cpyD.guard mE.g = true ∧ MayCopy .cpy mE cpyD ∧ MayCopy .cpyn mE cpyD ∧
    (let s := cpyD; let d := CopyOf mE s
     d.dqk = false ∧ SpanRows d.dst d.dpitch d.len d.rows s ∧ s.cur < 384 ∧ s.data.bind.spanBase + s.data.bind.spanBytes ≤ 0x180000 ∧
      s.ea mE < 0x200000 ∧ s.data.bind.phaseBound = false) := by
  unfold MayCopy SpanRows DescAt AddrSound; decide +kernel

theorem witness_EngineInstructions_cpym : MayCopy .cpym mE cpymD ∧ (CopyOf mE cpymD).dst % 64 = 0 ∧ (CopyOf mE cpymD).dpitch % 64 = 0 ∧
    cpymD.mcastCores (CopyOf mE cpymD) = [0] ∧ MayTarget (CopyOf mE cpymD) 0 cpymD := by
  unfold MayCopy SpanRows DescAt AddrSound MayTarget; decide +kernel

theorem witness_EngineInstructions_cpyq : MayCopy .cpyq mE cpyqD ∧ (cpyqD.queue (CopyOf mE cpyqD).dq).mode = .spliceOut ∧
    (CopyOf mE cpyqD).bytes = (cpyqD.queue (CopyOf mE cpyqD).dq).slotBytes ∧ MayAppend (CopyOf mE cpyqD).dq 0 cpyqD := by
  unfold MayCopy SpanRows DescAt AddrSound MayAppend; decide +kernel

theorem witness_EngineInstructions_cpyf : MayCopy .cpyf mE cpyfD ∧ (let s := cpyfD; let d := CopyOf mE s
    SpanRows d.dst d.dpitch d.len d.rows s ∧ s.data.bind.phaseBound = true ∧ s.data.phase.reg.length < 4 ∧ d.rows = 1 ∧
      d.dst + d.len ≤ s.data.phase.out ∧ d.dst + d.len ≤ s.data.bind.snap) := by
  unfold MayCopy SpanRows DescAt AddrSound; decide +kernel

theorem witness_EngineInstructions_sparse : MayIndex false mE sxD ∧ MayIndex true mE sxD := by unfold MayIndex DescAt AddrSound; decide +kernel

theorem witness_EngineInstructions : cpyD.ea { mE with disp := 8 } % 64 ≠ 0 ∧ (desc [] {}).data.bind.spanBytes < (desc [] {}).ea { mE with disp := 65536 - 0 } + 64 ∧
    (CopyOf mE (desc [] {})).inc = 0 ∧ HasRoom cpyD ∧ cpyD.bun.holds = [] ∧ cpyD.me.land.length < 32 ∧ cpyD.me.badS = [] ∧ (cpyD.sreg mE.base).toNat < 32 ∧
    32 ≤ ((base { regs := { s := [(2, 32)] } }).sreg mS.base).toNat := by unfold HasRoom AddrSound; decide +kernel

/-! Operations in the table: a copy of 64 bytes from 0x8000 to 0x9000, a sparse-index operation. -/

def cD : CopyDesc := copyDesc (64 * 2 ^ 192 + 2 ^ 232)
def copyOp (k : CopyKind) (d : CopyDesc) (todo : List Nat) : CopyOp :=
  { kind := k, d := d, src := [[⟨0x8000, 64, false, false⟩]], dst := [[⟨0x9000, 64, false, false⟩]], todo := todo }
def op (b : EngBody) : EngOp := { core := 0, ctx := 0, ent := 0, prio := 7, party := 0, comp := some (scratchPA 0 + 0xA000), inc := 1, started := true, body := b }
def engine (o : EngOp) : State := { base {} with ops := [(3, o)] }
def sxo : SxOp := { run := false, desc := 0, count := 4, cbase := 0, rbase := 0, rate := 1, oq := 0, rq := 0, rqen := false, wide := false, g := 4, pad := 0,
                    src := [⟨0x8000, 8, false, false⟩], words := [6], got := 1, oslot := some ⟨0, 0⟩ }

theorem witness_EngineEvents_copies : (let o := { op (.copy (copyOp .cpy cD [0])) with started := false }
     let s := engine o
     (s.ops.filter (fun e => e.2.core / 96 == 0 && e.2.started && e.2.copy?.isSome)).length < 16 ∧ s.nextCopy 0 = some (3, o) ∧ s.forkReady 3 o = true) := by decide

theorem witness_EngineEvents_piece : (let c := copyOp .cpy cD [0]
     let o := op (.copy c)
     let s := engine o
     let p := c.d.piece 0
     let r := cutRow [⟨0x8000, 64, false, false⟩] p.2.1 p.2.2
     let out := cutRow [⟨0x9000, 64, false, false⟩] p.2.1 p.2.2
     HasOp 3 o s ∧ 0 ∈ c.todo ∧ c.src[p.1]? = some [⟨0x8000, 64, false, false⟩] ∧ c.dst[p.1]? = some [⟨0x9000, 64, false, false⟩] ∧
       o.since ≤ s.cycle ∧ o.back ≠ some s.cycle ∧ o.turn ≠ some s.cycle ∧ 0 ∉ c.asked ∧ 0 ∈ ({ c with asked := [0] } : CopyOp).asked ∧
       s.withdrawing (pairs r ++ pairs (out ++ s.compRow o)) = false ∧ s.opCause o r out = none ∧ s.atBank (pairs r) = false ∧
       s.opCause { o with body := .copy { c with asked := [0] } } r out = none ∧
       (∀ q ∈ pairs r, s.remote q.1 = false ∧ q.1 / 4096 ≠ capBase / 4096 ∧ s.badRange q.1 q.2 = false) ∧
       (match s.payEngine 3 o (pairs r) with | .ok _ => true | .error _ => false) = true ∧ ((s.ctxAt o.core o.ctx).bind.phaseBound = false) ∧
       (∃ q ∈ pairs r, ({ s with bad := [0x8000 / 32] } : State).badRange q.1 q.2 = true) ∧ c.slot = none ∧ c.targets = [] ∧ c.srcQ = none) := by unfold HasOp; decide

theorem witness_EngineEvents_end : (let s : State := { engine (op (.copy (copyOp .cpy cD []))) with flight := [(4, { core := 0, ctx := 64, msg := .piece 3 [(0x9000, [1])] false [] })] }
     Tab.find s.flight 4 = some { core := 0, ctx := 64, msg := .piece 3 [(0x9000, [1])] false [] } ∧ s.remote 0x9000 = false ∧ s.presentAt 0x9000 1 = false) ∧
    (let c := copyOp .cpy cD []
     let s := engine (op (.copy c))
     s.withdrawing (pairs (s.compRow (op (.copy c)))) = false ∧ s.opCause (op (.copy c)) [] [] = none ∧
     c.todo = [] ∧ c.left = 0 ∧ c.d.dqk = false ∧ (engine (op (.copy c))).appendOut (op (.copy c)) c = false ∧ (engine (op (.copy c))).mem.wf = true) ∧
    (let c := copyOp .cpyn cD []
     let s : State := { cores := [(0, { ctxs := [(1, { status := .dormant, bind := { isNotify := true } })] })], ops := [(3, op (.copy { c with d := { cD with tctx := 1 } }))] }
     c.notified = false ∧ s.olderNotify 3 (op (.copy c)) c = false ∧ (s.ctxAt 0 1).status = .dormant ∧ (s.ctxAt 0 1).bind.isNotify = true ∧
       (s.ctxAt 0 1).notifies.length < 4) ∧
    (let c : CopyOp := { copyOp .cpym { cD with dqk := true, dq := 1, len := 1024 } [1] with targets := [(0, .waiting), (1, .slot 3)] }
     let s : State := { base { q := [(1, { lq 7 with ssz := 1 })] } with ops := [(3, op (.copy c))] }
     Tab.find c.targets 0 = some .waiting ∧ c.todo.length ≠ c.d.pieces ∧ s.olderDelivery 3 (op (.copy c)) c 0 = false ∧ ((s.ctxAt 0 c.d.tctx).queue 1).mode = .localQ ∧
       (let c' : CopyOp := { c with todo := [], targets := [(0, .slot 3)] }
        let r := s.targetRow 0 0 c'.d 0 0 0 0
        s.withdrawing (pairs r) = false ∧ s.opCause (op (.copy c')) [] r = none ∧ s.opReports (op (.copy c')) (s.slotRow 0 c' 3) = []) ∧
       ((s.ctxAt 0 c.d.tctx).queue 1).slotBytes = c.d.bytes ∧ ((s.ctxAt 0 c.d.tctx).queue 1).roomAtPort = true ∧ Tab.find c.targets 1 = some (.slot 3)) := by
  decide

theorem witness_EngineEvents_sparse : let o := { op (.sparse { sxo with words := [], got := 0 }) with started := false }
    (engine o).sxRunning 0 = none ∧ (engine o).sxWaiting 0 = [(3, o)] ∧ (engine o).forkReady 3 o = true := by decide

/-- The operation has asked for `a` words of its metadata at `pa`, and none has come. -/
def fetcher (pa a : Nat) : SxOp := { sxo with words := [], got := 0, asked := a, src := [⟨pa, 8, false, false⟩] }

/-- The first word is asked for; it is at its bank, and with it there is room to ask for another; then it comes. -/
theorem witness_EngineEvents_metadata : let x := { fetcher 0x200000000 1 with count := 100, src := [⟨0x200000000, 16, false, false⟩] }
    let o := op (.sparse x)
    let s : State := { engine o with banks := [(dbankOf 0x200000000, { queue := [{ row := 0, line := 0x4000000, kind := .read }] })] }
    s.sxRunning 0 = some (3, o, x) ∧ s.sxHalted o = false ∧ x.ending = none ∧ o.since ≤ s.cycle ∧
      s.withdrawing (pairs (x.wordRow 0) ++ pairs (s.compRow o)) = false ∧ s.opCause o (x.wordRow 0) [] = none ∧
      s.withdrawing (pairs (x.wordRow 1) ++ pairs (s.compRow o)) = false ∧ s.opCause o (x.wordRow 1) [] = none ∧
      s.atBank (pairs (x.wordRow x.got)) = true ∧ x.got < x.asked ∧ x.asked < (x.count + 63) / 64 ∧ x.asked - x.got + x.words.length < 16 ∧
      (match s.payEngine 3 o (pairs (x.wordRow 1)) with | .ok _ => true | .error _ => false) = true := by decide

theorem witness_EngineEvents_arrival : let x := fetcher 0x8000 1
    let o := op (.sparse x)
    let s := engine o
    s.sxRunning 0 = some (3, o, x) ∧ s.sxHalted o = false ∧ x.ending = none ∧ o.since ≤ s.cycle ∧ x.got < x.asked ∧
      s.withdrawing (pairs (x.wordRow 0) ++ pairs (s.compRow o)) = false ∧ s.opCause o (x.wordRow 0) [] = none ∧ s.atBank (pairs (x.wordRow 0)) = false ∧
      ∀ p ∈ pairs (x.wordRow 0), s.remote p.1 = false ∧ s.badRange p.1 p.2 = false ∧ p.1 / 4096 ≠ capBase / 4096 := by decide

theorem witness_EngineEvents_emit : let o := op (.sparse sxo)
    (engine o).sxRunning 0 = some (3, o, sxo) ∧ (engine o).sxHalted o = false ∧ sxo.ending = none ∧ o.turn ≠ some (engine o).cycle ∧
      sxo.words = 6 :: [] ∧ sxo.oslot = some ⟨0, 0⟩ ∧ 0 + 1 < sxo.g ∧ 0 / 64 * 64 + 1 < sxo.count ∧
      Nat.testBit 6 1 = true ∧ (∀ i < 1, sxo.pos ≤ sxo.pos / 64 * 64 + i → Nat.testBit 6 i = false) ∧ sxo.cbase + 0 + 1 ≤ sxo.top := by decide

theorem witness_EngineEvents_finish : let x := { sxo with words := [], pos := 4, oslot := none }
    let o := op (.sparse x)
    let o' := op (.sparse { x with ending := some 0 })
    let s : State := { engine o' with cycle := 4 }
    (engine o).sxFinishing 0 = some (3, o, x) ∧ x.rslot = none ∧ (engine o).mem.wf = true ∧ s.sxFinishing 0 = some (3, o', { x with ending := some 0 }) ∧
      0 + 4 ≤ s.cycle ∧ s.withdrawing (pairs (s.compRow o')) = false ∧ s.opCause o' [] [] = none := by decide

/-! A task with the array flag whose streams 1 and 2 declare blocks of 32 lines of 4 BF16 elements in queues 1 and 2. -/

def mv (qn fmt : Nat) : BitVec 256 := BitVec.ofNat 256 (1 + qn * 8 + fmt * 128 + 31 * 2 ^ 15 + 31 * 2 ^ 23 + 3 * 2 ^ 31)
def mCtx : Ctx :=
  { q := [(1, lq 3), (2, { lq 3 with base := 64 }), (3, { lq 7 with base := 128 })], bind := { spanBytes := 131072, array := true },
    regs := { d := [(1, mv 1 1), (2, mv 2 1)] } }
def xm : XForm := { g := 0, cell := 0, bank := 1, a := 1, b := 2, q := 3, fmt := 1, flags := 0, slice := 0 }
def withArr (a : MArray) : State := (base mCtx).modCore 0 (fun y => { y with arr := a })
def stag : Staging := { fa := 1, fb := 1, a := [], b := [], ea := [], eb := [] }
def drn : OpenDrain := { q := 3, idx := 7, rem := none, fmt := 1, m := 1, groups := 2, data := [] }

theorem slices (d : Nat) (rows : Bool) (h : d = 1 ∨ d = 2) : SliceReady d 0 4 2 rows (base mCtx) := by
  rcases h with h | h <;> subst h <;> cases rows <;>
    exact ⟨.inl (by decide), by decide, by decide, by decide +kernel, by decide +kernel⟩

theorem witness_MatrixArray_pushes : (base mCtx).guard xm.g = true ∧ (base {}).data.bind.array = false ∧ (base mCtx).data.bind.array = true ∧
    (base mCtx).core.arr.staging.isNone = true ∧ (base mCtx).bun.holds = [] ∧ (withArr { staging := some stag }).core.arr.staging = some stag ∧
    SliceReady xm.a.toNat xm.slice.toNat 4 2 true (base mCtx) ∧ SliceReady xm.b.toNat xm.slice.toNat 4 2 false (base mCtx) ∧ xm.flags.getLsbD 1 = false ∧
    (∃ t, pushIssue xm 0 (base mCtx) = .ok t ∧ (t.bun.holds.isEmpty && (match fetchCheck 1 0 false t with | .ok u => decide (u = t) | .error _ => false) &&
      (match fetchCheck 2 0 false t with | .ok u => decide (u = t) | .error _ => false)) = true) ∧
    (∃ t, pushIssue xm 3 (base mCtx) = .ok t ∧ t.bun.holds.isEmpty = true) :=
  ⟨rfl, rfl, rfl, rfl, rfl, rfl, slices 1 true (.inl rfl), slices 2 false (.inr rfl), by decide, ok_of _ _ (by decide +kernel), ok_of _ _ (by decide +kernel)⟩

/-- A drain into a new slot and into an open one. -/
theorem witness_MatrixArray_drain : ((base mCtx).core.arr.bank 1).drain = none ∧ (∃ t, appendSlot 3 (base mCtx) = .ok t ∧ t.bun.holds.isEmpty = true) ∧
    ((base mCtx).queue 3).mode = .localQ ∧ groupsOf ((base mCtx).queue 3).slotBytes (drainWidth xm.fmt.toNat) = some 2 :=
  ⟨by decide +kernel, ok_of _ _ (by decide +kernel), by decide +kernel, by decide +kernel⟩

theorem witness_MatrixArray_open : DrainsInto xm drn (withArr { b1 := { drain := some drn } }) (withArr { b1 := { drain := some drn } }) ∧ drn.data.wf = true ∧
    drn.m + 1 = drn.groups ∧ ({ drn with q := 2 } : OpenDrain).q ≠ xm.q.toNat ∧ 8 * 1 < (15 + 1) * 2 :=
  ⟨.inl ⟨rfl, rfl, rfl, rfl, rfl, by decide⟩, rfl, rfl, by decide, by decide⟩

/-- A load from the head slot of queue 1 as a tile. -/
theorem witness_MatrixArray_load : (let s := base mCtx
    (s.core.arr.bank 1).load = none ∧ (s.core.arr.bank 1).bad = [] ∧ (s.queue 1).mode = .localQ ∧ 0 < (s.queue 1).used ∧ (s.queue 1).ssz ≤ 7 ∧
      (s.queue 1).pmap.getLsbD ((s.queue 1).at 0) = true ∧ s.badRange (s.slotPA 1 0) (s.queue 1).slotBytes = false ∧
      tagOk (s.tagAt (s.slotPA 1 0 + 512 * 0)) 0 0 = true ∧ tagOk (s.tagAt (s.slotPA 1 0 + 512 * 0)) 11 0 = true) := by decide +kernel

theorem witness_MatrixArray_landings : (let e : Beat := ⟨0, 1, 0, stag⟩
     ((withArr { beats := [e, ⟨3, 0, 0, stag⟩] }).coreAt 0).arr.beats.filter (fun e => e.due == 0) = [e] ∧ e.bank = 1) ∧
    ((base { pend := [{ due := 0, slot := 9, w := .slot 3 7 1 [1, 2] }] }).ctxAt 0 0).pend = [{ due := 0, slot := 9, w := .slot 3 7 1 [1, 2] }] ∧
    (∀ j < 6, j ≠ 0 → ((base { pend := [{ due := 0, slot := 9, w := .slot 3 7 1 [1, 2] }] }).ctxAt 0 j).pend = []) := by decide +kernel

/-- Core 0 as given, running context 0. -/
def coreSt (y : Core) (x : Ctx) : State := { cores := [(0, { y with ctxs := [(0, x)] ++ y.ctxs, running := some 0 })] }
def run0 : Ctx := { status := .running }

theorem witness_CoreEvents_cycle : (let s := coreSt { ilock := true } { run0 with pend := [{ due := 1, slot := 0, w := .s 4 9 }] }
     (s.coreAt 0).ilock = true ∧ s.coreGang 0 = none ∧ 0 = (s.coreAt 0).issuing ∧ (s.ctxAt 0 0).ticked = false ∧ (s.ctxAt 0 0).status ≠ .held ∧ (s.ctxAt 0 0).land = [] ∧
       (s.ctxAt 0 0).pend = [{ due := 1, slot := 0, w := .s 4 9 }]) ∧
    (∀ j < 5, j ≠ 0 → ((coreSt { ilock := true } run0).ctxAt 0 j).pend = [] ∧ ((coreSt { ilock := true } run0).ctxAt 0 j).land = []) ∧
    (∀ p ∈ ((coreSt { ilock := true } { run0 with pend := [{ due := 2, slot := 0, w := .s 4 9 }] }).ctxAt 0 0).pend, 2 ≤ p.due ∧ p.flaw = 0) ∧
    (let s := coreSt { freeze := [.absent 1 2] } { run0 with q := [(1, lq 3)] }
     (s.coreAt 0).freeze = [.absent 1 2] ∧ (s.coreAt 0).svcFreeze = [] ∧ (s.coreAt 0).running = some 0 ∧ ((s.ctxAt 0 0).queue 1).pmap.getLsbD 2 = true) ∧
    (let s := coreSt { freeze := [.absent 1 1] } { run0 with q := [(1, inq)] }
     (s.coreAt 0).freeze = [.absent 1 1] ∧ (s.ctxAt 0 0).now = false ∧ ((s.ctxAt 0 0).queue 1).pmap.getLsbD 1 = false ∧ ((s.ctxAt 0 0).queue 1).mode = .spliceIn) := by
  decide

theorem witness_CoreEvents_cleared : Cleared 0 0 .late (coreSt {} { run0 with land := [{ due := 0, slot := 7, flight := 1, w := .s 1 0, arrived := true }] }) ∧
    Cleared 0 0 .requests (coreSt {} run0) ∧ Cleared 0 0 (.noRoom 1) (coreSt {} { run0 with q := [(1, outq 3)] }) ∧
    Cleared 0 0 (.wait (.slot 1 2)) (coreSt {} { run0 with q := [(1, lq 3)] }) ∧ Cleared 0 0 (.wait (.room 1 4)) (coreSt {} { run0 with q := [(1, outq 0)] }) ∧
    Cleared 0 0 (.unsplice 1) (coreSt {} { run0 with q := [(1, outq 0)] }) ∧ Cleared 0 0 (.latch 1) (coreSt { latch1 := { ready := true } } run0) ∧
    Cleared 0 0 .walk (coreSt { walks := [{ asn := 0, va := 0, level := 3, table := 0, failed := true }] } run0) := by unfold Cleared; decide

theorem witness_CoreEvents_waits : (let s := coreSt {} { wait := some (.slot 1 2), status := .waiting, q := [(1, lq 3)] }
     (s.ctxAt 0 0).wait = some (.slot 1 2) ∧ (s.ctxAt 0 0).status = .waiting) ∧
    (let s : State := { cores := [(0, { ctxs := [(0, { wait := some (.object (scratchPA 0 + 64) 0), status := .waiting })] })] }
     s.targetOf (scratchPA 0 + 64) = .scratch 0 ∧ (scratchPA 0 + 64) / 4096 ≠ capBase / 4096 ∧ (s.ctxAt 0 0).wait = some (.object (scratchPA 0 + 64) 0) ∧ s.enFenced 0 0 = false ∧
       (s.ctxAt 0 0).status = .waiting ∧ (s.coreAt 0).running ≠ some 0) ∧
    (let s := coreSt { freeze := [.wait (.object (scratchPA 0 + 64) 1)] } run0
     s.enFenced 0 0 = false ∧ (s.ctxAt 0 0).wait = none ∧ (s.coreAt 0).running = some 0 ∧ (s.coreAt 0).freeze = [.wait (.object (scratchPA 0 + 64) 1)]) ∧
    (let s := coreSt { ctxs := [(1, { status := .ready })] } { run0 with starve := 65536, atStop := true }
     (s.coreAt 0).running = some 0 ∧ (s.ctxAt 0 0).status = .running ∧ 65536 ≤ (s.ctxAt 0 0).starve ∧ (s.ctxAt 0 0).atStop = true ∧ (s.coreAt 0).held = none ∧
       (s.ctxAt 0 0).bind.gang = none ∧ (s.ctxAt 0 0).phase.next = none ∧ (s.coreAt 0).freeze = [] ∧
       (s.coreAt 0).ctxs.any (fun e => decide (e.1 = 1 ∧ e.2.status = .ready ∧ e.2.preempt = none)) = true) := by decide +kernel

/-- A launch whose queue 0 has a save pool. -/
def pooled : Thyme :=
  { queues := [(0, { spsize := 16 })], launches := [(5, { src := ⟨0, 0, 0, 0⟩, prio := 0, asn := 0, seq := 0, party := 1, entries := [] })] }

theorem witness_CoreEvents_preempt : (∀ st ∈ [CtxStatus.running, .held, .ready, .waiting],
      let s : State := { coreSt {} { status := st, bind := { lkey := 5 } } with thyme := pooled }
      (s.ctxAt 0 0).bind.isNotify = false ∧ (s.ctxAt 0 0).bind.notify = [] ∧ (s.ctxAt 0 0).bind.gang = none ∧ (s.ctxAt 0 0).bind.nopre = false ∧
        (s.ctxAt 0 0).preempt = none ∧ (Tab.find s.thyme.launches (s.ctxAt 0 0).bind.lkey).isSome = true ∧ 0 < (s.lq 0).spsize ∧ (s.ctxAt 0 0).status = st) ∧
    (let s := coreSt { replay := some { addr := 0, bundle := {}, done := 0, latch := none } } { run0 with preempt := some 4096 }
     s.memberState (s.ctxAt 0 0) = none ∧ (s.ctxAt 0 0).status = .running ∧ (s.coreAt 0).running = some 0 ∧ (s.ctxAt 0 0).preempt = some 4096 ∧ max s.thyme.plimit 256 ≤ 4096 ∧ (s.ctxAt 0 0).finishing = false ∧ (s.coreAt 0).held = none) ∧
    (let s := coreSt { svcTimer := some 0 } { status := .held }
     (s.coreAt 0).running = some 0 ∧ (s.coreAt 0).svcTimer = some 0 ∧ (s.ctxAt 0 0).status = .held ∧ (s.coreAt 0).held = none ∧ (s.ctxAt 0 0).bind.gang = none) ∧
    (let s := coreSt {} { status := .held, escalating := true, q := [(1, lq 7)], pend := [{ due := 2, slot := 2, w := .slot 1 7 0 [1] }] }
     (s.ctxAt 0 0).escalating = true ∧ (∀ e ∈ (s.coreAt 0).ctxs, e.1 < 0 → e.2.escalating = false) ∧ (∀ l ∈ (s.ctxAt 0 0).land, l.arrived = true) ∧
       (s.ctxAt 0 0).shadow = [] ∧ (s.ctxAt 0 0).land = [] ∧ (s.coreAt 0).replay = none ∧ (s.ctxAt 0 0).replay = none ∧ (s.ctxAt 0 0).barNo = none ∧ (s.ctxAt 0 0).pend = [{ due := 2, slot := 2, w := .slot 1 7 0 [1] }]) := by decide +kernel

/-- A phase-bound context with its first frame, and one with its next phase named. -/
def frame0 : Frame := { regs := {}, pc := 0, sig := 0, loops := [], qs := [(1, lq 3)], out := 0, blocks := 1 }
def phCtx (ph : Phase) : Ctx := { run0 with bind := { phaseBound := true, snap := 8192, spanBytes := 65536 }, phase := ph, frames := [frame0] }

theorem witness_PhaseEvents : (let s := coreSt {} (phCtx { next := some (512, 2) })
     (s.ctxAt 0 0).phase.next = some (512, 2) ∧ (s.ctxAt 0 0).pend = [] ∧ (s.ctxAt 0 0).land = [] ∧ s.accessesOut 0 0 = false ∧ (s.ctxAt 0 0).phase.frame ≤ 1 ∧
       1 ≤ (s.ctxAt 0 0).frames.length ∧ s.mem.wf = true) ∧
    (∀ r : Bool, let s := coreSt { freeze := [.rollback] } (phCtx { rollback := some .eccUe, refetched := r })
     let x := s.ctxAt 0 0
     x.phase.rollback = some .eccUe ∧ x.bind.gang = none ∧ x.phase.failed = false ∧ x.frames[x.phase.frame]? = some frame0 ∧
       s.badRange (spanPA 0 x (x.bind.snap + 18944 * x.phase.frame)) 18944 = false ∧ x.phase.refetched = r ∧ frame0.input = [] ∧ s.ops = [] ∧
       (s.coreAt 0).running = some 0) ∧
    (let s := coreSt {} (phCtx { rollback := some .eccUe, frame := 1 })
     (s.ctxAt 0 0).frames[(s.ctxAt 0 0).phase.frame]? = none) ∧ (phCtx { failed := true }).phase.failed = true := by
  decide +kernel

/-! A splice from queue 2 of core 0 into queue 1 of core 1; message `m` in flight under number 3. -/

def prod : QEnd := ⟨0, 0, 2⟩
def recv : QEnd := ⟨1, 0, 1⟩
def outTo : QDesc := { outq 0 with pcore := 1, pq := 1 }
def inFrom : QDesc := { mode := .spliceIn, capm1 := 7, occm1 := 7, pq := 2 }
def spliced (m : Msg) (a b : QDesc) (o : Ownership) : State :=
  { cores := [(0, { ctxs := [(0, { run0 with q := [(2, a)] })] }), (1, { ctxs := [(0, { run0 with q := [(1, b)], bind := { spanBytes := 65536 } })] })],
    flight := [(3, { core := 0, ctx := 0, msg := m })], own := o }

theorem arrives (m : Msg) (a b : QEnd) (x y : QDesc) (o : Ownership) (h : m.ends = some (a, b)) (hb : b.core < 1000) : Arrives 3 m a b (spliced m x y o) := by
  refine ⟨⟨_, rfl, rfl⟩, h, hb, ?_⟩
  intro e he; rcases List.mem_singleton.mp he with rfl; intro hn; exact absurd hn (Nat.lt_irrefl 3)

theorem witness_MessageEvents_splice : Arrives 3 (.spliceReq prod recv 0 1) prod recv (spliced (.spliceReq prod recv 0 1) outTo (lq 0) {}) ∧
    (let s := spliced (.spliceReq prod recv 0 1) outTo (lq 0) { regions := [(scratchPA 1, { base := scratchPA 1, sz := 0, owner := 1 })] }
     s.fixedUp 0 1 = true ∧ s.fixedUp 1 0 = true ∧ (s.ctxAt 1 0).status ≠ .free ∧ (s.qEnd recv).mode = .localQ ∧ (s.qEnd recv).ssz = 0 ∧
       s.covers 1 (spanPA 1 (s.ctxAt 1 0) 0) ((s.qEnd recv).cap * (s.qEnd recv).slotBytes) = true ∧
       (spliced (.spliceReq prod recv 0 1) outTo (lq 0) {}).covers 1 (spanPA 1 (s.ctxAt 1 0) 0) 4096 = false ∧ (lq 0).ssz ≠ 1) := by
  refine ⟨arrives _ _ _ _ _ _ rfl (by decide), ?_⟩
  decide +kernel

theorem witness_MessageEvents_answers : (∀ ok own : Bool, Arrives 3 (.spliceAns recv prod ok own {} {} 7 8) recv prod (spliced (.spliceAns recv prod ok own {} {} 7 8) outTo inFrom {})) ∧
    (let s := spliced (.append prod recv 0 0 [1] []) outTo inFrom {}
     Tab.find s.flight 3 = some { core := 0, ctx := 0, msg := .append prod recv 0 0 [1] [] } ∧
       s.mayPerform 3 { core := 0, ctx := 0, msg := .append prod recv 0 0 [1] [] } = true ∧ 0 ∉ (s.qEnd recv).pinned ∧ (s.qEnd recv).mode = .spliceIn ∧ (s.qEnd recv).partner = prod ∧ (s.qEnd recv).pmap.getLsbD 0 = false ∧
       (s.qEnd recv).tail.idx = 0) ∧
    0 ∈ ({ inFrom with pinned := [0] } : QDesc).pinned ∧ ({ inFrom with pmap := 1 } : QDesc).pmap.getLsbD 0 = true ∧ (lq 0).mode ≠ .spliceIn ∧
    (let d := ((spliced (.headReq prod recv) outTo { inFrom with headDue := true } {}).ctxAt 1 0).queue 1
     d.mode = .spliceIn ∧ d.nextHead ≤ 0 ∧ d.headDue = true ∧ d.popped = 0 ∧ d.pinned = [] ∧ d.cuts = []) ∧
    (spliced (.head recv prod {} false) outTo inFrom {}).mayGo 3 = true ∧
    ((spliced (.spliceAns recv prod true true {} {} 7 8) { outTo with pend := true } inFrom {}).qEnd prod).pend = true ∧
    ((spliced (.head recv prod {} false) outTo inFrom {}).qEnd prod).mode = .spliceOut ∧ ((spliced (.head recv prod {} false) outTo inFrom {}).qEnd prod).partner = recv ∧
    Arrives 3 (.head recv prod {} false) recv prod (spliced (.head recv prod {} false) outTo inFrom {}) ∧
    Arrives 3 (.headAns recv prod {} false) recv prod (spliced (.headAns recv prod {} false) outTo inFrom {}) ∧
    Arrives 3 (.unsplice prod recv 0) prod recv (spliced (.unsplice prod recv 0) outTo inFrom {}) ∧
    ((spliced (.unsplice prod recv 0) outTo inFrom {}).qEnd recv).tail.bits = 0 ∧
    Arrives 3 (.headReq prod recv) prod recv (spliced (.headReq prod recv) outTo inFrom {}) :=
  ⟨fun ok own => by cases ok <;> cases own <;> exact arrives _ _ _ _ _ _ rfl (by decide), by decide +kernel, by decide, by decide, by decide, by decide +kernel, by decide +kernel, rfl, rfl, rfl,
    arrives _ _ _ _ _ _ rfl (by decide), arrives _ _ _ _ _ _ rfl (by decide), arrives _ _ _ _ _ _ rfl (by decide), rfl, arrives _ _ _ _ _ _ rfl (by decide)⟩

theorem witness_MessageEvents_barriers : (let s : State := { barSt {} with flight := [(3, { core := 0, ctx := 0, msg := .arrive 1 true false })], cores := [(0, { ctxs := [(0, run0)], running := some 0, freeze := [.bar (.object 3 0)] })] }
     (Tab.find s.flight 3).isSome = true ∧ s.fencePredsDone 3 { core := 0, ctx := 0, msg := .arrive 1 true false } 31 (barScope 1) = true ∧
       s.olderArrival 3 { core := 0, ctx := 0, msg := .arrive 1 true false } 1 = false ∧ barScope 1 < 4 ∧ s.markersDone 3 = true ∧ (s.coreAt 0).freeze = [.bar (.object 3 0)]) ∧
    (let f : Flight := { core := 0, ctx := 0, msg := .arrive 0x1000000004 false false }
     let s : State := { barSt {} with flight := [(3, f)], seq := 4 }
     4 ≤ barScope 0x1000000004 ∧ 3 < s.seq ∧ s.fencePredsDone 3 f 31 (barScope 0x1000000004) = true ∧ s.olderArrival 3 f 0x1000000004 = false) ∧
    (let s : State := { cores := [(0, { ctxs := [(0, { wait := some (.barrier 1 4), status := .waiting })] })], bars := [(65536, { expect := 1, phase := 3 })], flight := [(3, { core := 0, ctx := 0, msg := .release 65536 4 })] }
     (s.bar (barKey 0 1)).arrived + 1 = (s.bar (barKey 0 1)).expect ∧ Core.awaits 0 (s.coreAt 0) 65536 = true ∧ (Tab.find s.flight 3).isSome = true ∧
       (∀ f ∈ (s.coreAt 0).freeze, False) ∧ (s.ctxAt 0 0).wait = some (.barrier 1 4) ∧ barKey 0 1 = 65536 ∧ Reached 4 4 ∧ (s.ctxAt 0 0).status = .waiting) ∧
    (let y : Core := { ctxs := [(0, { barNo := some (7, 4), land := [{ due := 0, slot := 0, flight := 7, w := .s 5 0 }] })], freeze := [.bar (.barrier 1 4)] }
     (y.ctx 0).barNo = some (7, 4) ∧ (y.ctx 0).wait = none ∧ y.freeze = [.bar (.barrier 1 4)]) := by
  unfold Reached; decide +kernel

theorem witness_MessageEvents_gangs : (let g : Gang := { members := [(0, 0), (1, 0)], states := [.detached, .parked] }
     let s : State := { cores := [(0, { ctxs := [(0, run0)], freeze := [.giss] }), (1, { ctxs := [(0, run0)] })], gangs := [(2, g)] }
     Tab.find s.gangs 2 = some g ∧ g.members = (0, 0) :: [(1, 0)] ∧ (g.members.map (fun m => m.1)).Nodup ∧ (s.coreAt 0).freeze = [.giss] ∧
       ∀ st ∈ g.states.drop 1, st = .parked) ∧
    (let o : Owed := { desc := 2, first := 0, last := some 0, beats := [] }
     let g : Gang := { members := [(0, 0), (1, 0)], states := [.detached, .parked], owed := [o] }
     let s : State := { gangs := [(2, g)] }
     g.owed = o :: [] ∧ s.owedDone g o = true ∧ barScope o.desc ≠ 1) := by decide +kernel

/-! A launch record at 0x1000 of the window of a task of party 1, with its timetable entry and its header, whose CRC-32C was reckoned apart. -/

def recBits : Nat := 0x2000 + 100 * 2 ^ 96 + 2 ^ 160
def teBits : Nat := 0x2100 + 1 * 2 ^ 64 + 2 * 2 ^ 74 + 50 * 2 ^ 128
def hdBits : Nat := 0x2000000 + 4096 * 2 ^ 64 + 16 * 2 ^ 112 + 0x0E5727B6 * 2 ^ 2016
def lrec : LRec := { bits := recBits, party := p1, q := 3, addr := 0x1000 }
def entryR : Entry := { bits := teBits, hdr := hdBits, args := 0 }
def place2 : Place := { core := 2, ctx := 0 }
/-- Launch queue 3 holds the record; it is enabled, of priority 2, with a save pool. -/
def thymeSt (ls : Tab Launch) (th : Thyme) : State :=
  { base { bind := { party := p1, spanBytes := 65536 } } with
    mem := [(0x20000001001, 0x20), (0x2000000100C, 0x64), (0x20000001014, 0x1), (0x20000002001, 0x21), (0x20000002008, 0x1), (0x20000002009, 0x8), (0x20000002010, 0x32), (0x20000002103, 0x2), (0x20000002109, 0x10), (0x2000000210E, 0x10), (0x200000021FC, 0xB6), (0x200000021FD, 0x27), (0x200000021FE, 0x57), (0x200000021FF, 0xE)],
    own := { live := [p1, 0x100002] }, hosts := [(0, { hsel := 0x8000000000200000 })],
    thyme := { th with queues := [(3, { en := true, prio := 2, spsize := 16, recs := [lrec] })], launches := ls } }

/-- It reads as its entry, and is placed in context 0 of core 2. -/
theorem test_readRecord : (thymeSt [] {}).readRecord lrec = some ([entryR], []) ∧
    (thymeSt [] {}).reserve 0 [] [entryR] [] = some [{ entryR with places := [place2], claims := [scratchPA 2] }] := by decide +kernel

/-- Tables in HBM that map 0x400000 to 0x200000. -/
def mapped : State := { thymeSt [] {} with mem := [(0, 1), (1, 0x10), (0x1000, 1), (0x1001, 0x20), (0x2010, 3), (0x2012, 0x20)] }

theorem witness_LaunchEvents_queues : (let s := mapped
     s.hostPriv 0 = true ∧ (0x400000 : Nat) % 64 = 0 ∧ (s.lq 2).en = false ∧ (s.lq 3).en = true ∧ (s.lq 3).recs.length < 64 ∧
       s.thymeRead (s.lq 3).asn (s.partyOf 2 (s.lq 3).asn.toNat) 0x400000 64 = some 0 ∧ (0x80#64).toNat % 64 = 0 ∧ (0x81#64).toNat % 64 ≠ 0 ∧
       (0x81#64).getLsbD 7 = true) ∧
    (let m : Msg := .launch 0x1000 [(scratchPA 0 + 0x1000, 64)] 0 p1 none
     let f : Flight := { core := 0, ctx := 0, msg := m }
     let s : State := { thymeSt [] {} with flight := [(3, f)] }
     Tab.find s.flight 3 = some f ∧ s.mayPerform 3 f = true ∧ s.forkFree 3 0 0 = true ∧ s.cutOff f = false) := by decide +kernel

theorem witness_LaunchEvents_acceptance : (let s := thymeSt [] {}
     (s.lq (64 * (0 % 4) + 3 % 64)).recs = lrec :: [] ∧ s.thyme.update = false ∧ s.before 3 = false ∧ s.readRecord lrec = some ([entryR], []) ∧
       s.readRecord { lrec with bits := 0 } = none) ∧
    ((thymeSt [] {}).itemRights 0 p1 (itemOf (1 * 2 ^ 76)) = false ∧ (thymeSt [] {}).itemRights 0 p1 (itemOf (4 * 2 ^ 76)) = true) ∧
    (let s : State := { thymeSt [] {} with sage := [(2, { st := 3 })] }
     (s.modLq 3 (fun l => { l with kept := [] })).reserve 0 [] [entryR] [] = none ∧ (s.lq 3).kept = [] ∧ lrec.bits.testBit 85 = false ∧ lrec.bits.testBit 84 = false) := by decide +kernel

/-- An accepted launch of one entry of an instance in state `st`, over two frames. -/
def launch1 (st : InstSt) (ps : List Place) : Launch :=
  { src := { lrec with bits := recBits + 2 ^ 128 + 0x3000 * 2 ^ 256 }, prio := 2, asn := 0, seq := 9, party := 0x300001, started := true,
    entries := [{ entryR with places := ps, st := st }] }

theorem witness_LaunchEvents_tick : (let s := thymeSt [(9, launch1 .running [place2])] {}
     Tab.find s.thyme.launches 9 = some (launch1 .running [place2]) ∧ s.tick < ({ s with cycle := 64 } : State).cycle / 64 ∧ (launch1 .running []).started = true ∧ s.thyme.update = false ∧
       ∀ e ∈ (launch1 .running []).entries, e.st ≠ .saved) ∧
    (∃ e ∈ (launch1 .saved []).entries, e.st = .saved) ∧ (thymeSt [] { update := true }).thyme.update = true ∧
    ({ launch1 .idle [] with started := false } : Launch).started = false ∧
    (let l := { launch1 .running [] with frame := 50 }
     ∃ e ∈ l.entries, decide (e.bits / 2 ^ 128 % 2 ^ 32 ≠ 0xFFFFFFFF) = true ∧ e.frame * 100 + e.bits / 2 ^ 128 % 2 ^ 32 ≤ l.frame) := by decide +kernel

def place2l : Place := { place2 with party := 0x100002 }
def place3l : Place := { core := 3, ctx := 0, party := 0x100002 }

theorem witness_LaunchEvents_start : (let l := launch1 .released [place2l]
     let e := { entryR with places := [place2l], st := .released }
     let s := thymeSt [(9, l)] {}
     HasEntry 9 0 l e s ∧ s.thyme.update = false ∧ l.items = [] ∧ e.bits / 2 ^ 160 % 4 = 0 ∧ MayStart place2l s ∧
       1 ≤ e.hdr / 2 ^ 64 % 2 ^ 32 ∧ e.hdr / 2 ^ 64 % 2 ^ 32 ≤ 4096) ∧
    (let e : Entry := { entryR with bits := teBits + 2 ^ 160, places := [place2l, place3l], st := .released }
     let l := { launch1 .released [] with entries := [e] }
     let s := thymeSt [(9, l)] {}
     HasEntry 9 0 l e s ∧ e.bits / 2 ^ 160 % 4 ≠ 0 ∧ (e.places.map (fun p => p.core)).Nodup ∧ (∀ p ∈ e.places, MayStart p s ∧ (s.coreAt p.core).running = none) ∧
       (∀ i < 4, e.hdr / 2 ^ (768 + 64 * i) % 2 ^ 64 = 0) ∧ NoLines s) := by
  unfold HasEntry MayStart NoLines; decide +kernel

/-- A task of that launch that has executed DONE. -/
def doneCtx (x : Ctx) : State :=
  { thymeSt [(9, launch1 .running [place2])] {} with cores := [(2, { ctxs := [(0, { x with status := .running, finishing := true, bind := { x.bind with lkey := 9 } })], running := some 0 })] }

theorem witness_LaunchEvents_done : (let s := doneCtx { pend := [{ due := 1, slot := 0, w := .s 4 9 }] }
     let x := s.ctxAt 2 0
     x.bind.isNotify = false ∧ x.bind.gang = none ∧ x.bind.notify = [] ∧ x.finishing = true ∧ x.status = .running ∧ x.async = [] ∧ s.settled 2 0 = false ∧
       s.canSettle 2 0 = true ∧ x.bind.array = false ∧ x.q = [] ∧ x.pend = [{ due := 1, slot := 0, w := .s 4 9 }] ∧ x.land = []) ∧
    (let s := doneCtx {}
     HasEntry 9 0 (launch1 .running [place2]) { entryR with places := [place2], st := .running } s ∧ s.settled 2 0 = true ∧ s.canEnd 2 0 = true ∧ s.spanLent 2 0 = [] ∧ s.spanBusy 2 0 = false ∧
       (s.coreAt 2).running = some 0 ∧ (s.ctxAt 2 0).status ≠ .free ∧ s.ops = []) ∧
    (let s := doneCtx { bind := { isNotify := true } }
     let x := s.ctxAt 2 0
     x.bind.isNotify = true ∧ x.finishing = true ∧ x.async = [] ∧ x.status = .running ∧ s.canSettle 2 0 = true ∧ x.pend = [] ∧ x.land = [] ∧ x.q = [] ∧ x.bind.phaseBound = false ∧
       x.notifies = []) := by unfold HasEntry; decide +kernel

theorem witness_LaunchEvents_end : (let l := launch1 .done [place2]
     let s := thymeSt [(9, l)] { windows := [(3, (2, 100))] }
     Tab.find s.thyme.launches 9 = some l ∧ (∀ e ∈ l.entries, e.st = .done ∨ e.st = .lost) ∧
       s.thymeRange l.asn l.src.party (l.src.bits / 2 ^ 256 % 2 ^ 64) 32 = some [(scratchPA 0 + 0x3000, 32)] ∧ l.src.bits / 2 ^ 256 % 2 ^ 64 ≠ 0 ∧
       l.src.bits / 2 ^ 192 % 2 ^ 64 = 0 ∧ l.src.bits.testBit 86 = false ∧ (∀ g ∈ s.doomed l, s.touching g.1 g.2 = false) ∧ (∀ e ∈ s.cores, e.2.l1 = []) ∧ s.mem.wf = true ∧ Tab.find s.thyme.windows 3 = some (2, 100) ∧
       100 ≤ ({ s with cycle := 100 } : State).cycle ∧ Tab.get 0 ({ s with routes := [(3, 32)] } : State).routes 3 = 32 ∧ Nat.testBit 32 5 = true ∧
       (Tab.get 0 s.routes 3).testBit 5 = false) := by decide +kernel

/-! A task of launch 9 on core 2 that has stopped, its queue's pool free. -/

def stopped (x : Ctx) : State :=
  { thymeSt [(9, launch1 .running [place2])] {} with cores := [(2, { ctxs := [(0, { x with bind := { x.bind with lkey := 9, spanBytes := 4096 } })] })] }

theorem witness_SaveAndRestore_save : (let s := stopped { status := .ready, preempt := some 0 }
     let x := s.ctxAt 2 0
     Alone 2 0 s ∧ HasEntry 9 0 (launch1 .running [place2]) { entryR with places := [place2], st := .running } s ∧ x.status = .ready ∧ x.preempt.isSome = true ∧
       x.finishing = false ∧ x.phase.rollback = none ∧ (s.coreAt 2).l1 = [] ∧
       x.pend = [] ∧ x.land = [] ∧ x.shadow = [] ∧ x.q = [] ∧ s.together 2 0 = [(2, 0)] ∧
       s.saveRoom false 3 [(2, 0)] = some (true, [0]) ∧ 0 + (20480 + 4096 + 128 * x.bind.privBytes + 12288) ≤ scratchPA 2 ∧ s.mem.wf = true) := by unfold Alone HasEntry; decide +kernel

theorem witness_SaveAndRestore_lost : (let s := stopped { status := .held, cause := { esc := true, cause := 17 } }
     Alone 2 0 s ∧ (s.ctxAt 2 0).status = .held ∧ (s.ctxAt 2 0).cause.esc = true ∧ (s.ctxAt 2 0).escalating = false ∧ (s.ctxAt 2 0).cause.cause = 17) := by unfold Alone; decide +kernel

theorem witness_SaveAndRestore : (let v : Saved := { ctx := { status := .ready, bind := { lkey := 9, spanBytes := 4096 } }, place := place2, parts := [20480, 4096], q := 3, units := 1 }
     let l := launch1 .saved []
     let s := thymeSt [(9, l)] { saved := [(0, v)] }
     Tab.find s.thyme.saved 0 = some v ∧ s.savedOf 9 0 = [(0, v)] ∧ HasEntry 9 0 l { entryR with st := .saved } s ∧
       s.placeAfresh l 0 { entryR with st := .saved } = some [place2] ∧ (s.ctxAt 2 0).status = .free ∧ s.savedTogether 1536 [(9, 0)] = [(9, 0)] ∧ place2.nots = [] ∧ v.ctx.bind.gang = none ∧
       v.nots = [] ∧ v.parked = [] ∧ v.bars = [] ∧ v.ctx.pend = [] ∧ v.ctx.land = [] ∧ v.parts.head? = some 20480 ∧ v.base + 20480 ≤ scratchPA 2 + place2.span ∧
       s.mem.wf = true ∧ Tab.sorted s.thyme.saved = true) := by unfold HasEntry; decide +kernel

/-- A core signalled with nothing running, at a stop point, in its switch; a sweep at its first and last block; a core without a task and with one. -/
theorem witness_WearEvents : (2 : Nat) < 384 ∧ (({} : State).sageOf 2).st ≠ 4 ∧ Tab.get 0 ({ cycle := 1200000 } : State).ivals 2 < 1200000 / 1200000 ∧
    ({ tick := 2 ^ 30 } : State).commits < 2 ^ 30 / 2 ^ 30 ∧ (0 : Nat) / 2 ^ 30 ≤ ({} : State).commits ∧
    (let s : State := { cores := [(2, { slowDue := true })] }
     (s.coreAt 2).slowDue = true ∧ s.coreGang 2 = none ∧ (s.coreAt 2).running = none ∧ ∀ e ∈ (s.coreAt 2).ctxs, e.2.status ≠ .held) ∧
    (let s : State := { cores := [(2, { ctxs := [(0, { run0 with atStop := true })], slowDue := true, running := some 0 })] }
     (s.coreAt 2).running = some 0 ∧ ((s.coreAt 2).ctx 0).atStop = true ∧ (s.coreAt 2).slowOld = false ∧ (s.coreAt 2).held = none ∧
       ((s.coreAt 2).ctx 0).status = .running ∧ Freeze.fault ∉ (s.coreAt 2).freeze) ∧
    (let s : State := { cores := [(2, { clkPend := true })] }
     (s.coreAt 2).slowDue = false ∧ (s.coreAt 2).clkPend = true ∧ (s.coreAt 2).clkHold = 0) ∧
    (∀ n ∈ [0, 3583], let s : State := { cores := [(2, { strong := true, sweep := n })] }
     (s.coreAt 2).strong = true ∧ (s.coreAt 2).sweep < 3584) ∧
    ({} : State).tasksOn 2 = [] ∧ (stopped { status := .running }).tasksOn 2 = [0] ∧ Alone 2 0 (stopped { status := .running }) := by
  unfold Alone; decide +kernel

/-! Bank 3 of stack 0 in state `b`. -/

def withBank (b : DBank) : State := { banks := [(3, b)], cycle := 1000000 }
def full (k : Nat) : List (Nat × Nat) := (List.replicate 256 0).zipIdx.map (fun x => (x.2 + 1, k))

def rd (row line : Nat) : BReq := { row := row, line := line, kind := .read }

/-- A closed bank; hits; a ninth hit; a request that has not reached the controller; the tracker with the row's entry, with a free one, with room. -/
theorem witness_ChannelEvents_bank : ((withBank { queue := [rd 7 40] }).bankAt 3).block = none ∧ ((withBank { queue := [rd 7 40] }).bankAt 3).busy ≤ 1000000 ∧
    ((withBank { queue := [rd 7 40] }).bankAt 3).serving = none ∧
    ServesNext { queue := [rd 7 40] } 0 (rd 7 40) false ∧ ServesNext { queue := [rd 7 40, rd 8 41], row := some 8, hits := 7 } 0 (rd 8 41) true ∧
    ServesNext { queue := [rd 7 40, rd 8 41], row := some 8, hits := 8 } 0 (rd 7 40) false ∧
    ServesNext { queue := [{ rd 7 40 with from_ := 9 }, rd 8 41], row := some 8, hits := 8 } 0 (rd 8 41) true ∧
    PastTrc { last := some 999944 } 1000000 ∧ ¬PastTrc { last := some 999945 } 1000000 ∧ ¬PastTrc { pre := 1000001 } 1000000 ∧
    Tracked [(7, 2047)] 7 [(7, 2048)] 0 2048 ∧ Tracked [(freeRow, 0)] 7 [(7, 1)] 0 1 ∧ Tracked [] 7 [(7, 1)] 0 1 ∧
    (let s := withBank { block := some (999999, 0), track := [(7, 2048)] }
     (s.bankAt 3).block = some (999999, 0) ∧ 999999 ≤ s.cycle ∧ ((s.bankAt 3).track.getD 0 (0, 0)).1 < 65536) ∧
    (withBank { block := some (1000001, 0) }).cycle < 1000001 := by
  refine ⟨rfl, Nat.zero_le _, rfl, ⟨_, _, rfl, .inl ⟨rfl, rfl, rfl⟩⟩, ⟨_, _, rfl, .inr ⟨8, rfl, .inl ⟨by decide, rfl, rfl⟩⟩⟩,
    ⟨_, _, rfl, .inr ⟨8, rfl, .inr ⟨.inl (by decide), rfl, rfl⟩⟩⟩, ⟨_, _, rfl, .inr ⟨8, rfl, .inr ⟨.inl (by decide), rfl, rfl⟩⟩⟩,
    ⟨by decide, fun t h => by cases h; decide⟩, fun h => by have := h.2 _ rfl; revert this; decide, fun h => by have := h.1; revert this; decide,
    ⟨rfl, ?_, .inl ⟨2047, rfl, rfl⟩⟩, ⟨rfl, ?_, .inr (.inl ⟨by decide, rfl, .inl ⟨0, rfl⟩⟩)⟩, ⟨rfl, ?_, .inr (.inl ⟨by decide, rfl, .inr ⟨rfl, by decide⟩⟩)⟩,
    by decide, by decide⟩ <;> intro j hj <;> cases j <;> simp_all

/-- A read that ends, with a flipped bit in its line and without; a write. -/
theorem witness_ChannelEvents_serving : ((withBank { serving := some (rd 7 40, 1000000) }).bankAt 3).serving = some (rd 7 40, 1000000) ∧
    (∃ f ∈ ({ withBank {} with soft := [(160, 1)] } : State).soft, f.1 / 4 = (rd 7 40).line ∧ f.1 ∉ (withBank {}).bad) ∧ (rd 7 40).kind ≠ .write ∧
    ({ rd 7 40 with kind := .write } : BReq).kind = .write ∧ 1000000 ≤ (withBank {}).cycle ∧ (withBank {}).cycle < 1000001 := by decide

theorem witness_ChannelEvents_stack : (let s := withBank {}
     QuietBank 3 s ∧ (s.bankAt 3).done < s.cycle * 2 / 9375 ∧ s.hostPriv 0 = false) ∧
    (let s : State := { hbmStacks := [(0, { prow := 3 * 65536 + 7 })], banks := [(3, {})], cycle := 1048576 }
     let q := s.stackAt 0
     q.scruben = true ∧ q.next ≤ s.cycle ∧ q.prow < 67108864 ∧ 0 * 1024 + q.prow / 65536 = 3 ∧ QuietBank 3 s ∧ (s.bankAt 3).last = none) ∧
    (let s : State := { dies := [(0, { sweep := [(5, 38229)], strong := [5] })] }
     (∀ e ∈ s.soft, s.inShare 0 5 e.1 = false ∨ (e.1 % 0x1000000000000000) ∈ s.bad) ∧ 38230 ≤ Tab.get 0 (s.dieAt 0).sweep 5 + 1) ∧
    (let s : State := { soft := [(0x800000000, 1)] }
     s.soft = [(0x800000000, 1)] ∧ s.inShare 0 (sliceOf 0x10000000000) 0x800000000 = true ∧ (0x800000000 % 0x1000000000000000) ∉ s.bad) ∧
    (let s : State := { hosts := [(0, { hsel := 0x8000000000200000 })] }
     s.hostPriv 0 = true ∧ ∃ i < 96, i ∉ (s.dieAt 0).strong) := by
  unfold QuietBank; decide +kernel

/-- One flipped bit in a word of HBM, of chip scratchpad, of a core's scratchpad; the second and third. -/
theorem witness_ChannelEvents_soft : (∀ n ∈ [0, 1, 2], let s : State := { soft := [(2, n)] }
     64 / 32 ∉ s.bad ∧ s.softKey (64 / 32) = 64 / 32 ∧ Tab.get 0 s.soft (64 / 32) = n) ∧
    scratchPA 5 ≤ 0x20000A00040 ∧ (0x20000A00040 : Nat) < scratchPA 5 + 0x180000 ∧ (({} : State).coreAt 5).strong = false ∧
    (((base { q := [(2, { outq 0 with mirror := ⟨1, false⟩ })] }).ctxAt 0 0).queue 2).mode = .spliceOut := by decide +kernel

/-! A load of 64 bytes of core 0 at its port, its class's bucket `b` and allotment `al`. -/

def atPort (b al : Nat) : State :=
  { cores := [(0, { ctxs := [(0, {})], port := [(0, { bucket := b, alloc := al })] })],
    flight := [(3, { core := 0, ctx := 0, msg := .access { ldA with reads := [(0x8040, 64)] }, admitted := false })] }

theorem witness_NetworkEvents_ports : (∀ b ∈ [(64, 1024), (63, 63), (63, 64)], let s := atPort b.1 b.2
     let f : Flight := { core := 0, ctx := 0, msg := .access { ldA with reads := [(0x8040, 64)] }, admitted := false }
     Tab.find s.flight 3 = some f ∧ s.charge 0 f.msg = 64 ∧ (s.portCls 0 0).granted ≠ some s.cycle ∧ s.outstanding 0 < 1024 ∧ (s.portCls 0 0).alloc ≠ 0 ∧
       (∀ e ∈ s.flight, e.2.admitted = true ∨ e.2.core ≠ f.core ∨ e.2.cls ≠ f.cls ∨ 3 ≤ e.1) ∧ (s.portCls 0 0).bucket = b.1 ∧ (s.portCls 0 0).alloc = b.2) ∧
    (({ cycle := 1024 } : State).coreAt 0).refills < ({ cycle := 1024 } : State).cycle / 1024 := by decide +kernel

theorem witness_NetworkEvents_links : (∀ n ∈ [15, 16], let s : State := { cycle := 100, links := [(0, { recent := [(2, List.replicate n 50)] })] }
     (s.link 0).up = true ∧ (s.link 0).laneso.getLsbD 2 = true ∧ 5 ≤ laneCount (s.link 0).laneso ∧
       5 ≤ laneCount (s.link 0).lanesi ∧
       (s.cycle :: (Tab.get [] (s.link 0).recent 2).filter (fun t => decide (s.cycle < t + 1048576))).length = n + 1) ∧
    laneCount 0x0F ≤ 4 ∧
    (let x : Ctx := { run0 with q := [(2, outq 0)] }
     let w : Ctx := { run0 with q := [(1, inFrom)] }
     let a := { outq 0 with pdie := 1, pcore := 4, pq := 1 }
     let s : State := { cores := [(0, { ctxs := [(0, { x with q := [(2, a)] })] }), (100, { ctxs := [(0, w)] })] }
     s.cores = [(0, { ctxs := [(0, { x with q := [(2, a)] })] }), (100, { ctxs := [(0, w)] })] ∧ a.mode = .spliceOut ∧ inFrom.mode = .spliceIn ∧ a.partner = ⟨100, 0, 1⟩ ∧ inFrom.partner = ⟨0, 0, 2⟩ ∧
       s.pathHas 0 100 0 = true ∧ s.linkUp 0 = true) ∧
    (let a : Acc := { ldA with reads := [(0x2000000000, 8)] }
     let s : State := { flying a { land := [{ due none with arrived := false }] } with links := [(1, { up := false }), (3, { up := false })] }
     let u : State := s.setLink 0 { s.link 0 with up := false }
     (s.ctxAt 0 0).land = [{ due none with arrived := false }] ∧ s.mayCross 0 (fl a) = true ∧ u.cutOff (fl a) = true) := by decide +kernel

theorem witness_NetworkEvents_packets : (let s : State := { ports := [(4, { up := true })], own := { regions := [(0x8000, region)] } }
     (s.port 4).up = true ∧ (s.port 4).en = true ∧ (s.port 5).up = false ∧ partyPkg 1 ∈ s.pod ∧ s.rights .store 1 0x8000 = none ∧ s.mem.wf = true) ∧
    (∀ a ∈ [{ ldA with reads := [(0x40000008040, 8)] }, { ldA with reads := [(0x40000008040, 4)], cls := .at, dst := .none },
            { stA with writes := [(0x40000008040, [1, 2])] }], let s := flying a {}
     a.report = [] ∧ a.performed = false ∧ Tab.find s.flight 3 = some (fl a) ∧ s.afar (fl a).msg = true ∧ s.mayPerform 3 (fl a) = true ∧ s.remote 0x40000008040 = true) ∧
    (let a : Acc := { stA with writes := [(0x40000008040, [1, 2])] }
     a.cls = .st ∧ a.lock = none ∧ a.reads = [] ∧ (flying a {}).targetOf 0x40000008040 = .other 1) ∧
    (let c := { copyOp .cpy cD [0] with src := [[⟨0x40000008040, 64, true, false⟩]], asked := [0] }
     let s : State := { ops := [(3, op (.copy c))], pod := [0, 1], cycle := 1200000 }
     1 ∈ s.pod ∧ 1 ≠ s.pkgid ∧ s.flight = [] ∧ Tab.get 0 s.heard 1 + 1200000 ≤ s.cycle ∧ s.awaits 1 = true) ∧
    (1 : Nat) ∉ ({} : State).pod ∧ (({ pod := [0, 1] } : State).pod.length < 1024 ∧ 1 ∈ ({ pod := [0, 1] } : State).pod ∧ (1 : Nat) ≠ ({} : State).pkgid) ∧
    ({} : State).pod.Nodup ∧ (0 : Nat) ∈ ({} : State).pod := by decide +kernel

/-! Host core 0 as a privileged party 0x200000, with its command port at a region of 4,096 bytes at 0x8000 that it owns and party 1 the target. -/

def hostSt (sel : Word) (d : Nat) (r : Region) : State :=
  { hosts := [(0, { hsel := sel, desig := d, party := p1, len := 4096 })], own := { regions := [(0x8000, r)], live := [0x200000, p1, 7] } }
def hOwn : Region := { base := 0x8000, sz := 0, owner := 0x200000 }
def hSel : Word := 0x8000000000200000

/-- Each operation on a region in the state it asks for is without a cause and of status 0. -/
theorem witness_HostCommands : HostThere 0 (hostSt hSel 0x8000 hOwn) ∧ (hostSt 0 0x8000 hOwn).hostOk 0 = false ∧ hostDesOk 0x8013 = false ∧
    (hostSt hSel 0x9000 hOwn).hostTarget 0x9000 4096 = true ∧ (hostSt hSel 0 hOwn).hostTarget 0x9000000000 4096 = false ∧
    (hostSt 0x200000 0x8000 { hOwn with owner := 7 }).own.tokenCause (HostRequest .lend 0 (hostSt 0x200000 0x8000 { hOwn with owner := 7 })) = some .ownNone ∧
    (let s : State := { hostSt hSel 0x8000 hOwn with flight := [(3, { core := 0, ctx := 0, msg := .token { tq .seize with invSent := true } })] }
     s.entryBusy s.seq 0x8000 4096 = true ∧ (s.host 0).taken = []) ∧
    (let s : State := { hostSt hSel 0x8000 hOwn with flight := [(3, fl { stA with writes := [(0x8000, [1])] })], seq := 4, cores := [(0, {})] }
     (Judged 0 s).accessesOn 0 0x8000 4096 = true ∧ (s.host 0).taken = []) := by unfold HostThere Judged; decide +kernel

theorem witness_HostCommands_ok : (∀ p ∈ [(TokOp.lend, hOwn), (.lendPass, hOwn), (.plain, { hOwn with atomic := true }), (.atomic, hOwn), (.share, hOwn), (.query, hOwn), (.destroy, hOwn),
            (.seize, { hOwn with owner := 7 }), (.retn, { hOwn with chain := [p1] })],
      MayCommand p.1 0 (hostSt hSel 0x8000 p.2) ∧ (hostSt hSel 0x8000 p.2).tokenStatus (HostRequest p.1 0 (hostSt hSel 0x8000 p.2)) = 0 ∧
        (hostSt hSel 0x8000 p.2).own.exact 0x8000 0 = some p.2) ∧
    (let s := hostSt hSel 0x8001 { hOwn with sz := 1 }
     MayCommand .split 0 s ∧ s.tokenStatus (HostRequest .split 0 s) = 0 ∧ s.own.exact 0x8000 1 = some { hOwn with sz := 1 }) ∧
    (let s : State := { hostSt hSel 0x8001 hOwn with own := { regions := [(0x8000, hOwn), (0x9000, { hOwn with base := 0x9000 })], live := [0x200000, p1, 7] } }
     MayCommand .join 0 s ∧ s.tokenStatus (HostRequest .join 0 s) = 0 ∧ s.own.exact (0x8000 + 2 ^ 12) 0 = some { hOwn with base := 0x9000 }) ∧
    (let s : State := { hostSt hSel 0x8000 hOwn with own := { live := [0x200000, p1] } }
     MayCommand .create 0 s ∧ s.tokenStatus (HostRequest .create 0 s) = 0 ∧ s.own.exact 0x8000 0 = none) ∧
    (let s : State := { hostSt hSel 0x8000 { hOwn with owner := 9, shares := 1 } with own := { regions := [(0x8000, { hOwn with owner := 9, shares := 1 })], shares := [(0x8000, 0x200000)], live := [0x200000, 9] } }
     MayCommand .unshr 0 s ∧ s.tokenStatus (HostRequest .unshr 0 s) = 0) ∧
    (∀ op ∈ [TokOp.clean, .reinit], let s := hostSt hSel 0x8000 { hOwn with owner := 7, st := .orphan }
     MayCommand op 0 s ∧ s.tokenStatus (HostRequest op 0 s) = 0) ∧
    (let s := cached ldA
     ∀ l ∈ (s.coreAt 0).l1, 0x9000 + 4096 ≤ l.1 * 128 ∨ l.1 * 128 < 0x9000) := by
  unfold MayCommand ItsTurn; decide +kernel

theorem witness_HostCommands_access : (let s := hostSt hSel 0x8000 hOwn
     s.hostMay 0 0x8000 8 true = true ∧ s.hostMay 0 0x8000 8 false = true ∧ s.badRange 0x8000 8 = false ∧ s.mem.wf = true ∧
       (hostSt hSel 0x8000 { hOwn with owner := 7 }).hostMay 0 0x8000 8 true = false ∧
       (hostSt hSel 0x8000 { hOwn with owner := 7 }).rights .store (BitVec.ofNat 64 (hSel.toNat % 2 ^ 34)) 0x8000 ≠ none) ∧
    hubHas 0x80000 = true ∧ hubHas 0x140008 = true := by decide +kernel

/-- With no access of address space 5 out, and with one; a report into HBM and a buffer elsewhere. -/
theorem witness_HubEvents : (let s := hostSt hSel 0 hOwn
     HostThere 0 s ∧ s.hostPriv 0 = true ∧ (hostSt 0x200000 0 hOwn).hostPriv 0 = false ∧ ((hostSt 0x200000 0 hOwn).host 0).hsel.getLsbD 63 = false ∧
       (hostSt 0x200000 0 hOwn).hostOk 0 = true ∧ s.asnBusy 0 0 = false ∧ ({ flying ldA {} with seq := 4 } : State).asnBusy 4 0 = true ∧
       s.key (s.mgmt.areq / 32768 * 32768) = 0 ∧ s.mgmt.astat ≠ 1 ∧ s.mem.wf = true) ∧
    (let s : State := { mgmt := { areq := 0x10000000000 } }
     s.key (s.mgmt.areq / 32768 * 32768) = 0x10000000000) ∧
    Sum8 (fun _ => 128) ≤ 1024 ∧ 1024 < Sum8 (fun j => if j = 0 then 129 else 128) ∧ (4096 % 512 = 0 ∧ 1048577 % 512 ≠ 0) := by
  unfold HostThere; decide +kernel

/-- Images of the controller, the hub and the loader, and of firmware, that verify; one of too low a version. -/
def image (c v : Nat) : Image := { comp := c, svn := v, digest := 0, ok := true }

theorem witness_ManagementEvents : (∀ h : Bool, let e : JEntry := ⟨5, 7, 1, 100, 99, 4⟩
     let s : State := { journal := { pend := [e], half := h } }
     s.journal.pend = e :: [] ∧ s.mem.wf = true ∧ s.journal.half = h) ∧
    ({ cycle := 1200000 } : State).mgmt.steps < 1200000 / 1200000 ∧ (0 : Nat) / 1200000 ≤ ({} : State).mgmt.steps ∧ ({} : State).thyme.maps = [] ∧
    ({ thyme := { update := true } } : State).thyme.update = true ∧
    ({} : State).mgmt.powered = true ∧ ({ mgmt := { powered := false } } : State).mgmt.powered = false ∧
    (let s : State := { mgmt := { minsvn := 3 }, thyme := { update := false }, stored := [(1, { st := 4 })] }
     Verifies (image 0 3) s ∧ Verifies (image 4 3) s ∧ Verifies (image 5 4) s ∧ ¬Verifies (image 2 2) s ∧ ¬Verifies { image 2 9 with ok := false } s ∧
       (image 1 3).comp = 1 ∧ s.thyme.update = false ∧ s.mgmt.minsvn < 4 ∧ (Tab.get {} s.stored 1).st = 4) ∧
    (let s : State := { journal := { mirror := [⟨5, 7, 1, 100, 99, 4⟩] }, cores := [(5, { out := true })] }
     s.journal.mirror[0]? = some ⟨5, 7, 1, 100, 99, 4⟩ ∧ (s.coreAt 5).out = true ∧ (s.sageOf 5).failed = false ∧ (s.coreAt 5).failed = false ∧
       (s.sageOf 5).st < 3) ∧ (({ cores := [(5, { failed := true })] } : State).coreAt 5).failed = true := by
  unfold Verifies; decide +kernel

/-- A state that writes memory in its next step, by a journal entry. -/
theorem witness_StepKeepsMemoryCanonical : (let s : State := { journal := { pend := [⟨5, 7, 1, 100, 99, 4⟩] }, agenda := [.event .journalWrite] }
     s.mem.wf = true ∧ (match step s with | .next t => t.mem.wf && !t.mem.isEmpty | _ => false) = true) := by decide +kernel

/-! ## Worked examples of the spec -/

/-- 3 times −5 as a residue triple, and 512 products of (−128)(−128), which wrap (R105, R106, R294). -/
theorem test_residue : residueMac 9 9 0 [3] [0xFB] = 0x00F2F0F1 ∧ resSigned 0x00F2F0F1 = -15 ∧ resOf 8388608 = 0x00808000 ∧ crt 0 128 128 = 8388608 ∧
    resSigned 0x00808000 = -8388352 := by decide +kernel

/-- 0x3F88_0008 to E4M3 at once, by BF16 with RNE, by BF16 with RTO (R112, R113). -/
theorem test_convert : convElem .rne 0 3 0x3F880008 = 0x39 ∧ convElem .rne 0 1 0x3F880008 = 0x3F88 ∧ convElem .rne 1 3 0x3F88 = 0x38 ∧
    convElem .rto 0 1 0x3F880008 = 0x3F89 ∧ convElem .rne 1 3 0x3F89 = 0x39 ∧ convElem .rne 5 1 16842753 = 0x4B81 := by decide +kernel

def val (l : List Nat) : List FVal := l.map fp32.value

/-- An FMA beat of two products 2^−24 on 1.0 rounds once (R115); CSN and ADA on 5.0 (R293). -/
theorem test_cellBeat : cellBeat 0 0x3F800000 (val [0x33800000, 0x33800000, 0, 0]) (val [0x3F800000, 0x3F800000, 0, 0]) = 0x3F800001 ∧
    cellBeat 2 0x40A00000 (val [0x3F800000, 0x40000000, 0x40400000, 0x40800000]) (val [0x40400000, 0x3F000000, 0x40E00000, 0xBF800000]) = 0x40200000 ∧
    cellBeat 1 0x40A00000 (val [0x3F800000, 0x40000000, 0x40400000, 0x40800000]) (val [0x40400000, 0x3F000000, 0x40E00000, 0xBF800000]) = 0x418C0000 := by
  decide +kernel

/-- Where 0x2_000C_4A00 lives: die 0, stack 0, channel 5, pseudo-channel 1, bank 6, row 0x1000, slice 91 (R365, R366). -/
theorem test_address : dbankOf 0x2000C4A00 = 5 * 32 + 16 + 6 ∧ rowOfPA 0x2000C4A00 = 0x1000 ∧ sliceOf 0x2000C4A00 = 91 ∧
    ({} : State).homeDie 0x2000C4A00 = 0 := by decide

/-- The interval of the wear example: f, the state, its cause, the charges and the idle account. -/
theorem test_sampleInterval : (let r : Sample := { ro := [900, 900, 900, 900], eSup := 700, eBus := 0, temp := 92000, volt := 750000 }
    let s : State := { cycle := 1200000, cores := [(133, { act := 720000, ctxs := [(0, { act := 480000, status := .running }), (1, { act := 240000 })] })],
                       sage := [(133, { wufine := 313344000000000 - 700 })] }
    match Sys2Proof.Machine.exec (.sampleInterval 133 r) s with
    | .next t => decide ((t.sageOf 133).wufine = 313344000000700) && decide ((t.sageOf 133).life = 87040000) && decide ((t.sageOf 133).st = 1) &&
        decide ((t.sageOf 133).idle = 560) && decide ((t.ctxAt 133 0).charge = 560) && decide ((t.ctxAt 133 1).charge = 280) && (t.coreAt 133).slowDue
    | _ => false) = true := by decide +kernel

/-- LEND's designator of H1 of the ownership example is the upper half of W (R159). -/
theorem test_designator : desSz 0x40000004 = 4 ∧ regionBytes 4 = 65536 ∧ regionBytes (desSz 0x40008003) = 32768 := by decide

/-- The mixed bundle of the queue example: with Q2 of capacity 4 holding 4 slots, two appends pass after the pop of three, and not without it. -/
theorem test_capacity : (let d : QDesc := { lq 4 with capm1 := 3, head := ⟨0, false⟩, tail := ⟨0, true⟩ }
    let full := busy { q := [(2, d)] } {}
    let popped := busy { q := [(2, d)] } { pops := [(2, 3)] }
    (match appendSlot 2 full with | .ok _ => false | .error _ => true) = true ∧
      (match appendSlot 2 popped with | .ok t => (match appendSlot 2 t with | .ok _ => true | _ => false) | .error _ => false) = true) := by decide

end Sys2Proof.Tests
end

section
/-!
# Memory stays canonical (O60)

`Memory.wf` says that the cells rise strictly by address and that none holds what an unlisted address reads as. Most functions of the
model do not touch memory at all, so the proof keeps two kinds of lemmas apart:

* `f_mem`: `f` leaves memory as it was (the frame);
* `f_canon`: from a state with canonical memory `f` comes to one, or to an outcome that is no next state (`OutCanon`, `ExCanon`,
  `OptCanon`).

A check or an event is a tree of guards. Most such proofs split the guards, and the lemmas of the updates close each branch.

Memory changes by `Memory.write`, `writeBytes`, `storeAll`, `paste`, `filter` and reset alone, and each keeps it canonical. From there
the lemmas follow the model's own order: checks and performances, slots, events, the cycle of a core, a wall cycle, a step.
-/
namespace Sys2Proof.Machine

/-!
## Frame: what leaves memory alone

One lemma for each update of the state that does not write memory: it leaves `mem` as it was.
-/

@[simp] theorem State.ite_mem (c : Prop) [Decidable c] (s t : State) :
    (if c then s else t).mem = if c then s.mem else t.mem :=
  apply_ite _ _ _ _

/-- A fold whose step leaves memory alone leaves it alone. -/
theorem State.foldl_mem {α : Type} {f : State → α → State} (hf : ∀ s a, (f s a).mem = s.mem) (l : List α) (s : State) :
    (l.foldl f s).mem = s.mem := by
  induction l generalizing s with
  | nil => rfl
  | cons a l ih => rw [List.foldl_cons, ih, hf]

/-! ### Faults, traps and the journal -/
@[simp] theorem State.journalAdd_mem (ty die core payload : Nat) (s : State) : (s.journalAdd ty die core payload).mem = s.mem := rfl
@[simp] theorem State.logFault_mem (c k : Nat) (cause : Cause) (addr : Word) (s : State) : (s.logFault c k cause addr).mem = s.mem := rfl
@[simp] theorem State.serviceFault_mem (c : Cause) (addr : Word) (s : State) : (s.serviceFault c addr).mem = s.mem := by
  simp only [State.serviceFault, State.logFault_mem, State.modMyCore_mem]
  refine State.foldl_mem (fun t e => ?_) _ _
  split
  · exact State.foldl_mem (fun u m => by rfl) _ _
  · rfl
@[simp] theorem State.escalateUnit_mem (s : State) : s.escalateUnit.mem = s.mem :=
  State.foldl_mem (fun _ _ => by rfl) _ _
@[simp] theorem State.takeCause_mem (c : Cause) (slot detail : Nat) (res : Bool) (addr : Word) (s : State) :
    (s.takeCause c slot detail res addr).mem = s.mem := by simp [State.takeCause]
@[simp] theorem State.raise_mem (c : Cause) (slot detail : Nat) (res : Bool) (s : State) : (s.raise c slot detail res).mem = s.mem := by
  simp [State.raise]
@[simp] theorem State.stop_mem (e : Stop) (s : State) : (s.stop e).mem = s.mem := by
  unfold State.stop
  split <;> simp
@[simp] theorem State.loadBun_mem (s : State) : (s.loadBun).mem = s.mem := rfl
@[simp] theorem State.setCtl_mem (c : Ctl) (s : State) : (s.setCtl c).mem = s.mem := rfl
@[simp] theorem State.eretAll_mem (e : Eret) (s : State) : (s.eretAll e).mem = s.mem := by
  unfold State.eretAll
  split
  · rfl
  · exact State.foldl_mem (fun _ _ => by rfl) _ _
@[simp] theorem State.clearReports_mem (s : State) (bases : List Nat) : (s.clearReports bases).mem = s.mem := rfl
@[simp] theorem State.lendOnDemand_mem (s : State) (ps : List Piece) : (s.lendOnDemand ps).mem = s.mem := by
  refine State.foldl_mem (fun t p => ?_) _ _
  split
  · simp
  · rfl
@[simp] theorem State.reporting_mem (s : State) (bs : List Nat) : (s.reporting bs).mem = s.mem := by simp [State.reporting]

/-! ### Ports and messages -/
@[simp] theorem State.setPortCls_mem (s : State) (c cls : Nat) (p : PortCls) : (s.setPortCls c cls p).mem = s.mem := rfl
theorem State.takePort_mem {s t : State} {c cls n : Nat} (h : s.takePort c cls n = some t) : t.mem = s.mem := by
  simp only [State.takePort, Option.map_eq_some_iff] at h
  obtain ⟨p, -, rfl⟩ := h
  rfl
@[simp] theorem State.launchFlight_mem (f : Flight) (s : State) : (s.launchFlight f).mem = s.mem := rfl
@[simp] theorem State.send_mem (m : Msg) (s : State) : (s.send m).mem = s.mem := rfl
@[simp] theorem State.post_mem (c k : Nat) (m : Msg) (s : State) : (s.post c k m).mem = s.mem := rfl
@[simp] theorem State.postAt_mem (c k o : Nat) (m : Msg) (s : State) : (s.postAt c k o m).mem = s.mem := rfl
@[simp] theorem State.awaitLanding_mem (at16 : BitVec 5) (ws : List Write) (s : State) : (s.awaitLanding at16 ws).mem = s.mem := rfl

/-! ### Banks, the L2 and the L1 -/
@[simp] theorem State.usePath_mem (s : State) (src dst : Nat) : (s.usePath src dst).mem = s.mem := by
  unfold State.usePath
  split <;> simp
@[simp] theorem State.setBankAt_mem (s : State) (n : Nat) (b : DBank) : (s.setBankAt n b).mem = s.mem := rfl
@[simp] theorem State.setDie_mem (s : State) (d : Nat) (x : Die) : (s.setDie d x).mem = s.mem := rfl
@[simp] theorem State.request_mem (s : State) (k : BKind) (line at_ : Nat) : (s.request k line at_).mem = s.mem := rfl
@[simp] theorem State.correctWord_mem (s : State) (key w : Nat) : (s.correctWord key w).mem = s.mem := rfl
@[simp] theorem State.correctLine_mem (s : State) (line : Nat) : (s.correctLine line).mem = s.mem := by
  simp [State.correctLine, State.foldl_mem]
@[simp] theorem State.evict_mem (s : State) (die line : Nat) : (s.evict die line).mem = s.mem := by
  simp only [State.evict]
  split
  · rfl
  · split
    · split <;> simp
    · rfl
@[simp] theorem State.useLine_mem (s : State) (k : BKind) (nc write : Bool) (line at_ : Nat) :
    (s.useLine k nc write line at_).mem = s.mem := by
  simp only [State.useLine]
  split
  · simp
  · split
    · simp
    · split <;> simp
@[simp] theorem State.useHome_mem (s : State) (nc write : Bool) (rs : List (Nat × Nat)) (at_ : optParam Nat 0) :
    (s.useHome nc write rs at_).mem = s.mem := by simp [State.useHome, State.foldl_mem]
@[simp] theorem State.sendRun_mem (s : State) (sc : BitVec 3) (ws : List PWrite) : (s.sendRun sc ws).mem = s.mem := by
  simp [State.sendRun]
@[simp] theorem State.sendStore_mem (s : State) (sc : BitVec 3) (ws : List PWrite) : (s.sendStore sc ws).mem = s.mem := by
  simp [State.sendStore, State.foldl_mem]
@[simp] theorem State.sendBack_mem (s : State) (c k o : Nat) (ws : List (Nat × List Byte)) : (s.sendBack c k o ws).mem = s.mem := by
  simp [State.sendBack]
@[simp] theorem State.flushL1_mem (s : State) (c k o : Nat) (asn : BitVec 16) (lo n : Nat) (all inv : Bool) :
    (s.flushL1 c k o asn lo n all inv).mem = s.mem := by simp [State.flushL1, State.foldl_mem]
@[simp] theorem State.l1Write_mem (s : State) (c : Nat) (dirty : Bool) (pa : Nat) (bs : List Byte) :
    (s.l1Write c dirty pa bs).mem = s.mem := by
  induction bs generalizing s pa with
  | nil => rfl
  | cons b r ih =>
    rw [State.l1Write, ih]
    split <;> rfl

/-! ### Stores and flights at their homes -/
@[simp] theorem State.covered_mem (s : State) (w : Nat × List Byte) : (s.covered w).mem = s.mem := rfl
@[simp] theorem State.storeHome_mem (s : State) (a : Acc) : (s.storeHome a).mem = s.mem := by simp [State.storeHome]
@[simp] theorem State.setFlight_mem (s : State) (n : Nat) (f : Flight) : (s.setFlight n f).mem = s.mem := rfl
@[simp] theorem State.dropFlight_mem (s : State) (n : Nat) : (s.dropFlight n).mem = s.mem := rfl
@[simp] theorem State.tagBlocks_mem (s : State) (pa blocks : Nat) (t : Byte) : (s.tagBlocks pa blocks t).mem = s.mem := rfl
@[simp] theorem State.dirtyAt_mem (s : State) (pa : Nat) : (s.dirtyAt pa).mem = s.mem := by
  unfold State.dirtyAt
  split <;> simp
@[simp] theorem State.queueCause_mem (s : State) (c k : Nat) (a : AsyncCause) : (s.queueCause c k a).mem = s.mem := rfl
@[simp] theorem State.causeNow_mem (s : State) (c k : Nat) (a : AsyncCause) (now : Bool) : (s.causeNow c k a now).mem = s.mem := by
  simp [State.causeNow]
@[simp] theorem State.lateWait_mem (s : State) (c k : Nat) : (s.lateWait c k).mem = s.mem := by
  unfold State.lateWait
  split <;> simp
@[simp] theorem State.dirtyFor_mem (s : State) (o : EngOp) (pa : Nat) : (s.dirtyFor o pa).mem = s.mem := by simp [State.dirtyFor]
@[simp] theorem State.slotDone_mem (s : State) (o : EngOp) : (s.slotDone o).mem = s.mem := by
  unfold State.slotDone
  (repeat' split) <;> simp
@[simp] theorem State.modLq_mem (s : State) (q : Nat) (f : LQueue → LQueue) : (s.modLq q f).mem = s.mem := rfl
@[simp] theorem State.enqueue_mem (s : State) (r : LRec) : (s.enqueue r).mem = s.mem := rfl
@[simp] theorem State.loseRequest_mem (s : State) (n : Nat) (f : Flight) : (s.loseRequest n f).mem = s.mem := by
  unfold State.loseRequest
  (repeat' split) <;> simp
@[simp] theorem State.sendMarkers_mem (s : State) (n : Nat) (f : Flight) (scope : Nat) (m : Msg) :
    (s.sendMarkers n f scope m).mem = s.mem := State.foldl_mem (fun _ _ => by simp) _ _
@[simp] theorem State.reportDirty_mem (s : State) (c : Nat) (bs : List Nat) : (s.reportDirty c bs).mem = s.mem := by
  simp [State.reportDirty, State.foldl_mem]
@[simp] theorem State.walkLost_mem (s : State) (c i : Nat) (w : Walk) : (s.walkLost c i w).mem = s.mem := by
  simp [State.walkLost, State.foldl_mem]
@[simp] theorem State.putTlb_mem (s : State) (c : Nat) (e : TlbEntry) : (s.putTlb c e).mem = s.mem := rfl
@[simp] theorem State.loseMarker_mem (s : State) (n : Nat) (f : Flight) (k d : Nat) : (s.loseMarker n f k d).mem = s.mem := rfl

/-! ### Queues and splices -/
@[simp] theorem State.act_mem (q : Nat) (a : QAct) (s : State) : (s.act q a).mem = s.mem := rfl
@[simp] theorem State.wait_mem (s : State) (w : Wait) : (s.wait w).mem = s.mem := rfl
@[simp] theorem State.closeDrains_mem (s : State) (c k : Nat) (q : Option Nat) : (s.closeDrains c k q).mem = s.mem := by
  refine State.foldl_mem (fun t b => ?_) _ _
  split
  · split <;> rfl
  · rfl
@[simp] theorem State.applyAct_mem (c k : Nat) (a : QAct) (s : State) : (s.applyAct c k a).mem = s.mem := by
  unfold State.applyAct
  split <;> simp
@[simp] theorem State.modEnd_mem (s : State) (e : QEnd) (f : QDesc → QDesc) : (s.modEnd e f).mem = s.mem := by
  unfold State.modEnd
  (repeat' split) <;> simp
@[simp] theorem State.markBad_mem (s : State) (pa n : Nat) : (s.markBad pa n).mem = s.mem := rfl
@[simp] theorem State.unbindEnd_mem (s : State) (e : QEnd) (down : Bool) : (s.unbindEnd e down).mem = s.mem := by simp [State.unbindEnd]
@[simp] theorem State.partnerLoses_mem (s : State) (e : QEnd) (d : QDesc) : (s.partnerLoses e d).mem = s.mem := by
  unfold State.partnerLoses
  split <;> simp
@[simp] theorem State.unbindCtx_mem (s : State) (c k : Nat) : (s.unbindCtx c k).mem = s.mem :=
  State.foldl_mem (fun t q => by simp) _ _
@[simp] theorem State.unbindSaved_mem (s : State) (n : Nat) (v : Saved) : (s.unbindSaved n v).mem = s.mem :=
  State.foldl_mem (fun _ _ => State.foldl_mem (fun _ _ => by simp) _ _) _ _

/-! ### Tokens and parties -/
@[simp] theorem State.putRegion_mem (s : State) (r : Region) : (s.putRegion r).mem = s.mem := rfl
@[simp] theorem State.dropRegion_mem (s : State) (b : Nat) : (s.dropRegion b).mem = s.mem := rfl
@[simp] theorem State.clearShares_mem (s : State) (b : Nat) : (s.clearShares b).mem = s.mem := rfl
@[simp] theorem State.answer_mem (s : State) (n : Nat) (f : Flight) (t : TokReq) : (s.answer n f t).mem = s.mem := rfl
@[simp] theorem State.partyDies_mem (s : State) (p : Word) : (s.partyDies p).mem = s.mem := by simp [State.partyDies, State.foldl_mem]

/-! ### Engine operations -/
@[simp] theorem holdPages_mem (ps : List Nat) (s : State) : (holdPages ps s).mem = s.mem := by simp [holdPages]
@[simp] theorem State.issueOp_mem (s : State) (comp : Option Nat) (nc : Bool) (inc : Nat) (rows : List Row) (body : EngBody) :
    (s.issueOp comp nc inc rows body).mem = s.mem := rfl
@[simp] theorem State.setOp_mem (s : State) (n : Nat) (o : EngOp) : (s.setOp n o).mem = s.mem := rfl
@[simp] theorem State.useRow_mem (s : State) (r : Row) : (s.useRow r).mem = s.mem := by simp [State.useRow, State.foldl_mem]
@[simp] theorem State.endOp_mem (s : State) (n : Nat) (o : EngOp) : (s.endOp n o).mem = s.mem := rfl
@[simp] theorem State.unpin_mem (s : State) (o : EngOp) : (s.unpin o).mem = s.mem := by
  unfold State.unpin
  (repeat' split) <;> simp
@[simp] theorem State.startRollback_mem (s : State) (c k : Nat) (e : Cause) : (s.startRollback c k e).mem = s.mem := by
  simp [State.startRollback]
@[simp] theorem State.deliver_mem (s : State) (o : EngOp) (e : Cause) (stops : Bool) (slots : List (Nat × Nat)) :
    (s.deliver o e stops slots).mem = s.mem := by simp [State.deliver]
@[simp] theorem State.badSlot_mem (s : State) (c k q idx : Nat) : (s.badSlot c k q idx).mem = s.mem := by simp [State.badSlot]
@[simp] theorem State.stopOp_mem (s : State) (n : Nat) (o : EngOp) (e : Cause) : (s.stopOp n o e).mem = s.mem := by
  simp only [State.stopOp, State.deliver_mem, State.endOp_mem, State.unpin_mem]
  split
  · rw [State.foldl_mem (fun t e => by split <;> simp)]
    split
    · simp
    · split <;> simp
    · rfl
  · exact State.foldl_mem (fun t q => by simp) _ _
@[simp] theorem State.sendPiece_mem (s : State) (n : Nat) (o : EngOp) (c : CopyOp) (i : Nat) (bs : List Byte) :
    (s.sendPiece n o c i bs).mem = s.mem := by
  simp only [State.sendPiece]
  split
  · split
    · simp
    · rw [State.setOp_mem, State.foldl_mem (fun _ _ => by simp)]
  · split
    · split <;> simp
    · simp
  · simp
@[simp] theorem State.pieceBack_mem (s : State) (n : Nat) (o : EngOp) (c : CopyOp) (i : Nat) (ps : List (Nat × Nat)) :
    (s.pieceBack n o c i ps).mem = s.mem := by simp [State.pieceBack]
@[simp] theorem State.setTarget_mem (s : State) (n : Nat) (o : EngOp) (c : CopyOp) (k : Nat) (v : Delivery) :
    (s.setTarget n o c k v).mem = s.mem := rfl
@[simp] theorem State.setSx_mem (s : State) (n : Nat) (o : EngOp) (x : SxOp) : (s.setSx n o x).mem = s.mem := rfl
@[simp] theorem State.sxWord_mem (s : State) (n : Nat) (o : EngOp) (x : SxOp) (bs : List Byte) (bad : Bool) :
    (s.sxWord n o x bs bad).mem = s.mem := by simp [State.sxWord]
@[simp] theorem State.fetching_mem (s : State) (d : Nat) : (s.fetching d).mem = s.mem := by
  unfold State.fetching
  split <;> simp

/-! ### The array, barriers and gangs -/
@[simp] theorem State.modArr_mem (s : State) (f : MArray → MArray) : (s.modArr f).mem = s.mem := rfl
@[simp] theorem State.setBar_mem (s : State) (key : Nat) (b : BarSlot) : (s.setBar key b).mem = s.mem := rfl
@[simp] theorem State.sendArrival_mem (s : State) (v : Word) (bar : Bool) : (s.sendArrival v bar).mem = s.mem := by
  simp [State.sendArrival]
@[simp] theorem State.barDone_mem (s : State) (c k n p : Nat) (w : Wait) : (s.barDone c k n p w).mem = s.mem := rfl
@[simp] theorem State.setGang_mem (s : State) (n : Nat) (g : Gang) : (s.setGang n g).mem = s.mem := rfl
@[simp] theorem State.follow_mem (s : State) (g : Gang) : (s.follow g).mem = s.mem := by
  simp only [State.follow]
  split
  · rfl
  · exact State.foldl_mem (fun _ _ => by rfl) _ _
@[simp] theorem State.endBroadcast_mem (s : State) (n : Nat) (g : Gang) : (s.endBroadcast n g).mem = s.mem := by
  simp only [State.endBroadcast]
  rw [State.foldl_mem (fun _ _ => by rfl)]
  simp

/-! ### Cycles and commits -/
@[simp] theorem State.startWalk_mem (s : State) (c : Nat) (asn : BitVec 16) (root va : Nat) : (s.startWalk c asn root va).mem = s.mem := rfl
@[simp] theorem State.endCycle_mem (c k d : Nat) (held : Bool) (s : State) (issued : optParam Bool false) :
    (s.endCycle c k d held issued).mem = s.mem := rfl
@[simp] theorem State.endIdle_mem (c : Nat) (held : Bool) (s : State) : (s.endIdle c held).mem = s.mem := rfl
@[simp] theorem State.applyPops_mem (s : State) : (s.applyPops).mem = s.mem := by simp [State.applyPops, State.foldl_mem]
@[simp] theorem State.applyApps_mem (s : State) : s.applyApps.mem = s.mem :=
  State.foldl_mem (fun _ _ => by rfl) _ _
@[simp] theorem State.keepNamed_mem (old s : State) : (old.keepNamed s).mem = s.mem :=
  State.foldl_mem (fun t q => by simp) _ _
@[simp] theorem State.applyPins_mem (s : State) : s.applyPins.mem = s.mem :=
  State.foldl_mem (fun _ _ => by rfl) _ _
@[simp] theorem State.applyActs_mem (s : State) : (s.applyActs).mem = s.mem := by simp [State.applyActs, State.foldl_mem]
@[simp] theorem State.countIssue_mem (s : State) : s.countIssue.mem = s.mem := by
  simp only [State.countIssue]
  split <;> rfl
@[simp] theorem State.commitFault_mem (s : State) : s.commitFault.mem = s.mem := by
  simp only [State.commitFault, State.modMe_mem, State.modMyCore_mem, State.countIssue_mem, State.applyPins_mem, State.keepNamed_mem,
    State.applyApps_mem]
@[simp] theorem State.takeAsync_mem (s : State) : (s.takeAsync).mem = s.mem := by
  unfold State.takeAsync
  split <;> simp
@[simp] theorem State.takeRefused_mem (c : Nat) (s : State) : (s.takeRefused c).mem = s.mem := by
  simp only [State.takeRefused]
  split <;> simp
@[simp] theorem State.commitDone_mem (s : State) : (s.commitDone).mem = s.mem := by simp [State.commitDone]
@[simp] theorem State.commitCtl_mem (s : State) (c : Option Ctl) : (s.commitCtl c).mem = s.mem := by
  unfold State.commitCtl
  split <;> simp
@[simp] theorem State.commitWhole_mem (s : State) : (s.commitWhole).mem = s.mem := by simp [State.commitWhole]
@[simp] theorem State.commit_mem (s : State) : s.commit.mem = s.mem := by
  simp only [State.commit]
  split
  · rfl
  · split
    · simp
    · split <;> simp
theorem State.payWaitc_mem {s t : State} {pa : Nat} (h : s.payWaitc pa = some t) : t.mem = s.mem := by
  unfold State.payWaitc at h
  split at h
  · cases h; rfl
  · exact State.takePort_mem h
@[simp] theorem State.payWait_mem (s : State) (w : Wait) : (s.payWait w).mem = s.mem := by
  unfold State.payWait
  split
  · next pa _ =>
    cases h : s.payWaitc pa with
    | none => rfl
    | some t => exact State.payWaitc_mem h
  · rfl
@[simp] theorem State.holdBun_mem (c : Nat) (hs : List Hold) (s : State) : (s.holdBun c hs).mem = s.mem := by
  simp only [State.holdBun]
  split
  · exact State.foldl_mem (fun t h => by split <;> rfl) _ _
  · split
    · simp
    · rw [State.foldl_mem (fun _ _ => by rfl), State.foldl_mem (fun t h => by split <;> simp)]
@[simp] theorem State.trapBun_mem (c : Nat) (e : Nat × Cause × Nat) (s : State) : (s.trapBun c e).mem = s.mem := by
  simp only [State.trapBun]
  split <;> simp
@[simp] theorem State.keepBun_mem (c : Nat) (s : State) : (s.keepBun c).mem = s.mem := rfl
@[simp] theorem State.passStop_mem (s : State) (c : Nat) : (s.passStop c).mem = s.mem := rfl
@[simp] theorem State.checkAdders_mem (s : State) : (s.checkAdders).mem = s.mem := by simp [State.checkAdders]
@[simp] theorem State.prepare_mem (c : Nat) (s : State) : (s.prepare c).mem = s.mem := by simp [State.prepare]
@[simp] theorem State.park_mem (s : State) (n : Nat) (g : Gang) (m c k : Nat) : (s.park n g m c k).mem = s.mem := by simp [State.park]
@[simp] theorem State.gangEnd_mem (s : State) (n : Nat) : (s.gangEnd n).mem = s.mem := by
  unfold State.gangEnd
  (repeat' split) <;> simp
@[simp] theorem State.shareBuf_mem (s : State) (g : Gang) : (s.shareBuf g).mem = s.mem := by
  simp only [State.shareBuf]
  split
  · rfl
  · exact State.foldl_mem (fun _ _ => by rfl) _ _
@[simp] theorem State.stopPreempt_mem (s : State) : (s.stopPreempt).mem = s.mem := by
  unfold State.stopPreempt
  split <;> simp

/-! ### System registers, preemption and phases -/
@[simp] theorem State.selector_mem (s : State) (c : Nat) : (s.selector c).mem = s.mem := by
  unfold State.selector
  split <;> simp
@[simp] theorem State.sysWrite_mem (s : State) (n : Nat) (v : Word) : (s.sysWrite n v).mem = s.mem := by
  unfold State.sysWrite
  split <;> simp
@[simp] theorem State.ask_mem (s : State) (c k : Nat) : (s.ask c k).mem = s.mem := by
  simp only [State.ask]
  split
  · rw [State.setGang_mem, State.foldl_mem (fun _ _ => by rfl)]
  · exact State.foldl_mem (fun _ _ => by rfl) _ _
@[simp] theorem State.holdDue_mem (s : State) (c : Nat) : (s.holdDue c).mem = s.mem := rfl
@[simp] theorem State.discardPhase_mem (s : State) (c k : Nat) : (s.discardPhase c k).mem = s.mem := by
  simp only [State.discardPhase, State.modCore_mem, State.ite_mem, ite_self]
  exact State.foldl_mem (fun t e => by simp) _ _
@[simp] theorem State.rollbackFails_mem (s : State) (c k : Nat) : (s.rollbackFails c k).mem = s.mem := rfl
theorem State.asRunning_mem (s : State) (c k : Nat) {f : State → State} (hf : ∀ t, (f t).mem = t.mem) :
    (s.asRunning c k f).mem = s.mem := hf _
@[simp] theorem State.refetch_mem (s : State) (a : Nat) : (s.refetch a).mem = s.mem := rfl
@[simp] theorem State.rollOne_mem (s : State) (c k : Nat) : (s.rollOne c k).mem = s.mem := by
  simp only [State.rollOne]
  split
  · rfl
  · split
    · simp
    · rw [State.foldl_mem (fun t a => State.asRunning_mem t c k fun u => State.refetch_mem u a)]
      simp
@[simp] theorem State.rollGang_mem (s : State) (c k : Nat) : (s.rollGang c k).mem = s.mem := by
  simp only [State.rollGang]
  split
  · split
    · split <;> rfl
    · rfl
  · rfl
@[simp] theorem State.resumeOne_mem (s : State) (c k : Nat) : (s.resumeOne c k).mem = s.mem := rfl

/-! ### Launches, tasks and saved contexts -/
@[simp] theorem State.dequeue_mem (s : State) (q : Nat) : (s.dequeue q).mem = s.mem := rfl
@[simp] theorem State.setLaunch_mem (s : State) (lk : Nat) (l : Launch) : (s.setLaunch lk l).mem = s.mem := rfl
@[simp] theorem State.setEntry_mem (s : State) (lk ix : Nat) (e : Entry) : (s.setEntry lk ix e).mem = s.mem := by
  unfold State.setEntry
  split <;> simp
@[simp] theorem State.collect_mem (s : State) (lk ix c k : Nat) : (s.collect lk ix c k).mem = s.mem := by
  unfold State.collect
  split <;> simp
@[simp] theorem State.collectAll_mem (s : State) (lk : Nat) (l : Launch) : (s.collectAll lk l).mem = s.mem :=
  State.foldl_mem (fun _ _ => State.foldl_mem (fun _ _ => State.foldl_mem (fun _ _ => by simp) _ _) _ _) _ _
@[simp] theorem State.closeLoads_mem (s : State) (c k : Nat) : (s.closeLoads c k).mem = s.mem :=
  State.foldl_mem (fun t b => by split <;> rfl) _ _
@[simp] theorem State.refuseProducer_mem (s : State) (c k q : Nat) : (s.refuseProducer c k q).mem = s.mem := by
  simp only [State.refuseProducer, State.modCtx_mem]
  split <;> simp
@[simp] theorem State.endSplices_mem (s : State) (c k : Nat) : (s.endSplices c k).mem = s.mem :=
  State.foldl_mem (fun t q => by split <;> simp) _ _
@[simp] theorem State.finishInst_mem (s : State) (lk ix : Nat) (lost : Bool) : (s.finishInst lk ix lost).mem = s.mem := by
  simp only [State.finishInst]
  split
  · rw [State.setLaunch_mem]
    split <;> simp
  · rfl
@[simp] theorem State.freeCtx_mem (s : State) (lk ix c k : Nat) : (s.freeCtx lk ix c k).mem = s.mem := by simp [State.freeCtx]
@[simp] theorem State.seizeSpan_mem (s : State) (c k : Nat) : (s.seizeSpan c k).mem = s.mem :=
  State.foldl_mem (fun t r => by simp) _ _
@[simp] theorem State.unlockAll_mem (s : State) (c k : Nat) : (s.unlockAll c k).mem = s.mem := rfl
@[simp] theorem State.doneNotify_mem (s : State) (c k : Nat) : (s.doneNotify c k).mem = s.mem := rfl

@[simp] theorem State.sendEnded_mem (s : State) (o : EngOp) : (s.sendEnded o).mem = s.mem := by
  unfold State.sendEnded
  (repeat' split) <;> simp
@[simp] theorem State.dropCtx_mem (s : State) (c k : Nat) : (s.dropCtx c k).mem = s.mem := by simp [State.dropCtx, State.foldl_mem]
@[simp] theorem State.loseOne_mem (s : State) (c k : Nat) : (s.loseOne c k).mem = s.mem := by simp [State.loseOne, State.foldl_mem]
@[simp] theorem State.loseTask_mem (s : State) (c k : Nat) (killed : Bool) : (s.loseTask c k killed).mem = s.mem := by
  simp only [State.loseTask]
  split
  · rfl
  · rw [State.finishInst_mem]
    split <;> split <;> simp [State.foldl_mem]
@[simp] theorem State.moveEnds_mem (s : State) (f : QEnd → QEnd) : (s.moveEnds f).mem = s.mem := rfl
@[simp] theorem State.rebase_mem (s : State) (a b n : Nat) : (s.rebase a b n).mem = s.mem := rfl
@[simp] theorem State.unsaved_mem (s : State) (c k : Nat) (ms : List (Nat × Nat)) : (s.unsaved c k ms).mem = s.mem := by
  simp only [State.unsaved]
  split
  · rw [State.setGang_mem]
    exact State.foldl_mem (fun _ _ => State.foldl_mem (fun _ _ => by rfl) _ _) _ _
  · exact State.foldl_mem (fun _ _ => State.foldl_mem (fun _ _ => by rfl) _ _) _ _
@[simp] theorem State.headAtOnce_mem (s : State) (d : QDesc) : (s.headAtOnce d).mem = s.mem := by simp [State.headAtOnce]
@[simp] theorem State.restoreGang_mem (s : State) (n : Nat) (vs : List (Nat × Saved)) (ps : List Place) :
    (s.restoreGang n vs ps).mem = s.mem := by
  unfold State.restoreGang
  split
  · simp only
    split
    · split
      · rfl
      · rw [State.foldl_mem (fun _ _ => by rfl), State.setGang_mem]
    · rfl
  · rfl

/-! ### Wear, channels and links -/
@[simp] theorem State.setSage_mem (s : State) (c : Nat) (r : Sage) : (s.setSage c r).mem = s.mem := rfl
@[simp] theorem State.setStack_mem (s : State) (n : Nat) (x : Stack) : (s.setStack n x).mem = s.mem := rfl
@[simp] theorem State.alert_mem (s : State) (n row idx : Nat) : (s.alert n row idx).mem = s.mem := rfl
@[simp] theorem State.activate_mem (s : State) (n row : Nat) : (s.activate n row).mem = s.mem := by simp [State.activate]
@[simp] theorem State.readWords_mem (s : State) (stack : Nat) (pick : Nat → Bool) : (s.readWords stack pick).mem = s.mem := rfl
@[simp] theorem State.bankDone_mem (s : State) (n : Nat) (e : BReq) (d : Nat) : (s.bankDone n e d).mem = s.mem := by simp [State.bankDone]
@[simp] theorem State.forceStrong_mem (s : State) (die : Nat) : (s.forceStrong die).mem = s.mem := by simp [State.forceStrong]
@[simp] theorem State.flipWord_mem (s : State) (pa bits : Nat) : (s.flipWord pa bits).mem = s.mem := by simp [State.flipWord]
@[simp] theorem State.quietPkgs_mem (s : State) : (s.quietPkgs).mem = s.mem := by simp [State.quietPkgs, State.foldl_mem]
@[simp] theorem State.sent_mem (s : State) (n : Nat) (again : Bool) : (s.sent n again).mem = s.mem := by
  simp only [State.sent]
  split <;> rfl
@[simp] theorem State.resent_mem (s : State) (n : Nat) : (s.resent n).mem = s.mem := by
  unfold State.resent
  split <;> simp
@[simp] theorem State.capUpdate_mem (s : State) : (s.capUpdate).mem = s.mem := rfl
@[simp] theorem State.setLink_mem (s : State) (k : Nat) (l : Link) : (s.setLink k l).mem = s.mem := rfl
@[simp] theorem State.linkEntry_mem (s : State) (k : Nat) : (s.linkEntry k).mem = s.mem := rfl
@[simp] theorem State.loseFlights_mem (s u : State) (k : Nat) : (s.loseFlights u k).mem = s.mem :=
  State.foldl_mem (fun t e => by split <;> simp) _ _
@[simp] theorem State.losePieces_mem (s u : State) (k : Nat) : (s.losePieces u k).mem = s.mem := by
  refine State.foldl_mem (fun t e => ?_) _ _
  split
  · simp only
    split <;> simp
  · rfl
@[simp] theorem State.loseMarkers_mem (s u : State) (k : Nat) : (s.loseMarkers u k).mem = s.mem :=
  State.foldl_mem (fun t e => by simp only; split <;> simp) _ _
@[simp] theorem State.failSplices_mem (s u : State) (k : Nat) : (s.failSplices u k).mem = s.mem := by
  simp [State.failSplices, State.foldl_mem]
@[simp] theorem State.loseParties_mem (s : State) : (s.loseParties).mem = s.mem := by simp [State.loseParties, State.foldl_mem]
@[simp] theorem State.loseDie_mem (s : State) (d : Nat) : (s.loseDie d).mem = s.mem :=
  State.foldl_mem (fun _ _ => State.foldl_mem (fun _ _ => by simp) _ _) _ _
@[simp] theorem State.linkFails_mem (s : State) (k : Nat) : (s.linkFails k).mem = s.mem := by simp [State.linkFails]
@[simp] theorem State.replay_mem (s : State) (k lane : Nat) (outw : Bool) : (s.replay k lane outw).mem = s.mem := by simp [State.replay]
@[simp] theorem State.leavePod_mem (s : State) (pkg : Nat) : (s.leavePod pkg).mem = s.mem := by
  simp only [State.leavePod]
  rw [State.foldl_mem (fun t p => by simp)]
  rw [State.foldl_mem]
  · rw [State.foldl_mem (fun t e => by simp)]
    simp
  · intro t e
    split
    · simp
    · split
      · split <;> simp
      · rfl
    · simp
    · rfl

/-! ### Ports, hosts and management -/
@[simp] theorem State.setPort_mem (s : State) (p : Nat) (x : Port) : (s.setPort p x).mem = s.mem := rfl
@[simp] theorem State.received_mem (s : State) (p n : Nat) : (s.received p n).mem = s.mem := rfl
@[simp] theorem State.hears_mem (s : State) (n : Nat) : (s.hears n).mem = s.mem := by simp [State.hears, State.foldl_mem]
@[simp] theorem State.remoteData_mem (s : State) (n : Nat) (bs : List Byte) : (s.remoteData n bs).mem = s.mem := by
  unfold State.remoteData
  (repeat' split) <;> simp
@[simp] theorem State.remoteObject_mem (s : State) (c k v : Nat) : (s.remoteObject c k v).mem = s.mem := by simp [State.remoteObject]
@[simp] theorem State.setHost_mem (s : State) (h : Nat) (x : HostCore) : (s.setHost h x).mem = s.mem := rfl
@[simp] theorem State.writeThyme_mem (s : State) (o v : Nat) : (s.writeThyme o v).mem = s.mem := by simp [State.writeThyme]
@[simp] theorem State.writeNet_mem (s : State) (o v : Nat) : (s.writeNet o v).mem = s.mem := by simp [State.writeNet]
@[simp] theorem State.hubWrite_mem (s : State) (o v : Nat) : (s.hubWrite o v).mem = s.mem := by simp [State.hubWrite]
@[simp] theorem State.hostEnds_mem (s : State) (h st : Nat) : (s.hostEnds h st).mem = s.mem := rfl
@[simp] theorem State.hostWaits_mem (s : State) (h op : Nat) (ps : List (Nat × Nat)) : (s.hostWaits h op ps).mem = s.mem := rfl
@[simp] theorem State.hostSaw_mem (s : State) (h : Nat) (fault : Bool) (d : List Byte) : (s.hostSaw h fault d).mem = s.mem := rfl
@[simp] theorem State.extend_mem (s : State) (im : Image) : (s.extend im).mem = s.mem := rfl
@[simp] theorem State.restoreSage_mem (s : State) : (s.restoreSage).mem = s.mem := rfl
@[simp] theorem State.updated_mem (s : State) (im : Image) : (s.updated im).mem = s.mem := rfl
@[simp] theorem State.setDiv_mem (s : State) : (s.setDiv).mem = s.mem := rfl

/-!
## Writers and checks

The writes of memory keep it canonical; a check or performance of a slot answers, where it passes, a state whose memory is canonical.
-/

/-! ### Memory -/
theorem Memory.wf_storeAll {m : Memory} (h : m.wf = true) (ws : List (Nat × List Byte)) : (storeAll m ws).wf = true := by
  induction ws generalizing m with
  | nil => exact h
  | cons w r ih => exact ih (Memory.wf_writeBytes h w.1 w.2)

theorem Memory.wf_paste {m : Memory} (h : m.wf = true) (a n : Nat) (p : Memory) : (m.paste a n p).wf = true := by
  unfold Memory.paste
  exact List.foldlRecOn (motive := fun t : Memory => t.wf = true) p _ (Memory.wf_filter h _) fun t ht c _ =>
    Memory.wf_write ht (a + c.1) c.2

/-! ### Results -/

/-- The outcome is no next state, or one whose memory is in canonical form. -/
def OutCanon : Out → Prop
  | .next t => t.mem.wf = true
  | _ => True

/-- The check or performance fails, or answers a state whose memory is in canonical form. -/
def ExCanon : Except Stop State → Prop
  | .ok t => t.mem.wf = true
  | .error _ => True

/-- There is no state, or one whose memory is in canonical form. -/
def OptCanon : Option State → Prop
  | some t => t.mem.wf = true
  | none => True

@[simp] theorem OutCanon_next (s : State) : OutCanon (.next s) ↔ s.mem.wf = true := Iff.rfl
@[simp] theorem ExCanon_ok (s : State) : ExCanon (.ok s) ↔ s.mem.wf = true := Iff.rfl
@[simp] theorem ExCanon_error (e : Stop) : ExCanon (.error e) := trivial
@[simp] theorem OptCanon_some (s : State) : OptCanon (some s) ↔ s.mem.wf = true := Iff.rfl
@[simp] theorem OptCanon_none : OptCanon none := trivial

theorem OutCanon.of_next {o : Out} {t : State} (h : OutCanon o) (e : o = .next t) : t.mem.wf = true := by
  subst e
  exact h

theorem OptCanon.of_some {o : Option State} {t : State} (h : OptCanon o) (e : o = some t) : t.mem.wf = true := by
  subst e
  exact h

theorem ExCanon.ok {s : State} (h : s.mem.wf = true) : ExCanon (.ok s) := h
theorem ExCanon.error (e : Stop) : ExCanon (.error e) := trivial
theorem ExCanon.of_ok {x : Except Stop State} {t : State} (h : ExCanon x) (e : x = .ok t) : t.mem.wf = true := by
  subst e
  exact h

theorem ExCanon.bind {x : Except Stop State} {f : State → Except Stop State} (hx : ExCanon x)
    (hf : ∀ t, t.mem.wf = true → ExCanon (f t)) : ExCanon (x >>= f) := by
  cases x with
  | ok t => exact hf t hx
  | error e => trivial

theorem ExCanon.ite {c : Prop} [Decidable c] {x y : Except Stop State} (hx : ExCanon x) (hy : ExCanon y) :
    ExCanon (if c then x else y) := by
  split
  · exact hx
  · exact hy

/-- A step of a check that is chosen by a condition: what follows it is said once. -/
theorem ExCanon.iteJoin {c : Prop} [Decidable c] {x y : Except Stop State} {f : State → Except Stop State} (hx : ExCanon x)
    (hy : (∀ t, t.mem.wf = true → ExCanon (f t)) → ExCanon y) (hf : ∀ t, t.mem.wf = true → ExCanon (f t)) :
    ExCanon (if c then x >>= f else y) :=
  .ite (.bind hx hf) (hy hf)

theorem OutCanon.ite {c : Prop} [Decidable c] {x y : Out} (hx : OutCanon x) (hy : OutCanon y) :
    OutCanon (if c then x else y) := by
  split
  · exact hx
  · exact hy

/-- A fold keeps memory canonical where each of its steps does. -/
theorem State.foldl_wf {α : Type} {f : State → α → State} (hf : ∀ t a, t.mem.wf = true → (f t a).mem.wf = true) (l : List α)
    {s : State} (h : s.mem.wf = true) : (l.foldl f s).mem.wf = true :=
  List.foldlRecOn l f h fun t ht a _ => hf t a ht

/-- A fold that carries a second value beside the state. -/
theorem State.foldl_fst_wf {α β : Type} {f : State × β → α → State × β}
    (hf : ∀ p a, p.1.mem.wf = true → (f p a).1.mem.wf = true) (l : List α) {p : State × β} (h : p.1.mem.wf = true) :
    (l.foldl f p).1.mem.wf = true :=
  List.foldlRecOn (motive := fun p => p.1.mem.wf = true) l f h fun p hp a _ => hf p a hp

/-- A check whose failure ends the course, written as a match. -/
theorem ExCanon.andThen {x : Except Stop State} {f : State → Except Stop State} (hx : ExCanon x)
    (hf : ∀ t, t.mem.wf = true → ExCanon (f t)) : ExCanon (match x with | .error e => .error e | .ok s => f s) := by
  cases x with
  | ok t => exact hf t hx
  | error e => trivial

/-- What goes on from a next state and passes any other outcome on. -/
theorem OutCanon.andThen {o : Out} {f : State → Out} (ho : OutCanon o)
    (hf : ∀ t, t.mem.wf = true → OutCanon (f t)) :
    OutCanon (match o with | .next t => f t | e => e) := by
  cases o with
  | next t => exact hf t ho
  | fault r => trivial
  | refused r => trivial

/-! ### Slots -/
@[simp] theorem idle_canon {s : State} (h : s.mem.wf = true) : OutCanon (idle s) := h

theorem OutCanon.runSlot {g : BitVec 4} {issue perf : State → Except Stop State} {s : State} (h : s.mem.wf = true)
    (hi : ∀ t, t.mem.wf = true → ExCanon (issue t)) (hp : ∀ t, t.mem.wf = true → ExCanon (perf t)) :
    OutCanon (runSlot g issue perf s) := by
  simp only [Machine.runSlot]
  split
  · split
    · simpa using h
    · next t ht =>
      have hw : t.mem.wf = true := (hi s h).of_ok ht
      split
      · split
        · simpa using hw
        · next u hu => exact (hp t hw).of_ok hu
      · exact hw
  · exact h

theorem OutCanon.runPure {g : BitVec 4} {perf : State → State} {s : State} (h : s.mem.wf = true)
    (hp : (perf s).mem.wf = true) : OutCanon (runPure g perf s) := OutCanon.ite hp h

section
variable {s : State}

/-! ### Checks and performances -/

@[simp] theorem require_canon (h : s.mem.wf = true) (b : Bool) (c : Cause) : ExCanon (require b c s) := .ite h trivial
@[simp] theorem readRegs_canon (h : s.mem.wf = true) (rs : List Nat) : ExCanon (readRegs rs s) := .ite trivial h
@[simp] theorem readAddr_canon (h : s.mem.wf = true) (rs : List Nat) : ExCanon (readAddr rs s) :=
  .ite trivial (readRegs_canon h rs)

@[simp] theorem needSlot_canon (h : s.mem.wf = true) (q k : Nat) : ExCanon (needSlot q k s) := by
  simp only [needSlot]
  split
  · trivial
  · trivial
  · exact .ite (by simpa using h) trivial
  · exact .ite (by simpa using h) trivial

@[simp] theorem needSlots_canon (h : s.mem.wf = true) (q n : Nat) : ExCanon (needSlots q n s) := by
  induction n generalizing s with
  | zero => exact h
  | succ n ih =>
    unfold needSlots
    split
    · trivial
    · next t ht => exact ih ((needSlot_canon h q n).of_ok ht)

@[simp] theorem popSlots_canon (h : s.mem.wf = true) (q n : Nat) : ExCanon (popSlots q n s) := by
  unfold popSlots
  split
  · trivial
  · next t ht => simpa using (needSlots_canon h q n).of_ok ht

@[simp] theorem appendCheck_canon (h : s.mem.wf = true) (q : Nat) : ExCanon (appendCheck q s) := by
  simp only [appendCheck]
  split
  · trivial
  · trivial
  · exact .ite trivial h
  · exact .ite trivial (.ite trivial (.ite h (.ite trivial (.ite h h))))

@[simp] theorem appendSlot_canon (h : s.mem.wf = true) (q : Nat) : ExCanon (appendSlot q s) := by
  unfold appendSlot
  split
  · exact h
  · split
    · trivial
    · next t ht => simpa using (appendCheck_canon h q).of_ok ht

@[simp] theorem oneBlock_canon (h : s.mem.wf = true) (q : Nat) : ExCanon (oneBlock q s) := require_canon h _ _
@[simp] theorem readSlot_canon (h : s.mem.wf = true) (q k : Nat) : ExCanon (readSlot q k s) := .ite trivial h

@[simp] theorem vsrcIssue_canon (h : s.mem.wf = true) (sp : BitVec 10) : ExCanon (vsrcIssue sp s) :=
  .ite (.bind (oneBlock_canon h _) fun _ h => .ite (popSlots_canon h _ _) (needSlot_canon h _ _)) (.ok h)

@[simp] theorem vsrcRead_canon (h : s.mem.wf = true) (sp : BitVec 10) : ExCanon (vsrcRead sp s) := by
  unfold vsrcRead
  split
  · exact .ite trivial h
  · exact readSlot_canon h _ _
  · exact readRegs_canon h _
  · exact h

@[simp] theorem tagCheck_canon (h : s.mem.wf = true) (st : Stream) (k : Nat) : ExCanon (tagCheck st k s) := .ite h trivial

@[simp] theorem vsrcsIssue_canon (h : s.mem.wf = true) (l : List (BitVec 10)) : ExCanon (vsrcsIssue l s) := by
  induction l generalizing s with
  | nil => exact h
  | cons sp r ih =>
    unfold vsrcsIssue
    split
    · trivial
    · next t ht => exact ih ((vsrcIssue_canon h sp).of_ok ht)

@[simp] theorem vsrcsRead_canon (h : s.mem.wf = true) (l : List (BitVec 10)) : ExCanon (vsrcsRead l s) := by
  induction l generalizing s with
  | nil => exact h
  | cons sp r ih =>
    unfold vsrcsRead
    split
    · trivial
    · next t ht => exact ih ((vsrcRead_canon h sp).of_ok ht)

@[simp] theorem vdstIssue_canon (h : s.mem.wf = true) (dst : BitVec 8) : ExCanon (vdstIssue dst s) := by
  unfold vdstIssue
  split
  · split
    · trivial
    · next t ht => exact appendSlot_canon ((oneBlock_canon h _).of_ok ht) _
  · exact h

@[simp] theorem streamOn_canon (h : s.mem.wf = true) (d : Nat) : ExCanon (streamOn d s) := require_canon h _ _
@[simp] theorem psrcIssue_canon (h : s.mem.wf = true) (p : PSrc) : ExCanon (psrcIssue p s) :=
  .ite (popSlots_canon h _ _) (needSlot_canon h _ _)
@[simp] theorem psrcRead_canon (h : s.mem.wf = true) (p : PSrc) : ExCanon (psrcRead p s) :=
  .bind (readSlot_canon h _ _) fun _ h => tagCheck_canon h _ _
@[simp] theorem notLoopEnd_canon (h : s.mem.wf = true) : ExCanon (notLoopEnd s) := require_canon h _ _
@[simp] theorem notBroadcast_canon (h : s.mem.wf = true) : ExCanon (notBroadcast s) := require_canon h _ _
@[simp] theorem notEndNorBroadcast_canon (h : s.mem.wf = true) : ExCanon (notEndNorBroadcast s) :=
  .bind (notLoopEnd_canon h) fun _ h => notBroadcast_canon h

@[simp] theorem checkAccess_canon (h : s.mem.wf = true) (k : RKind) (a n align : Nat) : ExCanon (checkAccess k a n align s) := by
  unfold checkAccess
  split
  · trivial
  · split
    · trivial
    · exact h
    · split
      · exact h
      · simp only
        split
        · trivial
        · simpa using h

@[simp] theorem roomFor_canon (h : s.mem.wf = true) : ExCanon (roomFor s) := by simpa [roomFor] using h
@[simp] theorem landRoom_canon (h : s.mem.wf = true) (n : Nat) : ExCanon (landRoom n s) := by simpa [landRoom] using h
@[simp] theorem phaseStore_canon (h : s.mem.wf = true) (a n : Nat) : ExCanon (phaseStore a n s) :=
  .ite h (.ite (require_canon h _ _) trivial)
@[simp] theorem phaseNone_canon (h : s.mem.wf = true) : ExCanon (phaseNone s) := require_canon h _ _
@[simp] theorem streamBound_canon (h : s.mem.wf = true) (m : MForm) (n : Nat) : ExCanon (streamBound m n s) := require_canon h _ _
@[simp] theorem memStream_canon (h : s.mem.wf = true) (d : Nat) : ExCanon (memStream d s) := require_canon h _ _
@[simp] theorem storeFirst_canon (h : s.mem.wf = true) (a align : Nat) : ExCanon (storeFirst a align s) :=
  .ite trivial (.ite trivial h)

@[simp] theorem checkStore_canon (h : s.mem.wf = true) (a n align : Nat) : ExCanon (checkStore a n align s) := by
  unfold checkStore
  split
  · trivial
  · next t ht =>
    split
    · trivial
    · next u hu => exact checkAccess_canon ((phaseStore_canon ((storeFirst_canon h a align).of_ok ht) a n).of_ok hu) _ _ _ _

@[simp] theorem checkLanes_canon (h : s.mem.wf = true) (m : MForm) : ExCanon (checkLanes m s) :=
  .ite trivial (require_canon h _ _)
@[simp] theorem gatherCheck_canon (h : s.mem.wf = true) (m : MForm) : ExCanon (gatherCheck m s) := require_canon h _ _

@[simp] theorem checkRows_canon (h : s.mem.wf = true) (k : RKind) (m : MForm) (st : Stream) (l : List Nat) :
    ExCanon (checkRows k m st l s) := by
  induction l generalizing s with
  | nil => exact h
  | cons i r ih =>
    unfold checkRows
    simp only
    split
    · trivial
    · next t ht => exact ih ((ExCanon.ite (checkStore_canon h _ _ _) (checkAccess_canon h _ _ _ _)).of_ok ht)

@[simp] theorem checkAtom_canon (h : s.mem.wf = true) (a n align : Nat) : ExCanon (checkAtom a n align s) := by
  unfold checkAtom
  refine .bind (phaseNone_canon h) fun _ h => ?_
  refine .iteJoin (.error _) (.bind (.ok h)) fun _ h => ?_
  refine .iteJoin (.error _) (.bind (.ok h)) fun _ h => ?_
  exact .bind (checkAccess_canon h _ _ _ _) fun _ h => roomFor_canon h

@[simp] theorem waitImm_canon (h : s.mem.wf = true) (w : RForm) (lo hi : Nat) : ExCanon (waitImm w lo hi s) := require_canon h _ _
@[simp] theorem descAddr_canon (h : s.mem.wf = true) (a : Nat) : ExCanon (descAddr a s) := .ite trivial (require_canon h _ _)
@[simp] theorem engineRoom_canon (h : s.mem.wf = true) : ExCanon (engineRoom s) := by simpa [engineRoom] using h

@[simp] theorem checkEngineRows_canon (h : s.mem.wf = true) (k : RKind) (base pitch len r : Nat) :
    ExCanon (checkEngineRows k base pitch len r s) := by
  induction r generalizing s with
  | zero => exact h
  | succ r ih => exact .bind (ih h) fun _ h => checkAccess_canon h _ _ _ _

@[simp] theorem checkComp_canon (h : s.mem.wf = true) (a n : Nat) : ExCanon (checkComp a n s) :=
  .ite h (checkAccess_canon h _ _ _ _)

@[simp] theorem checkTarget_canon (h : s.mem.wf = true) (d : CopyDesc) (c : Nat) : ExCanon (checkTarget d c s) :=
  .ite (.ite h trivial) (.ite trivial (.ite h trivial))

@[simp] theorem checkTargets_canon (h : s.mem.wf = true) (d : CopyDesc) (l : List Nat) : ExCanon (checkTargets d l s) := by
  induction l generalizing s with
  | nil => exact h
  | cons c r ih =>
    unfold checkTargets
    split
    · trivial
    · next t ht => exact ih ((checkTarget_canon h d c).of_ok ht)

@[simp] theorem copyIssue_canon (h : s.mem.wf = true) (k : CopyKind) (m : MForm) : ExCanon (copyIssue k m s) := by
  unfold copyIssue
  refine .bind (descAddr_canon h _) fun _ h => ?_
  refine .bind (require_canon h _ _) fun _ h => ?_
  refine .bind (require_canon h _ _) fun _ h => ?_
  refine .bind (require_canon h _ _) fun _ h => ?_
  refine .bind (require_canon h _ _) fun _ h => ?_
  refine .iteJoin (.ite (popSlots_canon h _ _) (needSlot_canon h _ _)) (.bind (.ok h)) fun _ h => ?_
  refine .iteJoin (.bind (require_canon h _ _) fun _ h => appendSlot_canon h _) (fun hf =>
    .ite (.bind (.bind (require_canon h _ _) fun _ h => appendSlot_canon h _) hf) (.bind (.ok h) hf)) fun _ h => ?_
  refine .bind (require_canon h _ _) fun _ h => ?_
  refine .iteJoin (.ok h) (.bind (checkEngineRows_canon h _ _ _ _ _)) fun _ h => ?_
  refine .iteJoin (.ite (checkTargets_canon h _ _) (.ok h)) (fun hf => .ite (.bind (checkTargets_canon h _ _) hf)
    (.ite (.bind (require_canon h _ _) hf) (.bind (checkEngineRows_canon h _ _ _ _ _) hf))) fun _ h => ?_
  refine .bind (checkComp_canon h _ _) fun _ h => ?_
  refine .iteJoin (require_canon h _ _) (.bind (.ok h)) fun _ h => ?_
  exact engineRoom_canon (by simpa using h)

@[simp] theorem sxIssue_canon (h : s.mem.wf = true) (run : Bool) (m : MForm) : ExCanon (sxIssue run m s) := by
  unfold sxIssue
  refine .bind (descAddr_canon h _) fun _ h => ?_
  refine .bind (require_canon h _ _) fun _ h => ?_
  refine .bind (require_canon h _ _) fun _ h => ?_
  refine .bind (require_canon h _ _) fun _ h => ?_
  refine .bind (checkAccess_canon h _ _ _ _) fun _ h => ?_
  refine .bind (checkComp_canon h _ _) fun _ h => ?_
  exact engineRoom_canon (by simpa using h)

@[simp] theorem arrayUse_canon (h : s.mem.wf = true) : ExCanon (arrayUse s) := require_canon h _ _

@[simp] theorem pushStream_canon (h : s.mem.wf = true) (d i : Nat) (a scale : Bool) : ExCanon (pushStream d i a scale s) := by
  unfold pushStream
  simp only
  split
  · trivial
  · refine .bind (require_canon h _ _) fun _ h => ?_
    refine .bind (require_canon h _ _) fun _ h => ?_
    refine .bind (require_canon h _ _) fun _ h => ?_
    exact .iteJoin (require_canon h _ _) (.bind (require_canon h _ _)) fun _ h => .ite (require_canon h _ _) (.ok h)

@[simp] theorem pushSlots_canon (h : s.mem.wf = true) (d i : Nat) (scale close : Bool) : ExCanon (pushSlots d i scale close s) := by
  unfold pushSlots
  refine .ite (.ite (needSlot_canon (by simpa using h) _ _) (by simpa using h)) ?_
  refine .bind (needSlot_canon h _ _) fun _ h => ?_
  refine .iteJoin (popSlots_canon h _ _) (.bind (.ok h)) fun _ h => ?_
  exact .ite (.ite (popSlots_canon h _ _) (needSlot_canon h _ _)) (.ok h)

@[simp] theorem fetchCheck_canon (h : s.mem.wf = true) (d i : Nat) (scale : Bool) : ExCanon (fetchCheck d i scale s) := by
  unfold fetchCheck
  refine .ite (.bind (.ite trivial h) fun _ h => .ite trivial h) ?_
  exact .bind (.ite trivial h) fun _ h => .bind (.ite trivial h) fun _ h => .ite h trivial

@[simp] theorem pushIssue_canon (h : s.mem.wf = true) (w : XForm) (cell : Nat) : ExCanon (pushIssue w cell s) := by
  unfold pushIssue
  refine .bind (arrayUse_canon h) fun _ h => ?_
  refine .bind (pushStream_canon h _ _ _ _) fun _ h => ?_
  refine .bind (pushStream_canon h _ _ _ _) fun _ h => ?_
  refine .bind (require_canon h _ _) fun _ h => ?_
  exact .bind (pushSlots_canon h _ _ _ _) fun _ h => pushSlots_canon h _ _ _ _

@[simp] theorem barCheck_canon (h : s.mem.wf = true) (arrives : Bool) (v : Word) : ExCanon (barCheck arrives v s) :=
  .bind (require_canon h _ _) fun _ h => .bind (require_canon h _ _) fun _ h => require_canon h _ _
@[simp] theorem sysCheck_canon (h : s.mem.wf = true) (n : Nat) : ExCanon (sysCheck n s) :=
  .bind (require_canon h _ _) fun _ h => require_canon h _ _
end

/-!
## The slots

One lemma for each course that slot instructions share, and one for each instruction with a course of its own.
-/

section
variable {s : State}

/-! ### Vectors and permutes -/

theorem vec_canon (h : s.mem.wf = true) (lat tag : Nat) (srcs : List (BitVec 10)) (res : State → Nat → Nat) (w : VForm) :
    OutCanon (vec lat tag srcs res w s) :=
  .runSlot h (fun _ h => .andThen (vsrcsIssue_canon h _) fun _ h => vdstIssue_canon h _)
    fun _ h => .andThen (vsrcsRead_canon h _) fun _ h => by simpa using h

theorem vpred_canon (h : s.mem.wf = true) (srcs : List (BitVec 10)) (res : State → Nat → Bool) (w : VForm) :
    OutCanon (vpred srcs res w s) :=
  .runSlot h (fun _ h => vsrcsIssue_canon h _) fun _ h => .andThen (vsrcsRead_canon h _) fun _ h => by simpa using h

theorem permute_canon (h : s.mem.wf = true) (w : PForm) (useB : Bool) (bt : Option Nat) (swz : Bool) (size legal : State → Bool)
    (sc : Bool) (res : State → List Byte → List Byte → PResult) : OutCanon (permute w useB bt swz size legal sc res s) := by
  unfold permute
  refine .runSlot h (fun _ h => ?_) fun _ h => ?_
  · refine .bind (require_canon h _ _) fun _ h => .bind (streamOn_canon h _) fun _ h => ?_
    refine .iteJoin (streamOn_canon h _) (.bind (.ok h)) fun _ h => ?_
    refine .bind (streamOn_canon h _) fun _ h => .bind (require_canon h _ _) fun _ h => ?_
    refine .bind (require_canon h _ _) fun _ h => .bind (require_canon h _ _) fun _ h => .bind (psrcIssue_canon h _) fun _ h => ?_
    refine .iteJoin (psrcIssue_canon h _) (.bind (.ok h)) fun _ h => .bind (appendSlot_canon h _) fun _ h => ?_
    exact .iteJoin (appendSlot_canon h _) (.bind (.ok h)) fun _ h => by simpa using h
  · refine .bind (psrcRead_canon h _) fun _ h => .iteJoin (psrcRead_canon h _) (.bind (.ok h)) fun _ h => ?_
    simp only [ExCanon_ok, State.modMyCore_mem]
    split <;> simpa using h

theorem vmap1_canon (h : s.mem.wf = true) (lat : Nat) (op : EKind → Nat → Nat) (w : VForm) : OutCanon (vmap1 lat op w s) :=
  vec_canon h _ _ _ _ _
theorem vmap2_canon (h : s.mem.wf = true) (lat : Nat) (op : EKind → Nat → Nat → Nat) (w : VForm) : OutCanon (vmap2 lat op w s) :=
  vec_canon h _ _ _ _ _
theorem vmap3f_canon (h : s.mem.wf = true) (op : FVal → FVal → FVal → FVal) (w : VForm) : OutCanon (vmap3f op w s) :=
  vec_canon h _ _ _ _ _
theorem vreduce_canon (h : s.mem.wf = true) (op : EKind → Nat → Nat → Nat) (w : VForm) : OutCanon (vreduce op w s) :=
  vec_canon h _ _ _ _ _
theorem vdot_canon (h : s.mem.wf = true) (w : VForm) : OutCanon (vdot w s) := vec_canon h _ _ _ _ _

theorem pconvert_canon (h : s.mem.wf = true) (w : PForm) : OutCanon (pconvert w s) := permute_canon h _ _ _ _ _ _ _ _

theorem execPscl_canon (h : s.mem.wf = true) (w : PForm) : OutCanon (execPscl w s) := by
  simp only [execPscl]
  exact permute_canon h _ _ _ _ _ _ _ _

theorem execPshuf_canon (h : s.mem.wf = true) (w : PForm) : OutCanon (execPshuf w s) := by
  simp only [execPshuf]
  exact permute_canon h _ _ _ _ _ _ _ _

theorem execPtrn_canon (h : s.mem.wf = true) (w : PForm) : OutCanon (execPtrn w s) := by
  simp only [execPtrn]
  exact permute_canon h _ _ _ _ _ _ _ _

theorem execPlut_canon (h : s.mem.wf = true) (w : PForm) : OutCanon (execPlut w s) := by
  simp only [execPlut]
  exact permute_canon h _ _ _ _ _ _ _ _

/-! ### Control -/

theorem execBr_canon (h : s.mem.wf = true) (w : BForm) : OutCanon (execBr w s) :=
  .runSlot h (fun _ h => notLoopEnd_canon h) fun _ h => by simpa using h
theorem execBrp_canon (h : s.mem.wf = true) (w : BPForm) : OutCanon (execBrp w s) :=
  .runSlot h (fun _ h => notLoopEnd_canon h) fun _ h => by simpa using h
theorem execBrnp_canon (h : s.mem.wf = true) (w : BPForm) : OutCanon (execBrnp w s) :=
  .runSlot h (fun _ h => notLoopEnd_canon h) fun _ h => by simpa using h
theorem execCall_canon (h : s.mem.wf = true) (w : BForm) : OutCanon (execCall w s) :=
  .runSlot h (fun _ h => notEndNorBroadcast_canon h) fun _ h => by simpa using h
theorem jumpReg_canon (h : s.mem.wf = true) (w : RForm) : OutCanon (jumpReg w s) :=
  .runSlot h (fun _ h => notEndNorBroadcast_canon h) fun _ h => .andThen (readRegs_canon h _) fun _ h => by simpa using h

theorem loopRun_canon (h : s.mem.wf = true) (w : JForm) (plan : State → Option LoopPlan) (rs : List Nat) :
    OutCanon (loopRun w plan rs s) := by
  refine .runSlot h (fun _ h => ?_) fun _ h => .andThen (readRegs_canon h _) fun _ h => ?_
  · refine .bind (notLoopEnd_canon h) fun _ h => .bind (require_canon h _ _) fun _ h => ?_
    exact .bind (require_canon h _ _) fun _ h => .bind (require_canon h _ _) fun _ h => require_canon h _ _
  · split
    · exact h
    · exact .ite (by simpa using h) (by simpa using h)

theorem execLbrk_canon (h : s.mem.wf = true) (w : RForm) : OutCanon (execLbrk w s) :=
  .runSlot h (fun _ h => require_canon h _ _) fun _ h => by simpa using h
theorem execGetx_canon (h : s.mem.wf = true) (w : RForm) : OutCanon (execGetx w s) := .runPure h (by simpa using h)
theorem execChksig_canon (h : s.mem.wf = true) (w : RForm) : OutCanon (execChksig w s) :=
  .runSlot h (fun _ h => require_canon h _ _) fun _ h => .andThen (readRegs_canon h _) fun _ h => by simpa using h

theorem execPhase_canon (h : s.mem.wf = true) (w : RForm) : OutCanon (execPhase w s) := by
  refine .runSlot h (fun _ h => ?_) fun _ h => .andThen (readRegs_canon h _) fun _ h => by simpa using h
  refine .bind (require_canon h _ _) fun _ h => .bind (require_canon h _ _) fun _ h => .bind (require_canon h _ _) fun _ h => ?_
  exact .bind (require_canon h _ _) fun _ h => .bind (require_canon h _ _) fun _ h => require_canon h _ _

theorem execTrap_canon (h : s.mem.wf = true) (w : RForm) : OutCanon (execTrap w s) := .runPure h (by simpa using h)
theorem execYield_canon (h : s.mem.wf = true) (w : RForm) : OutCanon (execYield w s) :=
  .runSlot h (fun _ h => .bind (require_canon h _ _) fun _ h => notBroadcast_canon h) fun _ h => by simpa using h
theorem eret_canon (h : s.mem.wf = true) (e : Eret) (w : RForm) : OutCanon (eret e w s) :=
  .runSlot h (fun _ h => require_canon h _ _) fun _ h => by simpa using h

/-! ### Memory accesses and atomics -/

theorem loadRegs_canon (h : s.mem.wf = true) (m : MForm) (n align : Nat) (ws : List Write) (dst : ADst) :
    OutCanon (loadRegs m n align ws dst s) :=
  .runSlot h (fun _ h => .bind (checkAccess_canon h _ _ _ _) fun _ h => .bind (roomFor_canon h) fun _ h => landRoom_canon h _)
    fun _ h => .andThen (readAddr_canon h _) fun _ h => by simpa using h

theorem loadSlot_canon (h : s.mem.wf = true) (m : MForm) {pre : State → Except Stop State}
    (hpre : ∀ t, t.mem.wf = true → ExCanon (pre t)) (q : State → Nat) (tag : State → Byte) :
    OutCanon (loadSlot m pre q tag s) := by
  refine .runSlot h (fun t h => ?_) fun _ h => .andThen (readAddr_canon h _) fun _ h => by simpa using h
  refine .bind (hpre t h) fun _ h => .bind (appendSlot_canon h _) fun _ h => .bind (require_canon h _ _) fun _ h => ?_
  exact .bind (streamBound_canon h _ _) fun _ h => .bind (checkAccess_canon h _ _ _ _) fun _ h => roomFor_canon h

theorem storeSlot_canon (h : s.mem.wf = true) (m : MForm) {pre : State → Except Stop State}
    (hpre : ∀ t, t.mem.wf = true → ExCanon (pre t)) (q : State → Nat) (pop : Bool) : OutCanon (storeSlot m pre q pop s) := by
  refine .runSlot h (fun t h => ?_) fun _ h => ?_
  · refine .bind (hpre t h) fun _ h => .iteJoin (popSlots_canon h _ _) (.bind (needSlot_canon h _ _)) fun _ h => ?_
    refine .bind (storeFirst_canon h _ _) fun _ h => .bind (streamBound_canon h _ _) fun _ h => ?_
    exact .bind (checkStore_canon h _ _ _) fun _ h => roomFor_canon h
  · exact .bind (readAddr_canon h _) fun _ h => .bind (readSlot_canon h _ _) fun _ h => by simpa using h

theorem execLd_canon (h : s.mem.wf = true) (m : MForm) : OutCanon (execLd m s) := by
  unfold execLd
  split
  · exact .ite (loadRegs_canon h _ _ _ _ _) (loadRegs_canon h _ _ _ _ _)
  · exact loadSlot_canon h m (fun _ h => .ok h) _ _
  · exact loadSlot_canon h m (fun _ h => memStream_canon h _) _ _

theorem execSt_canon (h : s.mem.wf = true) (m : MForm) : OutCanon (execSt m s) := by
  unfold execSt
  split
  · exact .runSlot h (fun _ h => .bind (checkStore_canon h _ _ _) fun _ h => roomFor_canon h)
      fun _ h => .andThen (readAddr_canon h _) fun _ h => by simpa using h
  · exact storeSlot_canon h m (fun _ h => .ok h) _ _
  · exact storeSlot_canon h m (fun _ h => memStream_canon h _) _ _

theorem execLdl_canon (h : s.mem.wf = true) (m : MForm) : OutCanon (execLdl m s) :=
  .runSlot h (fun _ h => checkLanes_canon h m) fun _ h => .andThen (readAddr_canon h _) fun _ h => by simpa using h
theorem execStl_canon (h : s.mem.wf = true) (m : MForm) : OutCanon (execStl m s) :=
  .runSlot h (fun _ h => checkLanes_canon h m) fun _ h => .andThen (readAddr_canon h _) fun _ h => by simpa using h
theorem execLdv_canon (h : s.mem.wf = true) (m : MForm) : OutCanon (execLdv m s) := loadRegs_canon h _ _ _ _ _
theorem execStv_canon (h : s.mem.wf = true) (m : MForm) : OutCanon (execStv m s) :=
  .runSlot h (fun _ h => .bind (checkStore_canon h _ _ _) fun _ h => roomFor_canon h)
    fun _ h => .andThen (readAddr_canon h _) fun _ h => .ite trivial (by simpa using h)

theorem execLdg_canon (h : s.mem.wf = true) (m : MForm) : OutCanon (execLdg m s) := by
  refine .runSlot h (fun _ h => ?_) fun _ h => ?_
  · refine .bind (gatherCheck_canon h _) fun _ h => .iteJoin (popSlots_canon h _ _) (.bind (needSlot_canon h _ _)) fun _ h => ?_
    refine .iteJoin (.bind (require_canon h _ _) fun _ h => appendSlot_canon h _)
      (.bind (.bind (require_canon h _ _) fun _ h => by simpa using h)) fun _ h => ?_
    refine .bind (require_canon h _ _) fun _ h => ?_
    exact .iteJoin (checkRows_canon h _ _ _ _) (.bind (.ok h)) fun _ h => roomFor_canon h
  · exact .bind (readAddr_canon h _) fun _ h => .bind (readSlot_canon h _ _) fun _ h => by simpa using h

theorem execSts_canon (h : s.mem.wf = true) (m : MForm) : OutCanon (execSts m s) := by
  refine .runSlot h (fun _ h => ?_) fun _ h => ?_
  · refine .bind (gatherCheck_canon h _) fun _ h => .iteJoin (popSlots_canon h _ _) (.bind (needSlot_canon h _ _)) fun _ h => ?_
    refine .iteJoin (popSlots_canon h _ _) (.bind (needSlot_canon h _ _)) fun _ h => ?_
    refine .bind (require_canon h _ _) fun _ h => .bind (require_canon h _ _) fun _ h => ?_
    exact .iteJoin (checkRows_canon h _ _ _ _) (.bind (.ok h)) fun _ h => roomFor_canon h
  · refine .bind (readAddr_canon h _) fun _ h => .bind (readSlot_canon h _ _) fun _ h => ?_
    exact .bind (readSlot_canon h _ _) fun _ h => by simpa using h

theorem flushRange_canon (h : s.mem.wf = true) (m : MForm) (inv : Bool) : OutCanon (flushRange m inv s) :=
  .runSlot h (fun _ h => h) fun _ h => .andThen (readAddr_canon h _) fun _ h => by simpa using h
theorem execFlushAll_canon (h : s.mem.wf = true) (m : MForm) : OutCanon (execFlushAll m s) := .runPure h (by simpa using h)
theorem execFence_canon (h : s.mem.wf = true) (m : MForm) : OutCanon (execFence m s) := .runPure h (by simpa using h)

theorem lockRun_canon (h : s.mem.wf = true) (unlock : Bool) (m : MForm) : OutCanon (lockRun unlock m s) := by
  refine .runSlot h (fun _ h => ?_) fun _ h => .andThen (readAddr_canon h _) fun _ h => by simpa using h
  refine .bind (phaseNone_canon h) fun _ h => .bind (checkAccess_canon h _ _ _ _) fun _ h => ?_
  exact .bind (roomFor_canon h) fun _ h => landRoom_canon h _

theorem atomic_canon (h : s.mem.wf = true) (op : AtomOp) (m : MForm) : OutCanon (atomic op m s) :=
  .runSlot h (fun _ h => .bind (checkAtom_canon h _ _ _) fun _ h => landRoom_canon h _)
    fun _ h => .andThen (readAddr_canon h _) fun _ h => by simpa using h

theorem reduction_canon (h : s.mem.wf = true) (op : AtomOp) (m : MForm) : OutCanon (reduction op m s) := by
  unfold reduction
  refine .runSlot h (fun _ h => ?_) fun _ h => ?_
  · exact .iteJoin (.ite (popSlots_canon h _ _) (needSlot_canon h _ _)) (.bind (.ok h)) fun _ h => checkAtom_canon h _ _ _
  · refine .bind (readAddr_canon h _) fun _ h => .iteJoin (readSlot_canon h _ _) (.bind (.ok h)) fun _ h => ?_
    exact .iteJoin (.error _) (.bind (.ok h)) fun _ h => by simpa using h

/-! ### Queues -/

theorem execQwait_canon (h : s.mem.wf = true) (w : RForm) : OutCanon (execQwait w s) :=
  .runSlot h (fun _ h => .bind (waitImm_canon h _ _ _) fun _ h => .bind (require_canon h _ _) fun _ h => by simpa using h)
    fun _ h => h

theorem execQfree_canon (h : s.mem.wf = true) (w : RForm) : OutCanon (execQfree w s) := by
  refine .runSlot h (fun _ h => .bind (waitImm_canon h _ _ _) fun _ h => ?_) fun _ h => h
  simp only
  split
  · exact require_canon h _ _
  · split
    · trivial
    · exact .ite (by simpa using h) (.bind (require_canon h _ _) fun _ h => by simpa using h)
  · trivial

theorem execQcfg_canon (h : s.mem.wf = true) (w : RForm) : OutCanon (execQcfg w s) :=
  .runSlot h (fun _ h => .bind (require_canon h _ _) fun _ h => require_canon h _ _)
    fun _ h => .andThen (readRegs_canon h _) fun _ h => by simpa using h
theorem execQpop_canon (h : s.mem.wf = true) (w : RForm) : OutCanon (execQpop w s) :=
  .runSlot h (fun _ h => .ite h (.bind (needSlot_canon h _ _) fun _ _ => popSlots_canon h _ _)) fun _ h => readRegs_canon h _
theorem execQsplc_canon (h : s.mem.wf = true) (w : RForm) : OutCanon (execQsplc w s) :=
  .runSlot h (fun _ h => .bind (require_canon h _ _) fun _ h => .bind (require_canon h _ _) fun _ h => require_canon h _ _)
    fun _ h => .andThen (readRegs_canon h _) fun _ h => by simpa using h
theorem execQunsp_canon (h : s.mem.wf = true) (w : RForm) : OutCanon (execQunsp w s) :=
  .runSlot h (fun _ h => .bind (require_canon h _ _) fun _ h => by simpa using h) fun _ h => by simpa using h
theorem execQsync_canon (h : s.mem.wf = true) (w : RForm) : OutCanon (execQsync w s) :=
  .runSlot h (fun _ h => require_canon h _ _) fun _ h => by simpa using h

theorem execQclr_canon (h : s.mem.wf = true) (w : RForm) : OutCanon (execQclr w s) := by
  refine .runSlot h (fun _ h => .bind (require_canon h _ _) fun _ h => ?_) fun _ h => by simpa using h
  exact ExCanon.ok (State.foldl_wf (fun t k ht => by simpa using ht) _ h)

theorem execQstat_canon (h : s.mem.wf = true) (w : RForm) : OutCanon (execQstat w s) := .runPure h (by simpa using h)
theorem execDset_canon (h : s.mem.wf = true) (w : RForm) : OutCanon (execDset w s) := by
  unfold execDset
  exact .runSlot h (fun _ h => require_canon h _ _) fun _ h => .andThen (readRegs_canon h _) fun _ h => by simpa using h
theorem execDget_canon (h : s.mem.wf = true) (w : RForm) : OutCanon (execDget w s) := by
  refine .runPure h ?_
  rw [State.foldl_mem fun t i => by simp]
  exact h
theorem execQzap_canon (h : s.mem.wf = true) (w : RForm) : OutCanon (execQzap w s) :=
  .runSlot h (fun _ h => appendSlot_canon h _) fun _ h => by simpa using h

/-! ### Tokens and engines -/

theorem tokenRun_canon (h : s.mem.wf = true) (op : TokOp) (named : Bool) (m : MForm) : OutCanon (tokenRun op named m s) := by
  unfold tokenRun
  refine .runSlot h (fun _ h => ?_) fun _ h => .andThen (readAddr_canon h _) fun _ h => by simpa using h
  refine .iteJoin (.ok h) (.bind (phaseNone_canon h)) fun _ h => .bind (require_canon h _ _) fun _ h => ?_
  split
  · trivial
  · exact h
  · refine .ite h ?_
    split
    · trivial
    · exact .bind (roomFor_canon h) fun _ h => landRoom_canon h _

theorem execTkqryChain_canon (h : s.mem.wf = true) (w : MForm) : OutCanon (execTkqryChain w s) :=
  .ite (by simpa using h) (tokenRun_canon h _ _ _)
theorem execTkqrySelf_canon (h : s.mem.wf = true) (w : MForm) : OutCanon (execTkqrySelf w s) :=
  .runSlot h (fun _ h => .bind (roomFor_canon h) fun _ h => landRoom_canon h _) fun _ h => by simpa using h

theorem copyRun_canon (h : s.mem.wf = true) (k : CopyKind) (m : MForm) : OutCanon (copyRun k m s) :=
  .runSlot h (fun _ h => copyIssue_canon h k m) fun _ h => .andThen (readAddr_canon h _) fun _ h => by simpa using h
theorem sxRun_canon (h : s.mem.wf = true) (run : Bool) (m : MForm) : OutCanon (sxRun run m s) :=
  .runSlot h (fun _ h => sxIssue_canon h run m) fun _ h => .andThen (readAddr_canon h _) fun _ h => by simpa using h
theorem sxstop_canon (h : s.mem.wf = true) (all : Bool) (m : MForm) : OutCanon (sxstop all m s) :=
  .runSlot h (fun _ h => .bind (require_canon h _ _) fun _ h => .bind (roomFor_canon h) fun _ h => landRoom_canon h _)
    fun _ h => .andThen (readAddr_canon h _) fun _ h => by simpa using h

/-! ### The matrix array -/

theorem push_canon (h : s.mem.wf = true) (w : XForm) (mac : Bool) : OutCanon (push w mac s) :=
  .runSlot h (fun _ h => pushIssue_canon h w _)
    fun _ h => .bind (fetchCheck_canon h _ _ _) fun _ h => .bind (fetchCheck_canon h _ _ _) fun _ h => by simpa using h
theorem execMnop_canon (h : s.mem.wf = true) (w : XForm) : OutCanon (execMnop w s) :=
  .runSlot h (fun _ h => arrayUse_canon h) fun _ h => h

theorem execMacc_canon (h : s.mem.wf = true) (w : XForm) : OutCanon (execMacc w s) := by
  refine .runSlot h (fun _ h => .bind (arrayUse_canon h) fun _ h => require_canon h _ _) fun _ h => ?_
  split
  · simpa using h
  · exact h

theorem execMclr_canon (h : s.mem.wf = true) (w : XForm) : OutCanon (execMclr w s) :=
  .runSlot h (fun _ h => arrayUse_canon h) fun _ h => by simpa using h
theorem execMshf_canon (h : s.mem.wf = true) (w : XForm) : OutCanon (execMshf w s) :=
  .runSlot h (fun _ h => arrayUse_canon h) fun _ h => by simpa using h

theorem execMdrn_canon (h : s.mem.wf = true) (w : XForm) : OutCanon (execMdrn w s) := by
  refine .runSlot h (fun _ h => .bind (arrayUse_canon h) fun _ h => ?_) fun _ h => .ite trivial (.ite (by simpa using h) (by simpa using h))
  split
  · exact require_canon h _ _
  · exact .bind (require_canon h _ _) fun _ h => appendSlot_canon h _

theorem execMlda_canon (h : s.mem.wf = true) (w : XForm) : OutCanon (execMlda w s) := by
  refine .runSlot h (fun _ h => .bind (arrayUse_canon h) fun _ h => ?_) fun _ h => .ite trivial (.ite trivial (by simpa using h))
  refine .bind (require_canon h _ _) fun _ h => .bind (require_canon h _ _) fun _ h => ?_
  exact .ite (popSlots_canon h _ _) (.ite (by simpa using h) (needSlot_canon h _ _))

/-! ### Barriers, gangs and system registers -/

theorem execBara_canon (h : s.mem.wf = true) (w : RForm) : OutCanon (execBara w s) :=
  .runSlot h (fun _ h => barCheck_canon h _ _) fun _ h => .andThen (readRegs_canon h _) fun _ h => by simpa using h
theorem execBarw_canon (h : s.mem.wf = true) (w : RForm) : OutCanon (execBarw w s) :=
  .runSlot h (fun _ h => .bind (barCheck_canon h _ _) fun _ h => by simpa using h) fun _ h => readRegs_canon h _
theorem execBar_canon (h : s.mem.wf = true) (w : RForm) : OutCanon (execBar w s) :=
  .runSlot h (fun _ h => .bind (barCheck_canon h _ _) fun _ h => landRoom_canon h _)
    fun _ h => .andThen (readRegs_canon h _) fun _ h => by simpa using h

theorem execGjoin_canon (h : s.mem.wf = true) (w : RForm) : OutCanon (execGjoin w s) := by
  refine .runSlot h (fun _ h => .bind (require_canon h _ _) fun _ h => require_canon h _ _) fun _ h => ?_
  split
  · simpa using h
  · exact h

theorem execGiss_canon (h : s.mem.wf = true) (w : RForm) : OutCanon (execGiss w s) := by
  refine .runSlot h (fun _ h => ?_) fun _ h => .andThen (readRegs_canon h _) fun _ h => ?_
  · refine .bind (require_canon h _ _) fun _ h => .bind (require_canon h _ _) fun _ h => .ite h ?_
    exact .bind (require_canon h _ _) fun _ h => barCheck_canon h _ _
  · split
    · simpa using h
    · exact h

theorem execGend_canon (h : s.mem.wf = true) (w : RForm) : OutCanon (execGend w s) :=
  .runSlot h (fun _ h => require_canon h _ _) fun _ h => by simpa using h

theorem execWaitc_canon (h : s.mem.wf = true) (w : RForm) : OutCanon (execWaitc w s) := by
  refine .runSlot h (fun _ h => .bind (checkAccess_canon h _ _ _ _) fun _ h => .bind (require_canon h _ _) fun _ h => ?_)
    fun _ h => .andThen (readRegs_canon h _) fun _ h => ?_
  · rw [ExCanon_ok]
    split
    · split
      · exact h
      · split
        · simpa using h
        · split
          · simpa using h
          · split
            · split
              · split <;> simpa using h
              · simpa using h
            · split <;> simpa using h
    · exact h
  · rw [ExCanon_ok]
    split
    · next p _ _ =>
      cases hp : State.payWaitc _ p.pa with
      | none => exact h
      | some t => exact (State.payWaitc_mem hp).symm ▸ h
    · exact h

theorem execSysrd_canon (h : s.mem.wf = true) (w : RForm) : OutCanon (execSysrd w s) :=
  .runSlot h (fun _ h => sysCheck_canon h _) fun _ h => by simpa using h
theorem execSyswr_canon (h : s.mem.wf = true) (w : RForm) : OutCanon (execSyswr w s) := by
  unfold execSyswr
  exact .runSlot h (fun _ h => .bind (sysCheck_canon h _) fun _ h => require_canon h _ _)
    fun _ h => .andThen (readRegs_canon h _) fun _ h => by simpa using h

theorem execLnch_canon (h : s.mem.wf = true) (w : RForm) : OutCanon (execLnch w s) := by
  refine .runSlot h (fun _ h => ?_) fun _ h => .andThen (readRegs_canon h _) fun _ h => by simpa using h
  refine .bind (require_canon h _ _) fun _ h => .bind (phaseNone_canon h) fun _ h => .bind (notBroadcast_canon h) fun _ h => ?_
  exact .bind (checkAccess_canon h _ _ _ _) fun _ h => landRoom_canon h _

theorem execDone_canon (h : s.mem.wf = true) (w : RForm) : OutCanon (execDone w s) :=
  .runSlot h (fun _ h => .bind (require_canon h _ _) fun _ h => notBroadcast_canon h) fun _ h => by simpa using h

/-! ### Scalar operations -/

theorem alu_canon (h : s.mem.wf = true) (lat : Nat) (rs : List Nat) (f : State → Word) (w : RForm) : OutCanon (alu lat rs f w s) :=
  .runSlot h (fun _ h => h) fun _ h => .andThen (readRegs_canon h _) fun _ h => by simpa using h
theorem alu1_canon (h : s.mem.wf = true) (op : Word → Word) (w : RForm) : OutCanon (alu1 op w s) :=
  .runSlot h (fun _ h => h) fun _ h => .andThen (readRegs_canon h _) fun _ h => by simpa using h
theorem divide_canon (h : s.mem.wf = true) (op : Word → Word → Word) (w : RForm) : OutCanon (divide op w s) :=
  .runSlot h (fun _ h => by simpa using h) fun _ h => .andThen (readRegs_canon h _) fun _ h => by simpa using h
theorem execLi_canon (h : s.mem.wf = true) (w : LForm) : OutCanon (execLi w s) := .runPure h (by simpa using h)
theorem execLih_canon (h : s.mem.wf = true) (w : LForm) : OutCanon (execLih w s) :=
  .runSlot h (fun _ h => h) fun _ h => .andThen (readRegs_canon h _) fun _ h => by simpa using h
theorem execLit_canon (h : s.mem.wf = true) (w : TForm) : OutCanon (execLit w s) := .runPure h h
theorem cmp_canon (h : s.mem.wf = true) (rel : Word → Word → Bool) (w : RForm) : OutCanon (cmp rel w s) :=
  .runSlot h (fun _ h => h) fun _ h => .andThen (readRegs_canon h _) fun _ h => by simpa using h
theorem pred2_canon (h : s.mem.wf = true) (op : Bool → Bool → Bool) (w : RForm) : OutCanon (pred2 op w s) :=
  .runPure h (by simpa using h)
theorem fcmp_canon (h : s.mem.wf = true) (rel : FVal → FVal → Bool) (w : RForm) : OutCanon (fcmp rel w s) :=
  .runSlot h (fun _ h => h) fun _ h => .andThen (readRegs_canon h _) fun _ h => by simpa using h
theorem falu1_canon (h : s.mem.wf = true) (op : Word → Word) (w : RForm) : OutCanon (falu1 op w s) :=
  .runSlot h (fun _ h => h) fun _ h => .andThen (readRegs_canon h _) fun _ h => by simpa using h

theorem special_canon (h : s.mem.wf = true) (f : SFn) (w : SForm) : OutCanon (special f w s) :=
  .runSlot h (fun _ h => .andThen (vsrcIssue_canon h _) fun _ h => .andThen (vdstIssue_canon h _) fun _ h => by simpa using h)
    fun _ h => .andThen (vsrcRead_canon h _) fun _ h => by simpa using h
end

/-!
## The L1 and the homes

Where accesses, stores and atomics perform.
-/

@[simp] theorem OutCanon_ite (c : Prop) [Decidable c] (x y : Out) :
    OutCanon (if c then x else y) ↔ if c then OutCanon x else OutCanon y := by split <;> rfl

section
variable {s : State}

/-! ### L1 -/
@[simp] theorem State.writeBack_canon (h : s.mem.wf = true) (line : Nat) (l : Line) : (s.writeBack line l).mem.wf = true := by
  simp [State.writeBack, Memory.wf_storeAll h]

@[simp] theorem State.fillLine_canon (h : s.mem.wf = true) (c line : Nat) (l : Line) (at_ : Nat) :
    (s.fillLine c line l at_).mem.wf = true := by
  simp only [State.fillLine, State.modCore_mem]
  split
  · simpa using h
  · split
    · simp [h]
    · simpa using h

theorem prefLine_canon (h : s.mem.wf = true) (l2 : Bool) (a : Nat) : (prefLine l2 a s).mem.wf = true := by
  unfold prefLine
  split
  · split
    · exact h
    · split
      · exact h
      · next t ht =>
        have hw : t.mem.wf = true := by rw [State.takePort_mem ht]; exact h
        split
        · simpa using hw
        · exact State.fillLine_canon hw _ _ _ _
  · exact h

theorem execPref_canon (h : s.mem.wf = true) (m : MForm) : OutCanon (execPref m s) := by
  refine .runSlot h (fun _ h => ?_) fun _ h => .andThen (readAddr_canon h _) fun _ h => ?_
  · rw [ExCanon_ok]
    split
    · simpa using h
    · exact h
  · rw [ExCanon_ok, State.modMyCore_mem]
    split
    · exact h
    · exact State.foldl_wf (fun t a ht => prefLine_canon ht _ a) _ h

@[simp] theorem State.touchL1_canon (h : s.mem.wf = true) (c : Nat) (asn : BitVec 16) (va line at_ : Nat) :
    (s.touchL1 c asn va line at_).mem.wf = true := by
  unfold State.touchL1
  split
  · simpa using h
  · exact State.fillLine_canon h _ _ _ _

theorem State.readRange_canon (h : s.mem.wf = true) (c : Nat) (a : Acc) (r : Nat × Nat) (at_ : Nat) :
    (s.readRange c a r at_).1.mem.wf = true := by
  unfold State.readRange
  split
  · exact State.foldl_fst_wf (fun p x hp => State.touchL1_canon hp _ _ _ _ _) _ h
  · simpa using h

/-! ### Accesses at their homes -/
theorem State.storeOne_canon (h : s.mem.wf = true) (c : Nat) (a : Acc) (w : Nat × List Byte) : (s.storeOne c a w).mem.wf = true := by
  unfold State.storeOne
  split
  · exact State.foldl_wf (fun t p ht => by simp [ht]) _ h
  · simp [Memory.wf_writeBytes h]

@[simp] theorem lockStatus_mem (s : State) (f : Flight) (unlock : Bool) (line : Nat) (cacheable : Bool) :
    (lockStatus s f unlock line cacheable).1.mem = s.mem := by
  simp only [lockStatus]
  repeat' split
  all_goals simp

theorem State.perform_canon (h : s.mem.wf = true) (n : Nat) (f : Flight) (a : Acc) : (s.perform n f a).mem.wf = true := by
  unfold State.perform
  split
  · simpa using h
  · simp only [State.ite_mem, State.dropFlight_mem, State.setFlight_mem, ite_self]
    refine State.foldl_wf (fun t w ht => State.storeOne_canon ht _ _ _) _ ?_
    rw [State.storeHome_mem]
    refine State.foldl_fst_wf (fun p r hp => ?_) _ ?_
    · exact State.readRange_canon hp _ _ _ _
    · exact h

@[simp] theorem State.engineWrite_canon (h : s.mem.wf = true) (o : EngOp) (slot : Bool) (w : Nat × List Byte) :
    (s.engineWrite o slot w).mem.wf = true := by
  unfold State.engineWrite
  split
  · simpa using h
  · simp [Memory.wf_writeBytes h]

theorem State.enginePerform_canon (h : s.mem.wf = true) (n k : Nat) (ws : List (Nat × List Byte)) (slot : Bool) :
    (s.enginePerform n k ws slot).mem.wf = true := by
  simp only [State.enginePerform]
  split
  · rw [State.slotDone_mem]
    exact State.foldl_wf (fun t w ht => State.engineWrite_canon ht _ slot w) ws h
  · exact h

@[simp] theorem State.submit_mem (s : State) (r : LRec) (asn : BitVec 16) : (s.submit r asn).1.mem = s.mem := by
  simp only [State.submit]
  repeat' split
  all_goals rfl

theorem execHomeAccess_canon (h : s.mem.wf = true) (n : Nat) : OutCanon (execHomeAccess n s) := by
  unfold execHomeAccess
  split
  · split
    · simp [h, State.perform_canon]
    · simp [h]
    · simp [h, State.enginePerform_canon]
    · simp [h]
    · simp [h]
    · simp [h]
    · exact h
  · exact h

@[simp] theorem State.undefine_canon (h : s.mem.wf = true) (l : List Nat) : (s.undefine l).mem.wf = true := by
  induction l generalizing s with
  | nil => exact h
  | cons a r ih => exact ih (Memory.wf_write h a _)

theorem State.atomOne_canon (h : s.mem.wf = true) (c : Nat) (t : Atom) (e : Nat × Nat) : (s.atomOne c t e).1.mem.wf = true := by
  simp only [State.atomOne]
  split
  · next l _ =>
    have hw : (s.writeBack (e.1 / 128) l).mem.wf = true := State.writeBack_canon h _ _
    split
    · exact Memory.wf_writeBytes hw _ _
    · exact State.undefine_canon (Memory.wf_writeBytes hw _ _) _
  · split
    · exact Memory.wf_writeBytes h _ _
    · exact State.undefine_canon (Memory.wf_writeBytes h _ _) _

theorem State.atomEach_canon (h : s.mem.wf = true) (c : Nat) (t : Atom) (l : List (Nat × Nat)) : (s.atomEach c t l).1.mem.wf = true := by
  induction l generalizing s with
  | nil => exact h
  | cons e r ih => exact ih (State.atomOne_canon h c t e)

@[simp] theorem State.atomAll_canon (h : s.mem.wf = true) (c : Nat) (t : Atom) : (s.atomAll c t).1.mem.wf = true := by
  unfold State.atomAll
  split
  · exact h
  · exact State.atomEach_canon h c t _

theorem execHomeAtomic_canon (h : s.mem.wf = true) (n : Nat) : OutCanon (execHomeAtomic n s) := by
  unfold execHomeAtomic
  split
  · split
    · split
      · simp [h]
      · exact h
    · exact h
  · exact h
end

/-!
## Events of the cores, the token slices and the engines
-/

section
variable {s : State}

/-! ### Landings -/
@[simp] theorem State.fillSlot_canon (h : s.mem.wf = true) (c k q idx : Nat) (tag : Byte) (data : List Byte) :
    (s.fillSlot c k q idx tag data).mem.wf = true := by
  simp [State.fillSlot, Memory.wf_writeBytes h]

theorem State.landWrite_canon (h : s.mem.wf = true) (c k o : Nat) (w : Write) : (s.landWrite c k o w).mem.wf = true := by
  unfold State.landWrite
  split <;> simp [h]

@[simp] theorem State.landAll_canon (h : s.mem.wf = true) (c k : Nat) (ws : List Pend) : (s.landAll c k ws).mem.wf = true :=
  State.foldl_wf (fun _ _ ht => State.foldl_wf (fun _ _ hu => State.landWrite_canon hu _ _ _ _) _ ht) _ h

@[simp] theorem State.landCtx_canon (h : s.mem.wf = true) (c k : Nat) (pends lands : Bool) : (s.landCtx c k pends lands).mem.wf = true := by
  unfold State.landCtx
  dsimp only
  split
  · rw [State.takeCause_mem, State.loadBun_mem]
    exact State.foldl_wf (fun t e ht => State.landWrite_canon ht _ _ _ _) _ h
  · exact State.foldl_wf (fun t e ht => State.landWrite_canon ht _ _ _ _) _ h

@[simp] theorem State.landOthers_canon (h : s.mem.wf = true) (c : Nat) : (s.landOthers c).mem.wf = true :=
  State.foldl_wf (fun _ _ ht => State.landCtx_canon ht _ _ _ _) _ h

theorem execLoadDataArrival_canon (h : s.mem.wf = true) (n : Nat) : OutCanon (execLoadDataArrival n s) := by
  unfold execLoadDataArrival
  repeat' split
  all_goals simp [h]

theorem execExposedWriteLanding_canon (h : s.mem.wf = true) (c : Nat) : OutCanon (execExposedWriteLanding c s) :=
  State.foldl_wf (fun _ _ ht => State.landCtx_canon ht _ _ _ _) _ h
theorem execRegisterLanding_canon (h : s.mem.wf = true) (c k : Nat) : OutCanon (execRegisterLanding c k s) := by
  simp [execRegisterLanding, h]

theorem State.landSlot_canon (h : s.mem.wf = true) (n : Nat) (f : Flight) (a : Acc) (q idx : Nat) (tag : Byte) (rem : Option QEnd) :
    (s.landSlot n f a q idx tag rem).mem.wf = true := by
  cases rem with
  | some e => simp [State.landSlot, h]
  | none => simp [State.landSlot, h]

theorem execSlotLanding_canon (h : s.mem.wf = true) (n : Nat) : OutCanon (execSlotLanding n s) := by
  unfold execSlotLanding
  repeat' split
  all_goals simp [h, State.landSlot_canon]

theorem execLatchReady_canon (h : s.mem.wf = true) (n : Nat) : OutCanon (execLatchReady n s) := by
  unfold execLatchReady
  repeat' split
  all_goals simp [h]

theorem execWriteAcknowledgement_canon (h : s.mem.wf = true) (n : Nat) : OutCanon (execWriteAcknowledgement n s) := by
  unfold execWriteAcknowledgement
  repeat' split
  all_goals simp [h]

theorem execDirtyReport_canon (h : s.mem.wf = true) (n : Nat) : OutCanon (execDirtyReport n s) := by
  unfold execDirtyReport
  repeat' split
  all_goals simp [h]

theorem execTableWalkRead_canon (h : s.mem.wf = true) (c i : Nat) : OutCanon (execTableWalkRead c i s) := by
  unfold execTableWalkRead
  dsimp only
  repeat' split
  all_goals simp [h]

theorem execL1Eviction_canon (h : s.mem.wf = true) (c line : Nat) : OutCanon (execL1Eviction c line s) := by
  unfold execL1Eviction
  split <;> simp [h]

theorem execFlushMarker_canon (h : s.mem.wf = true) (n : Nat) : OutCanon (execFlushMarker n s) := by
  unfold execFlushMarker
  repeat' split
  all_goals simp [h]

theorem execFlushAcknowledgement_canon (h : s.mem.wf = true) (n : Nat) : OutCanon (execFlushAcknowledgement n s) := by
  unfold execFlushAcknowledgement
  repeat' split
  all_goals simp [h]

/-! ### Splices -/
theorem execSpliceRequest_canon (h : s.mem.wf = true) (n : Nat) : OutCanon (execSpliceRequest n s) := by
  unfold execSpliceRequest
  repeat' split
  all_goals simp [h]

theorem execSpliceAnswer_canon (h : s.mem.wf = true) (n : Nat) : OutCanon (execSpliceAnswer n s) := by
  unfold execSpliceAnswer
  repeat' split
  all_goals simp [h]

theorem execRemoteAppend_canon (h : s.mem.wf = true) (n : Nat) : OutCanon (execRemoteAppend n s) := by
  unfold execRemoteAppend
  repeat' split
  all_goals simp [h]

theorem execHeadMessageSend_canon (h : s.mem.wf = true) (c k q : Nat) : OutCanon (execHeadMessageSend c k q s) := by
  unfold execHeadMessageSend
  dsimp only
  repeat' split
  all_goals simp [h]

theorem execHeadMessage_canon (h : s.mem.wf = true) (n : Nat) (ok : Bool) : OutCanon (execHeadMessage n ok s) := by
  unfold execHeadMessage
  repeat' split
  all_goals simp [h]

theorem execUnspliceMarker_canon (h : s.mem.wf = true) (n : Nat) : OutCanon (execUnspliceMarker n s) := by
  unfold execUnspliceMarker
  repeat' split
  all_goals simp [h]

theorem execHeadRequest_canon (h : s.mem.wf = true) (n : Nat) : OutCanon (execHeadRequest n s) := by
  unfold execHeadRequest
  repeat' split
  all_goals simp [h]

theorem execHeadRequestAnswer_canon (h : s.mem.wf = true) (n : Nat) : OutCanon (execHeadRequestAnswer n s) := by
  unfold execHeadRequestAnswer
  repeat' split
  all_goals simp [h]

/-! ### Tokens -/
@[simp] theorem State.zeroRange_canon (h : s.mem.wf = true) (a n : Nat) : (s.zeroRange a n).mem.wf = true := Memory.wf_filter h _

@[simp] theorem State.tokenApply_canon (h : s.mem.wf = true) (t : TokReq) : (s.tokenApply t).mem.wf = true := by
  unfold State.tokenApply
  dsimp only
  split <;> simp [h]

@[simp] theorem State.flushRegion_canon (h : s.mem.wf = true) (c base n : Nat) : (s.flushRegion c base n).mem.wf = true :=
  State.foldl_wf (fun _ _ ht => State.writeBack_canon ht _ _) _ h

theorem execTokenSliceRequest_canon (h : s.mem.wf = true) (n : Nat) : OutCanon (execTokenSliceRequest n s) := by
  unfold execTokenSliceRequest
  split
  · next f _ =>
    split
    · refine .ite h (.ite (by simpa using h) (.ite h ?_))
      split
      · simpa using h
      · refine .ite (by simpa using h) (.ite h (.ite ?_ (.ite h ?_)))
        · exact State.foldl_wf (fun u e hu => by simpa using hu) _ (by simpa using h)
        · refine State.tokenApply_canon ?_ _
          rw [State.answer_mem]
          split
          · exact State.flushRegion_canon h _ _ _
          · exact h
    · exact h
  · exact h

theorem execOwnershipInvalidation_canon (h : s.mem.wf = true) (n : Nat) : OutCanon (execOwnershipInvalidation n s) := by
  unfold execOwnershipInvalidation
  repeat' split
  all_goals simp [h]

theorem execPartyDeath_canon (h : s.mem.wf = true) (p : Word) : OutCanon (execPartyDeath p s) := by
  simp [execPartyDeath, h]

theorem State.scanOne_canon (h : s.mem.wf = true) (d : Dead) (r : Region) : (s.scanOne d r).mem.wf = true := by
  simp only [State.scanOne, State.putRegion_mem]
  exact State.foldl_wf (fun _ _ ht => State.flushRegion_canon ht _ _ _) _ h

theorem execOrphanScan_canon (h : s.mem.wf = true) (die : Nat) (p : Word) : OutCanon (execOrphanScan die p s) := by
  unfold execOrphanScan
  split
  · exact State.foldl_wf (fun _ _ ht => State.scanOne_canon ht _ _) _ h
  · exact h

/-! ### Engines -/
theorem State.payEngine_mem {k : Nat} {o : EngOp} {ps : List (Nat × Nat)} {t : State}
    (e : s.payEngine k o ps = .ok t ∨ s.payEngine k o ps = .error t) : t.mem = s.mem := by
  unfold State.payEngine at e
  dsimp only at e
  split at e
  · simp at e; simp [← e]
  · split at e
    · simp at e; simp [← e]
    · split at e <;> simp at e <;> simp [← e]

theorem execCopyStart_canon (h : s.mem.wf = true) (d : Nat) : OutCanon (execCopyStart d s) := by
  unfold execCopyStart
  repeat' split
  all_goals simp [h]

theorem execCopyPiece_canon (h : s.mem.wf = true) (n i : Nat) : OutCanon (execCopyPiece n i s) := by
  unfold execCopyPiece
  split
  · split
    · refine .ite h ?_
      dsimp only
      split
      · exact h
      · refine .ite h ?_
        split
        · simpa using h
        · refine .ite (.ite h (by simpa using h)) (.ite h ?_)
          split
          · next t ht => simpa [State.payEngine_mem (.inr ht)] using h
          · next t ht => simpa [State.payEngine_mem (.inl ht)] using h
    · exact h
  · exact h

theorem execCpymDelivery_canon (h : s.mem.wf = true) (n k : Nat) : OutCanon (execCpymDelivery n k s) := by
  unfold execCpymDelivery
  dsimp only
  repeat' split
  all_goals simp [h]

theorem execNotify_canon (h : s.mem.wf = true) (n : Nat) : OutCanon (execNotify n s) := by
  unfold execNotify
  repeat' split
  all_goals simp [h]

@[simp] theorem State.addAt_canon (h : s.mem.wf = true) (a inc : Nat) (nc : Bool) : (s.addAt a inc nc).mem.wf = true := by
  simp [State.addAt, Memory.wf_writeBytes h]

@[simp] theorem State.addComp_canon (h : s.mem.wf = true) (o : EngOp) : (s.addComp o).mem.wf = true := by
  unfold State.addComp
  split <;> simp [h]

theorem execCopyCompletion_canon (h : s.mem.wf = true) (n : Nat) : OutCanon (execCopyCompletion n s) := by
  unfold execCopyCompletion
  repeat' split
  all_goals simp [h]

theorem execSparseStart_canon (h : s.mem.wf = true) (c : Nat) : OutCanon (execSparseStart c s) := by
  unfold execSparseStart
  repeat' split
  all_goals simp [h]

theorem execMetadataArrival_canon (h : s.mem.wf = true) (c : Nat) : OutCanon (execMetadataArrival c s) := by
  unfold execMetadataArrival
  split
  · dsimp only
    refine .ite h (.ite h ?_)
    split
    · simpa using h
    · refine .ite (by simpa using h) (.ite h ?_)
      split
      · simpa using h
      · split
        · next t ht => simpa [State.payEngine_mem (.inr ht)] using h
        · next t ht => simpa [State.payEngine_mem (.inl ht)] using h
  · exact h

@[simp] theorem State.sxClose_canon (h : s.mem.wf = true) (o : EngOp) (x : SxOp) (q : Nat) (l : OpenSlot) :
    (s.sxClose o x q l).mem.wf = true := by
  simp [State.sxClose, Memory.wf_writeBytes, h]

theorem State.sxPut_canon (h : s.mem.wf = true) (o : EngOp) (x : SxOp) (q : Nat) (l : Option OpenSlot) (v : Nat) :
    (s.sxPut o x q l v).1.mem.wf = true := by
  simp only [State.sxPut]
  repeat' split
  all_goals simp [Memory.wf_writeBytes, h]

theorem State.fst_ite_wf {β : Type} {c : Prop} [Decidable c] {p q : State × β} (hp : p.1.mem.wf = true) (hq : q.1.mem.wf = true) :
    (if c then p else q).1.mem.wf = true := by
  split
  · exact hp
  · exact hq

theorem State.sxEmit_canon (h : s.mem.wf = true) (n : Nat) (o : EngOp) (x : SxOp) (w fuel : Nat) :
    (s.sxEmit n o x w fuel).mem.wf = true := by
  induction fuel generalizing s x with
  | zero => simpa [State.sxEmit] using h
  | succ f ih =>
    unfold State.sxEmit
    split
    · simpa using h
    · dsimp only
      split
      · simpa using h
      · split
        · simpa using h
        · have ha (v : Nat) := State.sxPut_canon h o x x.oq x.oslot v
          split
          · rw [State.setSx_mem]
            exact State.fst_ite_wf (State.sxPut_canon (ha _) _ _ _ _ _) (ha _)
          · refine ih ?_ _
            exact State.fst_ite_wf (State.sxPut_canon (ha _) _ _ _ _ _) (ha _)

theorem execSparseEmit_canon (h : s.mem.wf = true) (c : Nat) : OutCanon (execSparseEmit c s) := by
  unfold execSparseEmit
  repeat' split
  all_goals simp [h, State.sxEmit_canon]

theorem execSparseFinish_canon (h : s.mem.wf = true) (c : Nat) : OutCanon (execSparseFinish c s) := by
  unfold execSparseFinish
  split
  · split
    · dsimp only
      rw [OutCanon_next, State.setSx_mem]
      split <;> split <;> simp [h]
    · dsimp only
      refine .ite h ?_
      split
      · simpa using h
      · rw [OutCanon_next]
        refine State.addComp_canon ?_ _
        rw [State.endOp_mem]
        split
        · simp [Memory.wf_writeBytes, h]
        · simpa using h
  · exact h

/-! ### Array, barriers, gangs -/
theorem execMatrixAccumulationLanding_canon (h : s.mem.wf = true) (c : Nat) : OutCanon (execMatrixAccumulationLanding c s) := by
  simp [execMatrixAccumulationLanding, h]

theorem execDrainSlotPresent_canon (h : s.mem.wf = true) (c : Nat) : OutCanon (execDrainSlotPresent c s) :=
  State.foldl_wf (fun _ _ ht => State.landAll_canon (by simpa using ht) _ _ _) _ h

@[simp] theorem State.arriveAt_mem (s : State) (key : Nat) : (s.arriveAt key).1.mem = s.mem := by
  simp only [State.arriveAt]
  split
  · exact State.foldl_mem (fun _ _ => by simp) _ _
  · rfl

theorem execBarrierArrival_canon (h : s.mem.wf = true) (n : Nat) : OutCanon (execBarrierArrival n s) := by
  unfold execBarrierArrival
  repeat' split
  all_goals simp [h]

theorem execBarrierRelease_canon (h : s.mem.wf = true) (n : Nat) : OutCanon (execBarrierRelease n s) := by
  unfold execBarrierRelease
  split
  · split
    · simp only [OutCanon_next, State.modCore_mem]
      refine State.foldl_wf (fun t w ht => State.foldl_wf (fun u e hu => ?_) _ ht) _ h
      split
      · split <;> simpa using hu
      · exact hu
    · exact h
  · exact h

theorem execGissHoldEnd_canon (h : s.mem.wf = true) (n : Nat) : OutCanon (execGissHoldEnd n s) := by
  unfold execGissHoldEnd
  split
  · split
    · refine .ite ?_ h
      simp only [OutCanon_next, State.follow_mem, State.setGang_mem]
      exact State.foldl_wf (fun t m ht => by simpa using ht) _ h
    · exact h
  · exact h

theorem execGangCompletion_canon (h : s.mem.wf = true) (n : Nat) : OutCanon (execGangCompletion n s) := by
  unfold execGangCompletion
  split
  · split
    · refine .ite (.ite ?_ ?_) h
      · exact State.foldl_wf (fun t m ht => by simpa using ht) _ h
      · split
        · simpa using h
        · exact h
    · exact h
  · exact h

theorem execSegmentExpansion_canon (h : s.mem.wf = true) (c k seg : Nat) : OutCanon (execSegmentExpansion c k seg s) := by
  unfold execSegmentExpansion
  repeat' split
  all_goals simp [h]
end

/-!
## The sequencer

One cycle of the cores, for any meaning `run` of the slots that keeps memory canonical.
-/

section
variable {s : State}

/-! ### Before and beside issue -/

@[simp] theorem State.beginCycle_canon (h : s.mem.wf = true) (c : Nat) : (s.beginCycle c).mem.wf = true := by
  simp only [State.beginCycle, State.ite_mem, State.modCore_mem, ite_self]
  have hl := State.landCtx_canon (s := if (s.ctxAt c (s.coreAt c).issuing).ticked then s else s.modCore c Core.tick)
    (by simpa using h) c (s.coreAt c).issuing true true
  split
  · exact hl
  · exact State.landOthers_canon hl c

@[simp] theorem State.idleCycle_canon (h : s.mem.wf = true) (c : Nat) : (s.idleCycle c).mem.wf = true := by
  simp only [State.idleCycle]
  split <;> simp [h]

theorem State.drainWrites_canon (h : s.mem.wf = true) (c k : Nat) : (s.drainWrites c k).mem.wf = true := by
  simp [State.drainWrites, h]

theorem State.enterAt_canon (h : s.mem.wf = true) (c : Nat) {take : State → State} (ht : ∀ t, (take t).mem = t.mem) :
    (s.enterAt c take).mem.wf = true := by
  have hk : (({ ((s.unit c).filter (fun d => d != c)).foldl (fun (t : State) d => (({ t with cur := d } : State).loadBun).keepBun d) s
      with cur := c } : State).loadBun).mem = s.mem := by
    rw [State.loadBun_mem]
    exact State.foldl_mem (fun t d => by simp) _ _
  simp only [State.enterAt, ht]
  split
  · exact State.drainWrites_canon (by rwa [hk]) _ _
  · rwa [hk]

theorem State.stopEvents_canon (h : s.mem.wf = true) (c : Nat) : (s.stopEvents c).mem.wf = true := by
  simp only [State.stopEvents]
  split
  · exact State.enterAt_canon (by exact h) c State.takeAsync_mem
  · split
    · exact State.enterAt_canon (by exact h) c fun t => by simp
    · simp [h]

theorem State.preIssue_canon (h : s.mem.wf = true) (c : Nat) : (s.preIssue c).mem.wf = true := by
  have hl : ((s.coreAt c).ctxs.foldl (fun (t : State) e => if e.2.async.isEmpty then t else t.lateWait c e.1) s).mem.wf = true :=
    State.foldl_wf (fun t e ht => by simpa using ht) _ h
  simp only [State.preIssue]
  split
  · exact hl
  · split
    · simpa using hl
    · split
      · exact hl
      · split
        · exact hl
        · split
          · exact State.stopEvents_canon hl c
          · exact hl

/-! ### With a meaning of the slots -/

section
variable {run : Instr → State → Out}

theorem State.retryCore_canon (h : s.mem.wf = true) (c : Nat) : OutCanon (s.retryCore run c) := by
  unfold State.retryCore
  extract_lets k t u
  have ht : t.mem.wf = true := State.landCtx_canon h _ _ _ _
  have hu : u.mem.wf = true := by
    rw [State.prepare_mem, State.modCore_mem]
    exact ht
  clear_value t u
  refine .ite h (.ite ht ?_)
  cases u.attempt run with
  | next v =>
    rw [OutCanon_next]
    split <;> simp [hu]
  | fault => trivial
  | refused => trivial

theorem State.retryAll_canon (h : s.mem.wf = true) (cs : List Nat) : OutCanon (s.retryAll run cs) := by
  induction cs generalizing s with
  | nil => exact h
  | cons c r ih => exact .andThen (.ite (State.retryCore_canon h c) h) fun _ ht => ih ht

variable (hrun : ∀ i t, t.mem.wf = true → OutCanon (run i t))
include hrun

theorem State.runOne_canon (h : s.mem.wf = true) (sl w : Nat) : OutCanon (s.runOne run sl w) := by
  simp only [State.runOne]
  split
  · exact hrun _ _ h
  · split
    · exact hrun _ _ h
    · refine .ite h (.ite ?_ (hrun _ _ h))
      exact .andThen (hrun _ _ (by simpa using h)) fun _ ht => ht

theorem State.runWords_canon (h : s.mem.wf = true) (done : Nat) (l : List (Nat × Nat)) : OutCanon (s.runWords run done l) := by
  induction l generalizing s with
  | nil => exact h
  | cons e r ih =>
    obtain ⟨sl, w⟩ := e
    exact .ite (ih h) (.andThen (State.runOne_canon hrun h sl w) fun _ ht => ih ht)

theorem State.attempt_canon (h : s.mem.wf = true) : OutCanon (s.attempt run) := by
  unfold State.attempt
  refine .ite (by simpa using h) ?_
  split
  · simpa using h
  · simpa using h
  · split
    · split
      · exact .ite (hrun _ _ (by simpa using h)) (by simpa using h)
      · simpa using h
    · dsimp only
      exact .andThen (State.runWords_canon hrun (by simpa using h) _ _) fun _ ht => .ite (by simpa using ht) ht

theorem State.finish_canon (h : s.mem.wf = true) (svc : Bool) (c : Nat) : OutCanon (s.finish run svc c) := by
  simp only [State.finish]
  split
  · simpa using h
  · refine .andThen (.ite (hrun _ _ h) (by simpa using h)) fun t ht => .ite ?_ (by simpa using ht)
    split
    · exact State.runOne_canon hrun (State.landAll_canon (by simpa using ht) _ _ _) _ _
    · simpa using ht

theorem State.attemptAll_canon (h : s.mem.wf = true) (cs : List Nat) : OutCanon (s.attemptAll run cs) := by
  induction cs generalizing s with
  | nil => exact h
  | cons c r ih => exact .andThen (State.attempt_canon hrun (by exact h)) fun _ ht => ih ht

theorem State.finishAll_canon (h : s.mem.wf = true) (svc : Bool) (cs : List Nat) : OutCanon (s.finishAll run svc cs) := by
  induction cs generalizing s with
  | nil => exact h
  | cons c r ih => exact .andThen (State.finish_canon hrun h svc c) fun _ ht => ih ht

theorem State.issueAll_canon (h : s.mem.wf = true) (svc : Bool) (cs : List Nat) : OutCanon (s.issueAll run svc cs) := by
  have fold {α : Type} {f : State → α → State} (hf : ∀ t a, (f t a).mem = t.mem) (l : List α) {t : State} (ht : t.mem.wf = true) :
      (l.foldl f t).mem.wf = true := by rwa [State.foldl_mem hf]
  unfold State.issueAll
  refine .ite (fold (fun t c => by simp) cs h) ?_
  have hp : (cs.foldl (fun (t : State) c => t.prepare c) s).mem.wf = true := fold (fun t c => by simp) cs h
  refine .andThen (State.attemptAll_canon hrun hp cs) fun t ht => ?_
  dsimp only
  split
  · simpa using fold (fun t c => by simp) _ hp
  · refine .ite ?_ ?_
    · split
      · simpa using fold (fun t c => by simp) _ hp
      · exact State.finishAll_canon hrun ht svc cs
    · refine fold (fun u e => by simp) _ ?_
      split
      · exact fold (fun t c => by simp) _ hp
      · exact hp

theorem State.gangCycle_canon (h : s.mem.wf = true) (n : Nat) (g : Gang) : OutCanon (s.gangCycle run n g) := by
  unfold State.gangCycle
  refine .ite (State.retryAll_canon h _) ?_
  have hb (ms : List (Nat × Nat × Nat)) {t : State} (ht : t.mem.wf = true) :
      (ms.foldl (fun (t : State) (e : Nat × Nat × Nat) => t.beginCycle e.2.1) t).mem.wf = true :=
    State.foldl_wf (fun t e ht => State.beginCycle_canon ht _) ms ht
  have hs : (if g.states.any (fun st => st == .broadcast) then s.shareBuf g else s).mem.wf = true := by simpa using h
  refine .ite (hb _ hs) (.ite ?_ ?_)
  · rw [OutCanon_next, State.setGang_mem, State.foldl_mem (fun t e => by simp)]
    exact hb _ hs
  · refine .andThen (State.issueAll_canon hrun ?_ _ _) fun t ht => by simpa using ht
    rw [State.foldl_mem (fun t e => by simp)]
    exact hb _ hs

theorem State.coreCycle_canon (h : s.mem.wf = true) (c : Nat) : OutCanon (s.coreCycle run c) := by
  simp only [State.coreCycle]
  have hb := State.beginCycle_canon h c
  exact .ite (State.retryCore_canon h c) (.ite hb (State.issueAll_canon hrun hb _ _))

theorem State.issueCores_canon (h : s.mem.wf = true) (old : Tab Core) (cs : List Nat) : OutCanon (s.issueCores run old cs) := by
  induction cs generalizing s with
  | nil => exact h
  | cons c r ih =>
    unfold State.issueCores
    refine .andThen (.ite h (.ite (State.coreCycle_canon hrun h c) ?_)) fun _ ht => ih ht
    split
    · refine .ite (by simp [h, apply_ite]) ?_
      split
      · exact .ite (State.gangCycle_canon hrun h _ _) h
      · exact h
    · exact .ite (State.coreCycle_canon hrun h c) (State.idleCycle_canon h c)

theorem State.clock_canon (h : s.mem.wf = true) : OutCanon (s.clock run) := by
  unfold State.clock
  refine State.issueCores_canon hrun (State.foldl_wf (fun t c ht => ?_) _ ?_) _ _
  · exact State.preIssue_canon (by simpa using ht) c
  · exact h
end
end

/-!
## Events of Thyme and the service context
-/

section
variable {s : State}

/-! ### Service, phases and journals -/
@[simp] theorem State.putBytes_canon (h : s.mem.wf = true) (pa : Nat) (bs : List Byte) : (s.putBytes pa bs).mem.wf = true := by
  simp [State.putBytes, Memory.wf_writeBytes h]

theorem execInterlockHold_canon (h : s.mem.wf = true) (c : Nat) : OutCanon (execInterlockHold c s) := by
  unfold execInterlockHold
  split
  · exact State.foldl_wf (fun t d ht => by simp [ht]) _ h
  · exact idle_canon h

theorem execFreezeThaw_canon (h : s.mem.wf = true) (c : Nat) : OutCanon (execFreezeThaw c s) := by
  simp [execFreezeThaw, h]

theorem execWaitConditionMet_canon (h : s.mem.wf = true) (c k : Nat) : OutCanon (execWaitConditionMet c k s) := by
  simp only [execWaitConditionMet]
  split <;> simp [h]

theorem execCompletionReread_canon (h : s.mem.wf = true) (c k : Nat) : OutCanon (execCompletionReread c k s) := by
  have wake {t : State} (ht : t.mem.wf = true) : (match (t.ctxAt c k).wait with
      | some w => if t.objectMet w then t.modCtx c k Ctx.wake else t
      | none => t).mem.wf = true := by
    split
    · simp [ht]
    · exact ht
  unfold execCompletionReread
  extract_lets reads n cls
  cases hp : (if n = 0 then some s else s.takePort c cls n) with
  | none => simpa using h
  | some t =>
    have ht : t.mem = s.mem := by
      split at hp
      · rw [← Option.some.inj hp]
      · exact State.takePort_mem hp
    rw [← ht] at h
    refine .ite h (.ite ?_ (wake h))
    rw [OutCanon_next, State.modCore_mem]
    exact wake h

theorem execStarvationGuard_canon (h : s.mem.wf = true) (c k : Nat) : OutCanon (execStarvationGuard c k s) := by
  simp [execStarvationGuard, h]

theorem execPreemptionRequest_canon (h : s.mem.wf = true) (c k : Nat) : OutCanon (execPreemptionRequest c k s) := by
  unfold execPreemptionRequest
  exact .ite (idle_canon h) (State.foldl_wf (fun t m ht => by simpa using ht) _ h)

/-- Thyme's request for a task, where it can be made. -/
theorem State.requested_canon (h : s.mem.wf = true) (c k : Nat) :
    (match execPreemptionRequest c k s with | .next t => t | _ => s).mem.wf = true := by
  have ho := execPreemptionRequest_canon h c k
  split
  · rename_i t ht
    exact OutCanon.of_next ho ht
  · exact h

theorem execPreemptionLimitExpiry_canon (h : s.mem.wf = true) (c k : Nat) : OutCanon (execPreemptionLimitExpiry c k s) := by
  simp [execPreemptionLimitExpiry, h]

@[simp] theorem State.storeBlocks_canon (h : s.mem.wf = true) (c k : Nat) : (s.storeBlocks c k).mem.wf = true := by
  simp only [State.storeBlocks, State.modCtx_mem]
  exact State.foldl_wf (fun t e ht => State.putBytes_canon ht _ _) _ h

theorem execEscalationDrainComplete_canon (h : s.mem.wf = true) (c k : Nat) : OutCanon (execEscalationDrainComplete c k s) := by
  simp [execEscalationDrainComplete, h]

theorem execServiceEntry_canon (h : s.mem.wf = true) (c : Nat) : OutCanon (execServiceEntry c s) := by
  simp only [execServiceEntry]
  split <;> simp [h]

@[simp] theorem State.snapshot_canon (h : s.mem.wf = true) (c k base n : Nat) : (s.snapshot c k base n).mem.wf = true := by
  simp [State.snapshot, Memory.wf_writeBytes h]

theorem execPhaseSnapshot_canon (h : s.mem.wf = true) (c k : Nat) : OutCanon (execPhaseSnapshot c k s) := by
  simp only [execPhaseSnapshot]
  split <;> simp [h]

theorem execPhaseRollback_canon (h : s.mem.wf = true) (c k : Nat) : OutCanon (execPhaseRollback c k s) := by
  simp only [execPhaseRollback]
  split
  · exact idle_canon h
  · refine .ite ?_ (.ite (.ite (idle_canon h) ?_) (.ite (idle_canon h) ?_))
    · exact State.foldl_wf (fun t m ht => by simpa using ht) _ h
    · rw [OutCanon_next, State.rollGang_mem]
      exact State.foldl_wf (fun t m ht => by simpa using ht) _ h
    · exact State.foldl_wf (fun t m ht => by simpa using ht) _ (by simpa using h)

theorem execJournalWrite_canon (h : s.mem.wf = true) : OutCanon (execJournalWrite s) := by
  simp only [execJournalWrite]
  split
  · exact idle_canon h
  · exact .ite (Memory.wf_writeBytes h _ _) (Memory.wf_writeBytes h _ _)

@[simp] theorem State.mapMoved_canon (h : s.mem.wf = true) (a n : Nat) (b : Option Nat) : (s.mapMoved a n b).mem.wf = true := by
  simp only [State.mapMoved]
  refine State.foldl_wf (fun t p ht => ?_) _ h
  split
  · exact State.putBytes_canon ht _ _
  · exact ht

/-! ### Launch queues and interrupts -/
theorem execLqPush_canon (h : s.mem.wf = true) (x die q addr : Nat) : OutCanon (execLqPush x die q addr s) := by
  simp only [execLqPush]
  refine .ite (idle_canon h) (.ite (by simpa using h) ?_)
  split
  · simpa using h
  · exact idle_canon h

theorem execLqControlWrite_canon (h : s.mem.wf = true) (x die q : Nat) (v : Word) : OutCanon (execLqControlWrite x die q v s) := by
  simp [execLqControlWrite, h]

@[simp] theorem State.deliverIrq_canon (h : s.mem.wf = true) (t n : Nat) : (s.deliverIrq t n).mem.wf = true := by
  simp only [State.deliverIrq]
  split
  · exact h
  · exact Memory.wf_writeBytes h _ _

@[simp] theorem State.raiseEnd_canon (h : s.mem.wf = true) (r : Rec) : (s.raiseEnd r).mem.wf = true := by
  unfold State.raiseEnd
  repeat' split
  all_goals simp [h]

theorem execCoalWindowExpiry_canon (h : s.mem.wf = true) (t : Nat) : OutCanon (execCoalWindowExpiry t s) := by
  unfold execCoalWindowExpiry
  split <;> simp [h]

@[simp] theorem State.thymeWrite_canon (h : s.mem.wf = true) (asn : BitVec 16) (p : Word) (a : Nat) (bs : List Byte) :
    (s.thymeWrite asn p a bs).mem.wf = true := by
  unfold State.thymeWrite
  split
  · exact Memory.wf_storeAll h _
  · exact h

@[simp] theorem State.endWith_canon (h : s.mem.wf = true) (src : LRec) (asn : BitVec 16) (status : Nat) (charges : List Nat) :
    (s.endWith src asn status charges).mem.wf = true := by
  unfold State.endWith
  extract_lets r t u v w
  have ht : t.mem.wf = true := by
    simp only [t]
    split <;> simp [h]
  have hv : v.mem.wf = true := State.foldl_wf (fun t c ht => by simpa using ht) _ (by simpa [u] using ht)
  have hw : w.mem.wf = true := by
    simp only [w]
    split
    · exact hv
    · split <;> simp [hv]
  exact State.raiseEnd_canon hw r

@[simp] theorem State.refuse_canon (h : s.mem.wf = true) (r : LRec) (st : Nat) : (s.refuse r st).mem.wf = true := by
  simp [State.refuse, h]

/-! ### Launches: acceptance and start -/
theorem State.takeItem_canon (h : s.mem.wf = true) (asn : BitVec 16) (launch : Word) (es : List Entry) (b : Nat) :
    (s.takeItem asn launch es b).mem.wf = true := by
  unfold State.takeItem
  extract_lets i
  split
  · exact State.foldl_wf (fun t k ht => by simpa using ht) _ h
  · split
    · simp only [State.putRegion_mem]
      split <;> simp [h]
    · exact h
  · split
    · split
      · split
        · exact h
        · rw [State.putRegion_mem]
          exact State.foldl_wf (fun t e ht => State.flushRegion_canon ht _ _ _) _ h
      · exact h
    · exact h

@[simp] theorem State.nameTasks_mem (e : Entry) : (s.nameTasks e).1.mem = s.mem := by
  rfl

@[simp] theorem State.nameAll_mem (es : List Entry) : (s.nameAll es).1.mem = s.mem := by
  induction es generalizing s with
  | nil => rfl
  | cons e r ih => simp [State.nameAll, ih]

theorem State.accept_canon (h : s.mem.wf = true) (r : LRec) (es : List Entry) (is : List Nat) : (s.accept r es is).mem.wf = true := by
  simp only [State.accept]
  exact State.foldl_wf (fun t b ht => State.takeItem_canon ht _ _ _ _) _ (by simpa using h)

theorem execLaunchAcceptance_canon (h : s.mem.wf = true) (die q : Nat) : OutCanon (execLaunchAcceptance die q s) := by
  simp only [execLaunchAcceptance]
  split
  · exact idle_canon h
  · refine .ite (idle_canon h) ?_
    split
    · rw [OutCanon_next]
      split <;> simp [h]
    · simp [h]
    · simp [h]
    · simp [h]
    · exact State.accept_canon (by simpa using h) _ _ _
    · exact State.foldl_wf (fun t m ht => State.requested_canon ht _ _) _ (by simpa using h)

@[simp] theorem State.destroyRange_canon (h : s.mem.wf = true) (base n : Nat) (keep : Bool) :
    (s.destroyRange base n keep).mem.wf = true := by
  simp only [State.destroyRange, State.clearReports_mem]
  exact State.foldl_wf (fun t e ht => State.foldl_wf (fun u y hu => State.flushRegion_canon hu _ _ _) _ ht) _ h

@[simp] theorem State.carve_canon (h : s.mem.wf = true) (base sz f : Nat) : (s.carve base sz f).mem.wf = true := by
  induction f generalizing s with
  | zero => exact h
  | succ f ih =>
    unfold State.carve
    split
    · split
      · exact ih (State.tokenApply_canon h _)
      · exact h
    · exact h

@[simp] theorem State.lendRange_canon (h : s.mem.wf = true) (base n : Nat) (p q : Word) : (s.lendRange base n p q).mem.wf = true :=
  State.foldl_wf (fun _ _ ht => State.tokenApply_canon ht _) _ h

@[simp] theorem State.lendParts_canon (h : s.mem.wf = true) (base sz j : Nat) (p : Word) (qs : List Word) :
    (s.lendParts base sz j p qs).mem.wf = true :=
  State.foldl_wf (fun _ _ ht => State.lendRange_canon ht _ _ _ _) _
    (State.foldl_wf (fun _ _ ht => State.carve_canon ht _ _ _) _ h)

@[simp] theorem State.lendReceives_canon (h : s.mem.wf = true) (e : Entry) : (s.lendReceives e).mem.wf = true := by
  refine State.foldl_wf (fun t m ht => State.foldl_wf (fun u v hu => ?_) _ ht) _ h
  dsimp only
  split
  · exact hu
  · exact State.lendParts_canon hu _ _ _ _ _

@[simp] theorem State.lendItems_canon (h : s.mem.wf = true) (l : Launch) (ix : Nat) (e : Entry) : (s.lendItems l ix e).mem.wf = true := by
  refine State.foldl_wf (fun t b ht => ?_) _ h
  dsimp only
  split
  · exact ht
  · split
    · split <;> simp [ht]
    · simp [ht]
    · exact ht

@[simp] theorem State.startPlace_canon (h : s.mem.wf = true) (l : Launch) (lk ix : Nat) (e : Entry) (m : Nat) (p : Place) :
    (s.startPlace l lk ix e m p).mem.wf = true := by
  unfold State.startPlace
  extract_lets x b t n u v
  have ht : t.mem = s.mem := State.modCore_mem _ _ _
  have hv : v.mem.wf = true := State.destroyRange_canon (by rwa [← ht] at h) _ _ _
  exact State.foldl_wf (fun t r ht => by rwa [State.putRegion_mem]) _ hv

@[simp] theorem State.liveParties_mem (e : Entry) : (s.liveParties e).1.mem = s.mem := by
  unfold State.liveParties
  split
  · rfl
  · simp

theorem State.startEntry_canon (h : s.mem.wf = true) (lk ix : Nat) (l : Launch) (e : Entry) (ps : List Place) :
    (s.startEntry lk ix l e ps).mem.wf = true := by
  unfold State.startEntry
  extract_lets a e t v g u
  have ht : t.mem.wf = true := State.foldl_wf (fun t p ht => State.startPlace_canon ht _ _ _ _ _ _) _ (by simpa [a] using h)
  have hu : u.mem.wf = true := by
    simp only [u]
    split
    · refine State.lendReceives_canon ?_ _
      rw [State.setGang_mem]
      exact State.foldl_wf (fun t p ht => by simpa using ht) _ ht
    · exact ht
  simpa using State.lendItems_canon hu l ix e

theorem State.startWhen_canon (h : s.mem.wf = true) (gang : Bool) (lk ix : Nat) : OutCanon (s.startWhen gang lk ix) := by
  unfold State.startWhen
  split
  · refine .ite (idle_canon h) ?_
    split
    · exact .ite (State.startEntry_canon h _ _ _ _ _) (idle_canon h)
    · exact idle_canon h
  · exact idle_canon h

theorem execDispatch_canon (h : s.mem.wf = true) (l e : Nat) : OutCanon (execDispatch l e s) := State.startWhen_canon h _ _ _
theorem execGangStart_canon (h : s.mem.wf = true) (n : Nat) : OutCanon (execGangStart n s) := State.startWhen_canon h _ _ _

theorem execPackageTick_canon (h : s.mem.wf = true) : OutCanon (execPackageTick s) := by
  unfold execPackageTick
  exact .ite (idle_canon h) (State.foldl_wf (fun t e ht => by simpa using ht) _ h)

/-! ### The ends of tasks and launches -/
@[simp] theorem State.settle_canon (h : s.mem.wf = true) (c k : Nat) : (s.settle c k).mem.wf = true := by
  unfold State.settle
  extract_lets land t w u v
  have hland {w : State} (hw : w.mem.wf = true) : (land w).mem.wf = true := State.landAll_canon (by simpa using hw) _ _ _
  have hu : u.mem.wf = true := by
    simp only [u]
    split
    · exact hland (by simpa [w] using hland h)
    · exact hland h
  have hv : v.mem.wf = true := by simpa [v] using hu
  split <;> simp [hv]

@[simp] theorem State.endTokens_canon (h : s.mem.wf = true) (x : Ctx) (c : Nat) : (s.endTokens x c).mem.wf = true := by
  unfold State.endTokens
  extract_lets p base t _ u v mine
  have ht : t.mem.wf = true := State.foldl_wf (fun t e ht => State.flushRegion_canon ht _ _ _) _ h
  have hv : v.mem.wf = true := State.destroyRange_canon (by exact ht) _ _ _
  exact State.foldl_wf (fun t e ht => by simpa using State.flushRegion_canon ht _ _ _) _ hv

@[simp] theorem State.endTask_canon (h : s.mem.wf = true) (c k : Nat) : (s.endTask c k).mem.wf = true := by
  unfold State.endTask
  extract_lets x ks t
  have ht : t.mem.wf = true := State.endTokens_canon (State.foldl_wf (fun t j ht => by simpa using ht) _ h) _ _
  exact State.foldl_wf (fun t j ht => by simpa using ht) _ ht

theorem State.doneCause_canon (h : s.mem.wf = true) (c k : Nat) {take : State → State}
    (ht : ∀ t, t.mem.wf = true → (take t).mem.wf = true) : (s.doneCause c k take).mem.wf = true := by
  simp only [State.doneCause]
  refine ht _ ?_
  split <;> simp [h]

theorem State.landFault_canon (h : s.mem.wf = true) (c k : Nat) : (s.landFault c k).mem.wf = true :=
  State.landCtx_canon (by simpa using h) _ _ _ _

theorem execDoneFinish_canon (h : s.mem.wf = true) (c k : Nat) : OutCanon (execDoneFinish c k s) := by
  unfold execDoneFinish
  extract_lets x ms t u
  have ht : t.mem.wf = true := State.foldl_wf (fun t m ht => State.endTask_canon ht _ _) _ h
  have hu : u.mem.wf = true := by
    simp only [u]
    split <;> exact ht
  refine .ite (idle_canon h) (.ite ?_ (.ite ?_ (.ite ?_ (.ite ?_ (.ite (idle_canon h) (.ite ?_ (.ite (idle_canon h)
    (.ite (idle_canon h) (.ite ?_ (.ite (idle_canon h) ?_))))))))))
  · exact State.doneCause_canon h c k fun t ht => State.enterAt_canon ht c State.takeAsync_mem
  · exact State.doneCause_canon h c k fun t ht => State.landFault_canon ht c k
  · exact .ite (by simpa using State.settle_canon h c k) (idle_canon h)
  · split
    · exact .ite (idle_canon h) (by simpa using h)
    · exact idle_canon h
  · exact .ite (State.foldl_wf (fun t m ht => State.settle_canon ht _ _) _ h) (idle_canon h)
  · exact State.foldl_wf (fun t m ht => by simpa using ht) _ h
  · simpa using hu

theorem execTaskKill_canon (h : s.mem.wf = true) (c k : Nat) : OutCanon (execTaskKill c k s) := by
  simp [execTaskKill, h]

@[simp] theorem State.endLaunchTokens_canon (h : s.mem.wf = true) (l : Launch) : (s.endLaunchTokens l).mem.wf = true := by
  unfold State.endLaunchTokens
  extract_lets sub t u v ps
  have ht : t.mem.wf = true := by
    refine State.foldl_wf (fun t b ht => ?_) _ h
    dsimp only
    split
    · exact ht
    · split
      · split
        · exact ht
        · exact State.destroyRange_canon ht _ _ _
      · exact ht
  have hu : u.mem.wf = true := State.foldl_wf (fun t g ht => State.destroyRange_canon ht _ _ _) _ ht
  exact State.foldl_wf (fun t e ht => by simpa using ht) _ hu

theorem execLaunchEnd_canon (h : s.mem.wf = true) (l : Nat) : OutCanon (execLaunchEnd l s) := by
  unfold execLaunchEnd
  split
  · simp [h]
  · exact idle_canon h
end

/-!
## Saved contexts and wear
-/

section
variable {s : State}

/-! ### Saving and restoring -/
@[simp] theorem State.parkOps_canon (h : s.mem.wf = true) (c k : Nat) : (s.parkOps c k).1.mem.wf = true := by
  refine State.foldl_fst_wf (fun a e ha => ?_) _ h
  split
  · rw [State.endOp_mem]
    exact Memory.wf_writeBytes ha _ _
  · exact ha

@[simp] theorem State.flushSpace_canon (h : s.mem.wf = true) (c : Nat) (asn : BitVec 16) : (s.flushSpace c asn).mem.wf = true := by
  simp only [State.flushSpace, State.modCore_mem]
  exact State.foldl_wf (fun t e ht => State.writeBack_canon ht _ _) _ h

@[simp] theorem State.copyRange_canon (h : s.mem.wf = true) (a b n : Nat) : (s.copyRange a b n).mem.wf = true :=
  Memory.wf_paste h _ _ _

@[simp] theorem State.writeSaved_canon (h : s.mem.wf = true) (c k base : Nat) : (s.writeSaved c k base).mem.wf = true := by
  unfold State.writeSaved
  extract_lets x b js ps y rep s1 s2 lanes s3 s4 s5 s6 s7
  have h1 : s1.mem.wf = true := by
    refine State.foldl_wf (fun t j ht => ?_) _ h
    dsimp only
    exact State.putBytes_canon ht _ _
  have h3 : s3.mem.wf = true := State.putBytes_canon (State.copyRange_canon h1 _ _ _) _ _
  have h4 : s4.mem.wf = true := State.putBytes_canon h3 _ _
  clear_value s1 s2 s3 s4
  have h5 : s5.mem.wf = true := by
    simp only [s5, State.ite_mem]
    split
    · exact h4
    · exact h3
  have h6 : s6.mem.wf = true := by
    simp only [s6]
    split <;> simp [h5]
  clear_value s5 s6
  have h7 : s7.mem.wf = true := by
    simp only [s7]
    cases rep <;> simp [h6]
  exact State.foldl_fst_wf (fun a j ha => State.copyRange_canon ha _ _ _) _ h7

@[simp] theorem State.saveOne_canon (h : s.mem.wf = true) (q : Nat) (pool : Bool) (p : Nat) (e : Entry) (c k : Nat) :
    (s.saveOne q pool p e c k).mem.wf = true := by
  unfold State.saveOne
  extract_lets x b n bytes js a s1 parts s2 base len y bars st v th s3 s4 s5 s6
  have ha : a.1.mem.wf = true := by
    refine State.foldl_fst_wf (fun a j ha => ?_) _ h
    exact State.parkOps_canon ha _ _
  have h2 : s2.mem.wf = true := State.writeSaved_canon (State.flushSpace_canon ha _ _) _ _ _
  have h6 : s6.mem = s2.mem := by
    simp only [s6, State.moveEnds_mem, State.rebase_mem, s5, s4, State.modLq_mem, s3]
  rw [← h6] at h2
  exact State.foldl_wf (fun t j ht => by simpa using ht) _ h2

theorem State.saveUnit_canon (h : s.mem.wf = true) (must : Bool) (c k : Nat) : OptCanon (s.saveUnit must c k) := by
  unfold State.saveUnit
  extract_lets b ms
  split
  · trivial
  · split
    · trivial
    · extract_lets t
      have ht : t.mem.wf = true := State.foldl_wf (fun t m ht => State.saveOne_canon ht _ _ _ _ _ _) _ h
      cases t.entryAt b.lkey b.entryIx with
      | none => trivial
      | some a => simpa using ht

theorem State.saveUnits_canon (must : Bool) (l : List (Nat × Nat)) (h : s.mem.wf = true) : OptCanon (State.saveUnits must l s) := by
  induction l generalizing s with
  | nil => exact h
  | cons m r ih =>
    unfold State.saveUnits
    split
    · rename_i t ht
      exact ih ((State.saveUnit_canon h must m.1 m.2).of_some ht)
    · trivial

theorem execContextSave_canon (h : s.mem.wf = true) (c k : Nat) : OutCanon (execContextSave c k s) := by
  unfold execContextSave
  extract_lets k' x us ms must
  refine .ite (idle_canon h) (.ite (by simpa using h) (.ite (idle_canon h) (.ite ?_ (.ite (idle_canon h) ?_))))
  · exact State.foldl_wf (fun t m ht => by simpa using ht) _ h
  · split
    · rename_i t ht
      exact (State.saveUnits_canon must _ h).of_some ht
    · refine .ite (idle_canon h) ?_
      split
      · rw [OutCanon_next, State.loseTask_mem]
        exact State.foldl_wf (fun t m ht => by simpa using ht) _ h
      · exact State.foldl_wf (fun t m ht => by simpa using ht) _ h

@[simp] theorem State.restoreOne_canon (h : s.mem.wf = true) (n : Nat) (v : Saved) (p : Place) : (s.restoreOne n v p).mem.wf = true := by
  unfold State.restoreOne
  extract_lets b len base o go at_ s1 m tags s2 latch xs offs back lanes js s3 s4 ctxOf s5 s6
  have h1 : s1.mem.wf = true := State.copyRange_canon h _ _ _
  have h3 : s3.mem.wf = true := by
    simp only [s3, State.modCore_mem]
    exact h1
  have h4 : s4.mem.wf = true := State.foldl_wf (fun t e ht => by simpa using ht) _ h3
  have h5 : s5.mem.wf = true := by
    simp only [s5, State.moveEnds_mem, State.rebase_mem]
    exact State.mapMoved_canon h4 _ _ _
  have h6 : s6.mem.wf = true := State.foldl_wf (fun t k ht => State.foldl_wf (fun t e ht => by simpa using ht) _ ht) _ h5
  refine State.foldl_wf (fun t o ht => ?_) _ h6
  split <;> exact ht

@[simp] theorem State.moveIn_canon (h : s.mem.wf = true) (q : Nat) : (s.moveIn q).mem.wf = true := by
  refine State.foldl_wf (fun t e ht => ?_) _ h
  dsimp only
  split <;> simp [ht]

theorem State.leaveReserve_canon (h : s.mem.wf = true) : OutCanon s.leaveReserve :=
  State.foldl_wf (fun _ _ ht => State.moveIn_canon ht _) _ h

theorem State.restoreUnit_canon (h : s.mem.wf = true) (lk ix : Nat) (p : Option (Nat × Nat)) : OptCanon (s.restoreUnit lk ix p) := by
  simp only [State.restoreUnit]
  split
  · split
    · trivial
    · split
      · trivial
      · rw [OptCanon_some, State.setEntry_mem, State.foldl_mem (fun t m => by simp)]
        split
        · rw [State.restoreGang_mem]
          exact State.foldl_wf (fun t m ht => State.restoreOne_canon ht _ _ _) _ h
        · exact State.foldl_wf (fun t m ht => State.restoreOne_canon ht _ _ _) _ h
  · trivial

theorem State.restoreUnits_canon (l : List (Nat × Nat)) (h : s.mem.wf = true) : OptCanon (State.restoreUnits l s) := by
  induction l generalizing s with
  | nil => exact h
  | cons u r ih =>
    unfold State.restoreUnits
    split
    · rename_i t ht
      exact ih ((State.restoreUnit_canon h u.1 u.2 none).of_some ht)
    · trivial

theorem execContextRestore_canon (h : s.mem.wf = true) (n c k : Nat) : OutCanon (execContextRestore n c k s) := by
  unfold execContextRestore
  split
  · exact idle_canon h
  · extract_lets u rest
    split
    · rename_i t ht
      obtain ⟨w, hw, hr⟩ := Option.bind_eq_some_iff.mp ht
      exact (State.restoreUnits_canon rest ((State.restoreUnit_canon h _ _ _).of_some hw)).of_some hr
    · exact idle_canon h

/-! ### Wear -/
@[simp] theorem State.tightOn_canon (h : s.mem.wf = true) (c k : Nat) : (s.tightOn c k).mem.wf = true := by
  simp only [State.tightOn]
  split
  · split
    · exact h
    · split
      · exact State.requested_canon h c k
      · split <;> simp [h]
  · exact h

@[simp] theorem State.drain_canon (h : s.mem.wf = true) (c : Nat) : (s.drain c).mem.wf = true :=
  State.foldl_wf (fun _ k ht => State.requested_canon ht c k) _ h

@[simp] theorem State.wearStep_canon (h : s.mem.wf = true) (c old : Nat) : (s.wearStep c old).mem.wf = true := by
  unfold State.wearStep
  extract_lets r t u
  have hu : u.mem.wf = true := by
    simp only [u, t]
    split <;> simp [h]
  split
  · exact h
  · split
    · exact State.foldl_wf (fun t k ht => State.tightOn_canon ht _ _) _ hu
    · split <;> simp [hu]

theorem execSampleInterval_canon (h : s.mem.wf = true) (c : Nat) (r : Sample) : OutCanon (execSampleInterval c r s) := by
  simp [execSampleInterval, h]

theorem execSampleFree_canon (h : s.mem.wf = true) (c : Nat) : OutCanon (execSampleFree c s) :=
  execSampleInterval_canon (by exact h) _ _

theorem execClockSwitch_canon (h : s.mem.wf = true) (c : Nat) : OutCanon (execClockSwitch c s) := by
  simp only [execClockSwitch]
  refine .ite ?_ (idle_canon h)
  rw [OutCanon_next, State.modCore_mem]
  exact State.foldl_wf (fun t d ht => by simpa using ht) _ h

theorem execClockSwitchEnd_canon (h : s.mem.wf = true) (c : Nat) : OutCanon (execClockSwitchEnd c s) := by
  simp [execClockSwitchEnd, h]

theorem execScratchpadSweep_canon (h : s.mem.wf = true) (c : Nat) : OutCanon (execScratchpadSweep c s) := by
  simp [execScratchpadSweep, h]

theorem execSageCommit_canon (h : s.mem.wf = true) : OutCanon (execSageCommit s) := by
  simp [execSageCommit, h]

theorem execCoreUnresponsive_canon (h : s.mem.wf = true) (c : Nat) : OutCanon (execCoreUnresponsive c s) := by
  simp only [execCoreUnresponsive]
  refine .ite (idle_canon h) (State.wearStep_canon ?_ _ _)
  rw [State.modCore_mem]
  exact State.foldl_wf (fun t k ht => by simpa using ht) _ (by simpa using h)
end

/-!
## Channels, links, hosts and management
-/

section
variable {s : State}

/-! ### Channels, links and the pod -/
theorem execBankAccess_canon (h : s.mem.wf = true) (n : Nat) : OutCanon (execBankAccess n s) := by
  simp only [execBankAccess]
  split
  · simp [h]
  · refine .ite (idle_canon h) ?_
    split
    · exact idle_canon h
    · refine .ite (idle_canon h) ?_
      rw [OutCanon_next, State.setBankAt_mem]
      split <;> simp [h]

theorem execAlertBlockEnd_canon (h : s.mem.wf = true) (n : Nat) : OutCanon (execAlertBlockEnd n s) := by
  simp only [execAlertBlockEnd]
  split <;> simp [h]

theorem execRefresh_canon (h : s.mem.wf = true) (n : Nat) : OutCanon (execRefresh n s) := by
  simp [execRefresh, h]

theorem execPatrolScrub_canon (h : s.mem.wf = true) (stack : Nat) : OutCanon (execPatrolScrub stack s) := by
  simp [execPatrolScrub, h]

theorem execL2Sweep_canon (h : s.mem.wf = true) (die slice : Nat) : OutCanon (execL2Sweep die slice s) := by
  simp only [execL2Sweep]
  refine .ite (idle_canon h) ?_
  cases s.soft.find? _ <;> simp [h]

theorem execChannelClr_canon (h : s.mem.wf = true) (x stack : Nat) : OutCanon (execChannelClr x stack s) := by
  simp [execChannelClr, h]

theorem execForce_canon (h : s.mem.wf = true) (x die : Nat) : OutCanon (execForce x die s) := by
  simp [execForce, h]

theorem execSoftError_canon (h : s.mem.wf = true) (e : SoftError) : OutCanon (execSoftError e s) := by
  cases e with
  | result c k i times =>
    simp only [execSoftError]
    split <;> simp [h]
  | _ => simp [execSoftError, h]

theorem execRequestAdmission_canon (h : s.mem.wf = true) (n : Nat) : OutCanon (execRequestAdmission n s) := by
  simp only [execRequestAdmission]
  split
  · refine .ite (idle_canon h) ?_
    split
    · simp [h]
    · exact idle_canon h
  · exact idle_canon h

theorem execShareRefill_canon (h : s.mem.wf = true) (c : Nat) : OutCanon (execShareRefill c s) := by
  simp only [execShareRefill]
  refine .ite (idle_canon h) ?_
  rw [OutCanon_next, State.modCore_mem, State.foldl_mem (fun t k => by simp)]
  exact h

theorem execLinkFailure_canon (h : s.mem.wf = true) (k : Nat) : OutCanon (execLinkFailure k s) := by
  simp [execLinkFailure, h]

theorem execFlitArrival_canon (h : s.mem.wf = true) (k lane : Nat) (outw ok : Bool) : OutCanon (execFlitArrival k lane outw ok s) := by
  simp [execFlitArrival, h]

theorem execTransportTimeout_canon (h : s.mem.wf = true) (n : Nat) : OutCanon (execTransportTimeout n s) := by
  simp [execTransportTimeout, h]

@[simp] theorem State.remoteAck_canon (h : s.mem.wf = true) (n : Nat) : (s.remoteAck n).mem.wf = true := by
  unfold State.remoteAck
  split
  · split
    · split
      · rw [State.dropFlight_mem]
        exact State.perform_canon h _ _ _
      · split <;> simp [h]
    · split
      · exact State.enginePerform_canon h _ _ _ _
      · exact h
    · exact h
  · exact h

@[simp] theorem State.remoteWrite_canon (h : s.mem.wf = true) (pa : Nat) (bs : List Byte) (p : Word) :
    (s.remoteWrite pa bs p).mem.wf = true := by
  unfold State.remoteWrite
  extract_lets here
  split
  · simp [Memory.wf_writeBytes h]
  · exact h

theorem execPacketReceive_canon (h : s.mem.wf = true) (port : Nat) (p : Packet) : OutCanon (execPacketReceive port p s) := by
  unfold execPacketReceive
  refine .ite (idle_canon h) ?_
  split <;> simp [h]

theorem execPortLinkUp_canon (h : s.mem.wf = true) (p : Nat) : OutCanon (execPortLinkUp p s) := by
  simp [execPortLinkUp, h]

theorem execPortLinkDown_canon (h : s.mem.wf = true) (p : Nat) : OutCanon (execPortLinkDown p s) := by
  simp [execPortLinkDown, h]

theorem execPodRemove_canon (h : s.mem.wf = true) (n : Nat) : OutCanon (execPodRemove n s) := by
  unfold execPodRemove
  exact .ite (State.foldl_wf (fun t p ht => by simpa using ht) _ h) (.ite (by simpa using h) (idle_canon h))

theorem execPodAdmit_canon (h : s.mem.wf = true) (n : Nat) (ok : Bool) : OutCanon (execPodAdmit n ok s) := by
  simp [execPodAdmit, h]

/-! ### The hosts -/
theorem execHselWrite_canon (h : s.mem.wf = true) (x : Nat) (v : Word) : OutCanon (execHselWrite x v s) := by
  simp [execHselWrite, h]

theorem State.hostToken_canon (h : s.mem.wf = true) (x : Nat) (op : TokOp) : (s.hostToken x op).mem.wf = true := by
  have flush (t : TokReq) (n : Nat) {u : State} (hu : u.mem.wf = true) :
      (u.cores.foldl (fun (w : State) e => w.flushRegion e.1 t.base n) u).mem.wf = true :=
    State.foldl_wf (fun w e hw => State.flushRegion_canon hw _ _ _) _ hu
  unfold State.hostToken
  extract_lets t n y u w z v
  have hu : u.mem.wf = true := by simpa [u] using h
  have hv : v.mem.wf = true := by
    simp only [v]
    split
    · exact flush t n hu
    · exact hu
  repeat' split
  all_goals simp [h, hu, hv]

theorem hostCommand_canon (h : s.mem.wf = true) (op : TokOp) (x : Nat) : OutCanon (hostCommand op x s) :=
  .ite (State.hostToken_canon h x op) (idle_canon h)

@[simp] theorem State.xinvCore_canon (h : s.mem.wf = true) (c : Nat) (asn : BitVec 16) (dropE : TlbEntry → Bool) (dropL : Line → Bool) :
    (s.xinvCore c asn dropE dropL).mem.wf = true := by
  simp only [State.xinvCore, State.modCore_mem]
  exact State.foldl_wf (fun t e ht => State.writeBack_canon ht _ _) _ h

@[simp] theorem State.xinv_canon (h : s.mem.wf = true) (x op : Nat) (dropE : BitVec 16 → TlbEntry → Bool)
    (dropL : BitVec 16 → Line → Bool) : (s.xinv x op dropE dropL).mem.wf = true := by
  unfold State.xinv
  extract_lets asn t
  have ht : t.mem.wf = true := State.foldl_wf (fun u e hu => State.xinvCore_canon hu _ _ _ _) _ h
  repeat' split
  all_goals simp [h, ht]

theorem execXinvAsn_canon (h : s.mem.wf = true) (x : Nat) : OutCanon (execXinvAsn x s) := by
  simp [execXinvAsn, h]

theorem execXinvRange_canon (h : s.mem.wf = true) (x : Nat) : OutCanon (execXinvRange x s) := by
  simp [execXinvRange, h]

theorem execHostBadCommand_canon (h : s.mem.wf = true) (x op : Nat) : OutCanon (execHostBadCommand x op s) := by
  simp [execHostBadCommand, h]

theorem State.hostAgain_canon (h : s.mem.wf = true) (x : Nat) : OutCanon (State.hostAgain x s) := by
  unfold State.hostAgain
  split
  case h_16 => exact execXinvAsn_canon h _
  case h_17 => exact execXinvRange_canon h _
  case h_18 => exact idle_canon h
  all_goals exact hostCommand_canon h _ _

theorem State.hostOp_canon (h : s.mem.wf = true) (x op : Nat) : OutCanon (s.hostOp x op) := by
  unfold State.hostOp
  refine .ite (idle_canon h) ?_
  split
  case h_16 => exact execXinvAsn_canon h _
  case h_17 => exact execXinvRange_canon h _
  case h_18 => exact execHostBadCommand_canon h _ _
  all_goals exact hostCommand_canon h _ _

@[simp] theorem State.attest_canon (h : s.mem.wf = true) : s.attest.mem.wf = true := by
  unfold State.attest
  extract_lets pa g bs t
  have ht : t.mem.wf = true := by
    clear_value bs
    simp [t, Memory.wf_writeBytes h]
  clear_value t
  split
  · exact h
  · exact ht

theorem execAgo_canon (h : s.mem.wf = true) (x : Nat) : OutCanon (execAgo x s) := by
  simp [execAgo, h]

theorem State.hostWrites_canon (h : s.mem.wf = true) (x o v : Nat) : OutCanon (s.hostWrites x o v) := by
  unfold State.hostWrites
  refine .ite (.ite (State.hostOp_canon h _ _) (by simpa using h)) (.ite (idle_canon h)
    (.ite (.ite (execLqPush_canon h _ _ _ _) (execLqControlWrite_canon h _ _ _ _))
    (.ite (.ite (execForce_canon h _ _) (idle_canon h)) (.ite (.ite (execAgo_canon h _) (idle_canon h)) (.ite ?_ ?_)))))
  · exact execChannelClr_canon (by simpa using h) _ _
  · simpa using h

theorem execRegisterWrite_canon (h : s.mem.wf = true) (x a : Nat) (v : Word) : OutCanon (execRegisterWrite x a v s) := by
  simp [execRegisterWrite, h]

theorem execHostAccess_canon (h : s.mem.wf = true) (x a : Nat) (d : List Byte) (wr : Bool) : OutCanon (execHostAccess x a d wr s) := by
  unfold execHostAccess
  extract_lets o t u
  have ht : t.mem.wf = true := by simp [t, Memory.wf_writeBytes h]
  have hu : u.mem.wf = true := by simp [u, h]
  clear_value o t u
  split
  · exact idle_canon h
  split
  · split
    · simpa using h
    · split
      · exact State.hostWrites_canon (by simpa using h) _ _ _
      · simpa using h
  split
  · simpa using h
  split
  · simpa using ht
  · rw [OutCanon_next]
    split <;> simp [hu]

/-! ### Reset, power and management -/
@[simp] theorem State.cleared_canon (h : s.mem.wf = true) (power : Bool) : (s.cleared power).mem.wf = true := by
  cases power
  · rfl
  · exact h

@[simp] theorem State.stage_mem (comp : Nat) (im : Option Image) : (s.stage comp im).1.mem = s.mem := by
  unfold State.stage
  repeat' split
  all_goals simp

@[simp] theorem State.resumeWear_canon (h : s.mem.wf = true) : s.resumeWear.mem.wf = true := by
  refine State.foldl_wf (fun t c ht => ?_) _ h
  dsimp only
  split <;> simp [ht]

@[simp] theorem State.boot_canon (h : s.mem.wf = true) (ims : List Image) : (s.boot ims).mem.wf = true := by
  unfold State.boot
  extract_lets a b c
  have ha : a.1.mem.wf = true := by simpa [a] using h
  have hb : b.1.mem.wf = true := by simpa [b] using ha
  have hc : c.1.mem.wf = true := by simp [c, hb]
  clear_value a b c
  split
  · exact ha
  · split
    · exact hb
    · split <;> exact hc

theorem execPackageReset_canon (h : s.mem.wf = true) (ims : List Image) : OutCanon (execPackageReset ims s) := by
  simp [execPackageReset, h]

theorem execMgmtReset_canon (h : s.mem.wf = true) : OutCanon (execMgmtReset s) := by
  simp [execMgmtReset, h]

theorem execMgmtPower_canon (h : s.mem.wf = true) (on : Bool) : OutCanon (execMgmtPower on s) := by
  simp [execMgmtPower, h]

theorem execPowerLoss_canon (h : s.mem.wf = true) : OutCanon (execPowerLoss s) := by
  simp [execPowerLoss, h]

theorem execOvertemperature_canon (h : s.mem.wf = true) : OutCanon (execOvertemperature s) := by
  simp [execOvertemperature, h]

theorem execThrottleStep_canon (h : s.mem.wf = true) (pnow tj : Nat) : OutCanon (execThrottleStep pnow tj s) := by
  simp [execThrottleStep, h]

theorem State.throttleFree_canon (h : s.mem.wf = true) : OutCanon s.throttleFree :=
  execThrottleStep_canon (by exact h) _ _

theorem execLiveUpdate_canon (h : s.mem.wf = true) (im : Image) : OutCanon (execLiveUpdate im s) := by
  simp [execLiveUpdate, h]

theorem State.endUpdate_canon (h : s.mem.wf = true) : OutCanon s.endUpdate := by
  unfold State.endUpdate
  split <;> simp [h]

theorem State.install_canon (h : s.mem.wf = true) (c : Nat) : OutCanon (State.install c s) := by
  simp [State.install, h]

theorem execMgmtFirmwareUpdate_canon (h : s.mem.wf = true) (im : Image) : OutCanon (execMgmtFirmwareUpdate im s) := by
  simp [execMgmtFirmwareUpdate, h]

theorem execMgmtRead_canon (h : s.mem.wf = true) (n : Nat) : OutCanon (execMgmtRead n s) := by
  simp [execMgmtRead, h]

theorem execMgmtAttestation_canon (h : s.mem.wf = true) (nonce : Nat) : OutCanon (execMgmtAttestation nonce s) := by
  simp [execMgmtAttestation, h]

theorem execMgmtForceDecTed_canon (h : s.mem.wf = true) (die : Nat) : OutCanon (execMgmtForceDecTed die s) := by
  simp [execMgmtForceDecTed, h]

theorem execMgmtRetireCore_canon (h : s.mem.wf = true) (c : Nat) : OutCanon (execMgmtRetireCore c s) := by
  simp [execMgmtRetireCore, h]

theorem execMgmtRaiseMinSvn_canon (h : s.mem.wf = true) (svn : Nat) (signed : Bool) : OutCanon (execMgmtRaiseMinSvn svn signed s) := by
  simp [execMgmtRaiseMinSvn, h]

theorem execMgmtClearCore_canon (h : s.mem.wf = true) (c : Nat) : OutCanon (execMgmtClearCore c s) := by
  simp [execMgmtClearCore, h]

theorem execUnassignedOpcode_canon (h : s.mem.wf = true) : OutCanon (execUnassignedOpcode s) := by
  simp [execUnassignedOpcode, h]

theorem execEmptyBundle_canon (h : s.mem.wf = true) : OutCanon (execEmptyBundle s) := by
  simp [execEmptyBundle, h]
end

/-!
## The step
-/

section
variable {s : State}

/-! ### The events of a wall cycle -/

/-- An event keeps memory canonical, whatever the state it happens in. -/
def EventCanon (e : Event) : Prop := ∀ s : State, s.mem.wf = true → OutCanon (e s)

/-- Every event of a list keeps memory canonical. -/
def EventsCanon (l : List Event) : Prop := ∀ e ∈ l, EventCanon e

@[simp] theorem EventsCanon_nil : EventsCanon [] := by simp [EventsCanon]
@[simp] theorem EventsCanon_cons (e : Event) (l : List Event) : EventsCanon (e :: l) ↔ EventCanon e ∧ EventsCanon l :=
  List.forall_mem_cons

theorem EventsCanon.ite {c : Prop} [Decidable c] {l r : List Event} (hl : EventsCanon l) (hr : EventsCanon r) :
    EventsCanon (if c then l else r) := by
  split
  · exact hl
  · exact hr

theorem EventsCanon.map {α : Type} {f : α → Event} (hf : ∀ a, EventCanon (f a)) (l : List α) : EventsCanon (l.map f) := by
  intro e he
  obtain ⟨a, -, rfl⟩ := List.mem_map.mp he
  exact hf a

theorem EventsCanon.flatMap {α : Type} {f : α → List Event} (hf : ∀ a, EventsCanon (f a)) (l : List α) :
    EventsCanon (l.flatMap f) := by
  intro e he
  obtain ⟨a, -, ha⟩ := List.mem_flatMap.mp he
  exact hf a e ha

theorem EventsCanon.one {e : Event} (he : EventCanon e) : EventsCanon [e] := by
  simpa using he

theorem EventsCanon.two {e e' : Event} (he : EventCanon e) (he' : EventCanon e') : EventsCanon [e, e'] := by
  simpa using ⟨he, he'⟩

theorem EventsCanon.add {l r : List Event} (hl : EventsCanon l) (hr : EventsCanon r) : EventsCanon (l ++ r) :=
  List.forall_mem_append.mpr ⟨hl, hr⟩

theorem State.runEvents_canon {l : List Event} (hl : EventsCanon l) (h : s.mem.wf = true) : OutCanon (s.runEvents l) := by
  induction l generalizing s with
  | nil => exact h
  | cons e r ih =>
    obtain ⟨he, hr⟩ := (EventsCanon_cons e r).mp hl
    exact .andThen (he s h) fun _ ht => ih hr ht

theorem Flight.events_canon (n : Nat) (f : Flight) : EventsCanon (f.events n) := by
  have access : EventCanon (execHomeAccess n) := fun _ h => execHomeAccess_canon h n
  have arrival : EventCanon (execLoadDataArrival n) := fun _ h => execLoadDataArrival_canon h n
  have report : EventCanon (execDirtyReport n) := fun _ h => execDirtyReport_canon h n
  refine .add (.ite EventsCanon_nil (.one fun _ h => execRequestAdmission_canon h n)) ?_
  cases f.msg with
  | access a =>
    refine .add (.add (.ite EventsCanon_nil (.one report)) (.ite (.one fun _ h => execHomeAtomic_canon h n) (.one access))) ?_
    cases a.dst with
    | slot => exact .one fun _ h => execSlotLanding_canon h n
    | latch => exact .one fun _ h => execLatchReady_canon h n
    | _ => exact .ite (.one fun _ h => execWriteAcknowledgement_canon h n) (.one arrival)
  | fence | flush => exact .one access
  | marker => exact .one fun _ h => execFlushMarker_canon h n
  | ack => exact .one fun _ h => execFlushAcknowledgement_canon h n
  | token => exact .two (fun _ h => execTokenSliceRequest_canon h n) arrival
  | inval => exact .one fun _ h => execOwnershipInvalidation_canon h n
  | spliceReq => exact .one fun _ h => execSpliceRequest_canon h n
  | spliceAns => exact .one fun _ h => execSpliceAnswer_canon h n
  | append => exact .one fun _ h => execRemoteAppend_canon h n
  | head => exact .one fun _ h => execHeadMessage_canon h n true
  | unsplice => exact .one fun _ h => execUnspliceMarker_canon h n
  | headReq => exact .one fun _ h => execHeadRequest_canon h n
  | headAns => exact .one fun _ h => execHeadRequestAnswer_canon h n
  | arrive => exact .one fun _ h => execBarrierArrival_canon h n
  | release => exact .one fun _ h => execBarrierRelease_canon h n
  | piece => exact .add (.ite EventsCanon_nil (.one report)) (.one access)
  | sxstop | launch => exact .two access arrival

theorem Ctx.events_canon (u : State) (c k : Nat) (x : Ctx) : EventsCanon (Ctx.events u c k x) := by
  unfold Ctx.events
  refine .add (.add (.add (.add (.add (.add (.add (.add ?_ ?_) ?_) ?_) ?_) ?_) ?_) ?_) ?_
  · cases x.wanted with
    | none => exact EventsCanon_nil
    | some g => exact .one fun _ h => execSegmentExpansion_canon h c k g
  · exact .map (fun q _ h => execHeadMessageSend_canon h c k q.1) _
  · cases x.wait with
    | none => exact EventsCanon_nil
    | some w =>
      exact .add (.one fun _ h => execWaitConditionMet_canon h c k)
        (.ite (.one fun _ h => execCompletionReread_canon h c k) EventsCanon_nil)
  · exact .ite (.one fun _ h => execPreemptionLimitExpiry_canon h c k) EventsCanon_nil
  · exact .ite (.one fun _ h => execEscalationDrainComplete_canon h c k) EventsCanon_nil
  · exact .ite (.one fun _ h => execPhaseSnapshot_canon h c k) EventsCanon_nil
  · exact .ite (.one fun _ h => execPhaseRollback_canon h c k) EventsCanon_nil
  · exact .ite (.one fun _ h => execDoneFinish_canon h c k) EventsCanon_nil
  · exact .ite (.one fun _ h => execContextSave_canon h c k) EventsCanon_nil

theorem Core.events_canon (u : State) (c : Nat) (y : Core) : EventsCanon (Core.events u c y) := by
  unfold Core.events
  refine .add (.add (.add (.add (.add (.add (.add (.add ?_ ?_) ?_) ?_) ?_) ?_) ?_) ?_) ?_
  · exact .map (fun i _ h => execTableWalkRead_canon h c i) _
  · refine .flatMap (fun e => .ite EventsCanon_nil ?_) _
    exact Ctx.events_canon u c e.1 e.2
  · cases y.running with
    | none => exact EventsCanon_nil
    | some k =>
      exact .add (.one fun _ h => execStarvationGuard_canon h c k)
        (.ite (.one fun _ h => execCompletionReread_canon h c k) EventsCanon_nil)
  · exact .ite (.one fun _ h => execServiceEntry_canon h c) EventsCanon_nil
  · exact .ite (.one fun _ h => execInterlockHold_canon h c) EventsCanon_nil
  · exact .ite (.one fun _ h => execClockSwitch_canon h c) EventsCanon_nil
  · exact .ite (.one fun _ h => execClockSwitchEnd_canon h c) EventsCanon_nil
  · exact .ite (.one fun _ h => execScratchpadSweep_canon h c) EventsCanon_nil
  · exact .add (.two (fun _ h => execSparseStart_canon h c) fun _ h => execMetadataArrival_canon h c)
      (.two (fun _ h => execSparseEmit_canon h c) fun _ h => execSparseFinish_canon h c)

theorem EngOp.events_canon (n : Nat) (o : EngOp) : EventsCanon (o.events n) := by
  unfold EngOp.events
  cases o.body with
  | sparse x => exact EventsCanon_nil
  | copy c =>
    refine .add (.add (.add (.map (fun i _ h => execCopyPiece_canon h n i) _) ?_) (.map (fun t _ h => execCpymDelivery_canon h n t.1) _)) ?_
    · cases c.todo.find? (fun i => !c.asked.contains i) with
      | none => exact EventsCanon_nil
      | some i => exact .one fun _ h => execCopyPiece_canon h n i
    · exact .two (fun _ h => execNotify_canon h n) fun _ h => execCopyCompletion_canon h n

theorem State.thymeEvents_canon (u : State) : EventsCanon u.thymeEvents := by
  unfold State.thymeEvents
  refine .add (.add (.add (.add (.add ?_ ?_) ?_) ?_) ?_) ?_
  · exact .map (fun q _ h => execLaunchAcceptance_canon h _ _) _
  · exact .flatMap (fun l => .flatMap (fun e => .ite
      (.two (fun _ h => execDispatch_canon h _ _) fun _ h => execGangStart_canon h _) EventsCanon_nil) _) _
  · refine .flatMap (fun v => ?_) _
    split
    · split
      · exact .one fun _ h => execContextRestore_canon h _ _ _
      · exact EventsCanon_nil
    · exact EventsCanon_nil
  · exact .ite (.one fun _ h => State.leaveReserve_canon h) EventsCanon_nil
  · exact .map (fun l _ h => execLaunchEnd_canon h _) _
  · exact .map (fun w _ h => execCoalWindowExpiry_canon h _) _

theorem State.scans_canon (u : State) : EventsCanon u.scans :=
  .flatMap (fun d => .map (fun die _ h => execOrphanScan_canon h die d.party) _) _

theorem State.sweeps_canon (u : State) : EventsCanon u.sweeps :=
  .map (fun e _ h => execL2Sweep_canon h e.1 e.2) _

theorem State.pending_canon (u : State) : EventsCanon u.pending := by
  unfold State.pending
  refine .add (.add (.add (.add (.add (.add (.add (.add (.add (.add (.add (.add (.add ?_ ?_) ?_) ?_) ?_)
    u.thymeEvents_canon) u.scans_canon) ?_) ?_) ?_) ?_) u.sweeps_canon) ?_) ?_
  · refine .flatMap (fun e => ?_) _
    exact Core.events_canon u e.1 e.2
  · refine .flatMap (fun e => ?_) _
    exact Flight.events_canon e.1 e.2
  · exact .map (fun d _ h => execCopyStart_canon h d) _
  · refine .flatMap (fun e => ?_) _
    exact EngOp.events_canon e.1 e.2
  · exact .flatMap (fun g => .two (fun _ h => execGissHoldEnd_canon h _) fun _ h => execGangCompletion_canon h _) _
  · exact .map (fun x _ h => State.hostAgain_canon h _) _
  · exact .ite EventsCanon_nil (.one fun _ h => execJournalWrite_canon h)
  · exact .flatMap (fun b => .add (.two (fun _ h => execAlertBlockEnd_canon h _) fun _ h => execBankAccess_canon h _)
      (.one fun _ h => execRefresh_canon h _)) _
  · exact .map (fun k _ h => execPatrolScrub_canon h k) _
  · exact .map (fun e _ h => State.install_canon h _) _
  · exact .map (fun e _ h => execFreezeThaw_canon h _) _

theorem State.onTime_canon (u : State) : EventsCanon u.onTime := by
  unfold State.onTime
  refine .add (.add (.add (.add (.add ?_ ?_) ?_) ?_) ?_) ?_
  · exact .ite (.one fun _ h => execPackageTick_canon h) EventsCanon_nil
  · exact .ite (.one fun _ h => execSageCommit_canon h) EventsCanon_nil
  · exact .map (fun b _ h => execBankAccess_canon h _) _
  · exact .map (fun e _ h => execShareRefill_canon h _) _
  · exact .ite EventsCanon_nil (.add (.add (.map (fun c _ h => execSampleFree_canon h c) _)
      (.ite (.one fun _ h => State.throttleFree_canon h) EventsCanon_nil)) (.map (fun n _ h => execTransportTimeout_canon h n) _))
  · exact .ite (.one fun _ h => State.endUpdate_canon h) EventsCanon_nil

/-! ### One step -/

/-- Every instruction of the table, a slot's or an event's, keeps memory canonical. Those that share a course share its lemma; where
the course takes a function that only the instruction's own definition shows, the arm names that definition. -/
theorem exec_canon (i : Instr) (h : s.mem.wf = true) : OutCanon (exec i s) := by
  cases i with
  | add _ | sub _ | mul _ | mulh _ | mulhn _ | and _ | or _ | xor _ | andn _ | orn _ | shl _ | shra _ | shrl _ | rotl _
  | min _ | max _ | minn _ | maxn _ | sext _ | zext _ | bfx _ | bfi _ | sel _ | fadd _ | fsub _ | fmul _ | fma _ | fmin _
  | fmax _ => exact alu_canon h _ _ _ _
  | div _ | divn _ | mod _ | modn _ => exact divide_canon h _ _
  | clz w => exact show OutCanon (execClz w s) from alu1_canon h _ _
  | ctz w => exact show OutCanon (execCtz w s) from alu1_canon h _ _
  | popc w => exact show OutCanon (execPopc w s) from alu1_canon h _ _
  | mov w => exact show OutCanon (execMov w s) from alu1_canon h _ _
  | li _ => exact execLi_canon h _
  | lih _ => exact execLih_canon h _
  | lit _ => exact execLit_canon h _
  | cmpeq _ | cmpne _ | cmplt _ | cmple _ | cmpltn _ | cmplen _ => exact cmp_canon h _ _
  | pand _ | por _ | pxor _ => exact pred2_canon h _ _
  | pnot w => exact show OutCanon (execPnot w s) from pred2_canon h _ _
  | fcmplt _ | fcmpeq _ => exact fcmp_canon h _ _
  | fcvti w => exact show OutCanon (execFcvti w s) from falu1_canon h _ _
  | icvtf w => exact show OutCanon (execIcvtf w s) from falu1_canon h _ _
  | fabs w => exact show OutCanon (execFabs w s) from falu1_canon h _ _
  | fneg w => exact show OutCanon (execFneg w s) from falu1_canon h _ _
  | br _ => exact execBr_canon h _
  | brp _ => exact execBrp_canon h _
  | brnp _ => exact execBrnp_canon h _
  | call _ => exact execCall_canon h _
  | ret _ | jmps _ => exact jumpReg_canon h _
  | loop w => exact show OutCanon (execLoop w s) from loopRun_canon h _ _ _
  | loopi w => exact show OutCanon (execLoopi w s) from loopRun_canon h _ _ _
  | loopx w => exact show OutCanon (execLoopx w s) from loopRun_canon h _ _ _
  | mloop w => exact show OutCanon (execMloop w s) from loopRun_canon h _ _ _
  | lbrk _ => exact execLbrk_canon h _
  | getx _ => exact execGetx_canon h _
  | chksig _ => exact execChksig_canon h _
  | phase _ => exact execPhase_canon h _
  | qwait _ => exact execQwait_canon h _
  | qfree _ => exact execQfree_canon h _
  | waitc _ => exact execWaitc_canon h _
  | bara _ => exact execBara_canon h _
  | barw _ => exact execBarw_canon h _
  | bar _ => exact execBar_canon h _
  | gjoin _ => exact execGjoin_canon h _
  | giss _ => exact execGiss_canon h _
  | gend _ => exact execGend_canon h _
  | lnch _ => exact execLnch_canon h _
  | done _ => exact execDone_canon h _
  | yield _ => exact execYield_canon h _
  | trap _ => exact execTrap_canon h _
  | eretResume _ | eretSkip _ | eretEsc _ => exact eret_canon h _ _
  | sysrd _ => exact execSysrd_canon h _
  | syswr _ => exact execSyswr_canon h _
  | qcfg _ => exact execQcfg_canon h _
  | qpop _ => exact execQpop_canon h _
  | qsplc _ => exact execQsplc_canon h _
  | qunsp _ => exact execQunsp_canon h _
  | qsync _ => exact execQsync_canon h _
  | qstat _ => exact execQstat_canon h _
  | qclr _ => exact execQclr_canon h _
  | dset _ => exact execDset_canon h _
  | dget _ => exact execDget_canon h _
  | qzap _ => exact execQzap_canon h _
  | vadd _ | vsub _ | vmul _ | vmin _ | vmax _ | vabd _ | vadds _ | vsubs _ | vmulh _ | vshl _ | vshra _ | vshrl _ =>
    exact vmap2_canon h _ _ _
  | vfma w => exact show OutCanon (execVfma w s) from vmap3f_canon h _ _
  | vfms w => exact show OutCanon (execVfms w s) from vmap3f_canon h _ _
  | vfnma w => exact show OutCanon (execVfnma w s) from vmap3f_canon h _ _
  | vabs _ | vneg _ => exact vmap1_canon h _ _ _
  | vand _ | vor _ | vxor _ | vnot _ | vmov _ | vsel _ | vidx _ | xcp _ | xbc _ => exact vec_canon h _ _ _ _ _
  | vclz w => exact show OutCanon (execVclz w s) from vmap1_canon h _ _ _
  | vpopc w => exact show OutCanon (execVpopc w s) from vmap1_canon h _ _ _
  | vcmpeq _ | vcmpne _ | vcmplt _ | vcmple _ => exact vpred_canon h _ _ _
  | vpand w => exact show OutCanon (execVpand w s) from vpred_canon h _ _ _
  | vpor w => exact show OutCanon (execVpor w s) from vpred_canon h _ _ _
  | vpnot w => exact show OutCanon (execVpnot w s) from vpred_canon h _ _ _
  | vradd _ | vrmax _ | vrmin _ => exact vreduce_canon h _ _
  | vdot2 _ | vdot4 _ => exact vdot_canon h _
  | sfexp2 _ | sflog2 _ | sfrcp _ | sfrsq _ | sfsqrt _ | sfsin _ | sfcos _ | sftanh _ | sfsigm _ | sferf _ => exact special_canon h _ _
  | ppack w => exact show OutCanon (execPpack w s) from permute_canon h _ _ _ _ _ _ _ _
  | punpk w => exact show OutCanon (execPunpk w s) from permute_canon h _ _ _ _ _ _ _ _
  | pcvt _ | pres _ | pcrt _ => exact pconvert_canon h _
  | pscl _ => exact execPscl_canon h _
  | pdscl w => exact show OutCanon (execPdscl w s) from permute_canon h _ _ _ _ _ _ _ _
  | pshuf _ => exact execPshuf_canon h _
  | ptrn _ => exact execPtrn_canon h _
  | pswz w => exact show OutCanon (execPswz w s) from permute_canon h _ _ _ _ _ _ _ _
  | plut _ => exact execPlut_canon h _
  | ld _ => exact execLd_canon h _
  | st _ => exact execSt_canon h _
  | ldl _ => exact execLdl_canon h _
  | stl _ => exact execStl_canon h _
  | ldv _ => exact execLdv_canon h _
  | stv _ => exact execStv_canon h _
  | ldg _ => exact execLdg_canon h _
  | sts _ => exact execSts_canon h _
  | pref _ => exact execPref_canon h _
  | flush _ | flushInv _ => exact flushRange_canon h _ _
  | flushAll _ => exact execFlushAll_canon h _
  | fence _ => exact execFence_canon h _
  | lock _ | unlock _ => exact lockRun_canon h _ _
  | aadd _ | amin _ | amax _ | aand _ | aor _ | axor _ | aswp _ | acas _ | afadd _ => exact atomic_canon h _ _
  | redadd _ | redmin _ | redmax _ | redfadd _ => exact reduction_canon h _ _
  | lend _ | lendPass _ | retn _ | split _ | join _ | share _ | unshr _ | tkmodePlain _ | tkmodeAtomic _ | tkqry _
  | reclaimClean _ | reclaimReinit _ | reclaimCreate _ | reclaimDestroy _ | reclaimSeize _ => exact tokenRun_canon h _ _ _
  | tkqryChain _ => exact execTkqryChain_canon h _
  | tkqrySelf _ => exact execTkqrySelf_canon h _
  | cpy _ | cpym _ | cpyn _ | cpyq _ | cpyf _ => exact copyRun_canon h _ _
  | sxbm _ | sxrl _ => exact sxRun_canon h _ _
  | sxstop _ => exact sxstop_canon h _ _
  | sxstopAll w => exact show OutCanon (execSxstopAll w s) from sxstop_canon h _ _
  | mnop _ => exact execMnop_canon h _
  | mpa _ | mpsh _ => exact push_canon h _ _
  | macc _ => exact execMacc_canon h _
  | mshf _ => exact execMshf_canon h _
  | mdrn _ => exact execMdrn_canon h _
  | mclr _ => exact execMclr_canon h _
  | mlda _ => exact execMlda_canon h _
  | interlockHold _ => exact execInterlockHold_canon h _
  | freezeThaw _ => exact execFreezeThaw_canon h _
  | segmentExpansion _ _ _ => exact execSegmentExpansion_canon h _ _ _
  | exposedWriteLanding _ => exact execExposedWriteLanding_canon h _
  | loadDataArrival _ => exact execLoadDataArrival_canon h _
  | registerLanding _ _ => exact execRegisterLanding_canon h _ _
  | slotLanding _ => exact execSlotLanding_canon h _
  | waitConditionMet _ _ => exact execWaitConditionMet_canon h _ _
  | starvationGuard _ _ => exact execStarvationGuard_canon h _ _
  | preemptionRequest _ _ => exact execPreemptionRequest_canon h _ _
  | preemptionLimitExpiry _ _ => exact execPreemptionLimitExpiry_canon h _ _
  | serviceEntry _ => exact execServiceEntry_canon h _
  | escalationDrainComplete _ _ => exact execEscalationDrainComplete_canon h _ _
  | phaseSnapshot _ _ => exact execPhaseSnapshot_canon h _ _
  | phaseRollback _ _ => exact execPhaseRollback_canon h _ _
  | spliceRequest _ => exact execSpliceRequest_canon h _
  | spliceAnswer _ => exact execSpliceAnswer_canon h _
  | remoteAppend _ => exact execRemoteAppend_canon h _
  | headMessageSend _ _ _ => exact execHeadMessageSend_canon h _ _ _
  | headMessage _ _ => exact execHeadMessage_canon h _ _
  | unspliceMarker _ => exact execUnspliceMarker_canon h _
  | headRequest _ => exact execHeadRequest_canon h _
  | headRequestAnswer _ => exact execHeadRequestAnswer_canon h _
  | copyStart _ => exact execCopyStart_canon h _
  | copyPiece _ _ => exact execCopyPiece_canon h _ _
  | cpymDelivery _ _ => exact execCpymDelivery_canon h _ _
  | notify _ => exact execNotify_canon h _
  | copyCompletion _ => exact execCopyCompletion_canon h _
  | sparseStart _ => exact execSparseStart_canon h _
  | metadataArrival _ => exact execMetadataArrival_canon h _
  | sparseEmit _ => exact execSparseEmit_canon h _
  | sparseFinish _ => exact execSparseFinish_canon h _
  | latchReady _ => exact execLatchReady_canon h _
  | matrixAccumulationLanding _ => exact execMatrixAccumulationLanding_canon h _
  | drainSlotPresent _ => exact execDrainSlotPresent_canon h _
  | barrierArrival _ => exact execBarrierArrival_canon h _
  | barrierRelease _ => exact execBarrierRelease_canon h _
  | gangStart _ => exact execGangStart_canon h _
  | gissHoldEnd _ => exact execGissHoldEnd_canon h _
  | gangCompletion _ => exact execGangCompletion_canon h _
  | homeAccess _ => exact execHomeAccess_canon h _
  | homeAtomic _ => exact execHomeAtomic_canon h _
  | tableWalkRead _ _ => exact execTableWalkRead_canon h _ _
  | dirtyReport _ => exact execDirtyReport_canon h _
  | tokenSliceRequest _ => exact execTokenSliceRequest_canon h _
  | ownershipInvalidation _ => exact execOwnershipInvalidation_canon h _
  | partyDeath _ => exact execPartyDeath_canon h _
  | orphanScan _ _ => exact execOrphanScan_canon h _ _
  | completionReread _ _ => exact execCompletionReread_canon h _ _
  | l1Eviction _ _ => exact execL1Eviction_canon h _ _
  | flushMarker _ => exact execFlushMarker_canon h _
  | flushAcknowledgement _ => exact execFlushAcknowledgement_canon h _
  | lqPush _ _ _ _ => exact execLqPush_canon h _ _ _ _
  | lqControlWrite _ _ _ _ => exact execLqControlWrite_canon h _ _ _ _
  | launchAcceptance _ _ => exact execLaunchAcceptance_canon h _ _
  | packageTick => exact execPackageTick_canon h
  | dispatch _ _ => exact execDispatch_canon h _ _
  | doneFinish _ _ => exact execDoneFinish_canon h _ _
  | launchEnd _ => exact execLaunchEnd_canon h _
  | coalWindowExpiry _ => exact execCoalWindowExpiry_canon h _
  | contextSave _ _ => exact execContextSave_canon h _ _
  | contextRestore _ _ _ => exact execContextRestore_canon h _ _ _
  | sampleInterval _ _ => exact execSampleInterval_canon h _ _
  | clockSwitch _ => exact execClockSwitch_canon h _
  | clockSwitchEnd _ => exact execClockSwitchEnd_canon h _
  | scratchpadSweep _ => exact execScratchpadSweep_canon h _
  | sageCommit => exact execSageCommit_canon h
  | bankAccess _ => exact execBankAccess_canon h _
  | alertBlockEnd _ => exact execAlertBlockEnd_canon h _
  | refresh _ => exact execRefresh_canon h _
  | patrolScrub _ => exact execPatrolScrub_canon h _
  | l2Sweep _ _ => exact execL2Sweep_canon h _ _
  | channelClr _ _ => exact execChannelClr_canon h _ _
  | force _ _ => exact execForce_canon h _ _
  | flitArrival _ _ _ _ => exact execFlitArrival_canon h _ _ _ _
  | linkFailure _ => exact execLinkFailure_canon h _
  | transportTimeout _ => exact execTransportTimeout_canon h _
  | packetReceive _ _ => exact execPacketReceive_canon h _ _
  | requestAdmission _ => exact execRequestAdmission_canon h _
  | shareRefill _ => exact execShareRefill_canon h _
  | hostAccess _ _ _ _ => exact execHostAccess_canon h _ _ _ _
  | hostLend _ | hostLendPass _ | hostRetn _ | hostSplit _ | hostJoin _ | hostShare _ | hostUnshr _ | hostTkmodePlain _
  | hostTkmodeAtomic _ | hostTkqry _ | hostReclaimClean _ | hostReinit _ | hostCreate _ | hostDestroy _ | hostSeize _ =>
    exact hostCommand_canon h _ _
  | xinvAsn _ => exact execXinvAsn_canon h _
  | xinvRange _ => exact execXinvRange_canon h _
  | hostBadCommand _ _ => exact execHostBadCommand_canon h _ _
  | ago _ => exact execAgo_canon h _
  | registerWrite _ _ _ => exact execRegisterWrite_canon h _ _ _
  | journalWrite => exact execJournalWrite_canon h
  | throttleStep _ _ => exact execThrottleStep_canon h _ _
  | overtemperature => exact execOvertemperature_canon h
  | packageReset _ => exact execPackageReset_canon h _
  | liveUpdate _ => exact execLiveUpdate_canon h _
  | mgmtPower _ => exact execMgmtPower_canon h _
  | mgmtReset => exact execMgmtReset_canon h
  | mgmtFirmwareUpdate _ => exact execMgmtFirmwareUpdate_canon h _
  | mgmtRead _ => exact execMgmtRead_canon h _
  | mgmtAttestation _ => exact execMgmtAttestation_canon h _
  | mgmtForceDecTed _ => exact execMgmtForceDecTed_canon h _
  | mgmtRetireCore _ => exact execMgmtRetireCore_canon h _
  | mgmtRaiseMinSvn _ _ => exact execMgmtRaiseMinSvn_canon h _ _
  | mgmtClearCore _ => exact execMgmtClearCore_canon h _
  | podRemove _ => exact execPodRemove_canon h _
  | podAdmit _ _ => exact execPodAdmit_canon h _ _
  | emptyBundle => exact execEmptyBundle_canon h
  | unassignedOpcode => exact execUnassignedOpcode_canon h
  | taskKill _ _ => exact execTaskKill_canon h _ _
  | coreUnresponsive _ => exact execCoreUnresponsive_canon h _
  | powerLoss => exact execPowerLoss_canon h
  | portLinkDown _ => exact execPortLinkDown_canon h _
  | portLinkUp _ => exact execPortLinkUp_canon h _
  | softError _ => exact execSoftError_canon h _
  | writeAcknowledgement _ => exact execWriteAcknowledgement_canon h _
  | hselWrite _ _ => exact execHselWrite_canon h _ _

theorem State.wall_canon {run : Instr → State → Out} (hrun : ∀ i t, t.mem.wf = true → OutCanon (run i t))
    (h : s.mem.wf = true) (deliver : Bool) : OutCanon (s.wall run deliver) := by
  refine .andThen (State.runEvents_canon s.onTime_canon h) fun t ht => ?_
  refine .andThen (.ite (State.runEvents_canon t.pending_canon ht) ht) fun u hu => ?_
  exact State.clock_canon hrun (by simpa using hu)

theorem State.stepWith_canon {run : Instr → State → Out} (hrun : ∀ i t, t.mem.wf = true → OutCanon (run i t))
    (h : s.mem.wf = true) :
    OutCanon (s.stepWith run) := by
  unfold State.stepWith
  split
  · exact hrun _ _ h
  · exact State.wall_canon hrun (by exact h) _
  · exact State.wall_canon hrun h true
end

/-- Settles O60: by cases of the step. An event of the agenda is one instruction of the table; a wall cycle runs a list of events
and then the issue of every core, whose slots are instructions too. Each writes memory only by writes that keep it canonical. -/
theorem stepKeepsMemoryCanonical : Obligations.StepKeepsMemoryCanonical := by
  intro s t h hst
  exact (State.stepWith_canon (fun i _ ht => exec_canon i ht) h).of_next hst

end Sys2Proof.Machine
end
